-- ==== Sys2Proof/Word.lean ====
section
/-! DEFINITION. The word of the GW64 (40 bits, chapter 00), its byte, and the sparse table type in which
State holds arrays and memories. -/

namespace Sys2Proof

/-- One word of the GW64: 40 bits. -/
abbrev Word := BitVec 40

/-- One byte, as words travel (R13). -/
abbrev Byte := BitVec 8

/-- A sparse array: pairs of an index and an entry. Its canonical form (indexes strictly rising, no entry
equal to what an unlisted index reads as) is `Machine.tabWf`. -/
abbrev Tab (α : Type) := List (Nat × α)

end Sys2Proof
end

