-- ==== Sys2Proof/Syntax.lean ====
section
/-! DEFINITION. The commands of the block: one constructor for each row of spec/opcode_table.json, with what the
command carries. Values measured outside the block (voltages, readings, samples, frames, test outcomes) are
operands. -/

namespace Sys2Proof

/-- What the header word of a packet names beside its source (R177): the destination port, the payload in words, and the class,
background or foreground. -/
structure PacketHead where
  dst : Nat
  len : Nat := 1
  back : Bool := false
  deriving DecidableEq, Repr

/-- A stretch of a slice's window: when it begins, in µs after the start of the turn grid, how long it lasts, and the mean of the
slice's differential input over it in nV. No polarity edge and no end of an exclusion of R569 falls inside one. -/
structure Stretch where
  start : Nat
  us : Nat
  nV : Int
  deriving DecidableEq, Repr

/-- What the modulator of a slice sees of its input over a window: stretch by stretch, and the mean in nV under the window's own
weighting (R575), of which the manual fixes the zeros alone. -/
structure Reading where
  parts : List Stretch := []
  mid : Int := 0
  deriving DecidableEq, Repr

/-- The measurements of Table 12-3 on one slice, in nV: its offset at gains 1 and 128 referred to the input, VREF_OUT, the divider
taps VREF_OUT / 100 and VREF_OUT / 1 000, and 100 µA through the internal 1 kΩ. -/
structure SliceRef where
  off1 : Int := 0
  off128 : Int := 0
  vref : Int := 2500000000
  div100 : Int := 25000000
  div1000 : Int := 2500000
  path : Int := 100000000
  deriving DecidableEq, Repr

/-- A command of the GW64. -/
inductive Instr where
  /-- RESET_N_ASSERT (R141): RESET_N held low long enough starts a chip reset, drives every ball to its Reset column and clears the hard-trip latch. -/
  | resetNAssert
  /-- CHIP_RESET_RELEASE (R86): The internal chip reset releases 1 ms to 1.1 ms after its last holder releases, and the boot ROM begins. -/
  | chipResetRelease (cause : Nat) (up down : List Bool) (xtal : Bool)
  /-- VCORE_SUPERVISOR_TRIP (R87): VCORE below 0.80 V starts a chip reset that keeps the fatal latch. -/
  | vcoreSupervisorTrip
  /-- VCORE_POWER_ON_RESET (R87): VCORE below 0.40 V for 1 ms starts a chip reset and clears the fatal latch. -/
  | vcorePowerOnReset
  /-- VIO_SUPERVISOR_TRIP (R86): VIO below 2.80 V holds the chip reset. -/
  | vioSupervisorTrip
  /-- VANA_POWER_ON_RESET (R57): VANA below 3.00 V resets the trip unit and clears the hard-trip latch, together with a chip reset. -/
  | vanaPowerOnReset
  /-- VANA_LOW (R118): The VANA low supervisor trips, so local analog values go FAULT and the hold-up energy reads 0. -/
  | vanaLow
  /-- VBKUP_LOW (R861): VBKUP below 1.90 V for 10 ms clears calendar validity. -/
  | vbkupLow
  /-- VCORE_MEASUREMENT (R88): Each 1 ms the GW64 reads VCORE; two readings below 0.90 V raise SPEED_MARGIN. -/
  | vcoreMeasurement (vcore vio vana vbkup : Nat)
  /-- SPEED_MONITOR_READING (R183): Each 10 ms all sixteen speed monitors are read and reported in SPN_MONn. -/
  | speedMonitorReading (counts : List Nat)
  /-- JUNCTION_TEMP_READING (R165): Each 100 ms the four junction sensors are read; two readings at or above 147 °C raise JUNCTION_HOT. -/
  | junctionTempReading (codes : List Nat)
  /-- STRAP_CHANGE_CHECK (R74): Once per second the strap balls are compared with their latched values; two differences record STRAP_CHANGED. -/
  | strapChangeCheck (levels : List Bool)
  /-- HOLDUP_SENSE (R119): A HOLDUP_SNS reading stuck at full scale or near zero for 60 s raises HOLDUP_SENSE. -/
  | holdupSense (code : Nat)
  /-- IMAGE_PAIRING (R432): The boot ROM verifies the four images and chooses the keeper and engine pair to run. -/
  | imagePairing
  /-- HOLDUP_GATE_READING (R96): Each 10 ms at the gate the boot ROM reads the hold-up energy and PFW_N, and passes the gate when both allow it. -/
  | holdupGateReading (code : Nat)
  /-- PROOF (R469): The proof tests and remaps lanes, keeper tiles, tiles, SRAM, NVM samples and slices. -/
  | proof (ms : Nat) (lanes keepers tiles : List Nat) (rows sram weak : List (Nat × Nat)) (slices : List SliceRef)
  /-- KEEPER_START (R296): The keeper starts from the active slot and loads and checks the engine image in every tile. -/
  | keeperStart (badTiles : List Nat)
  /-- PLATE_READ (R437): The keeper reads and validates plate A, then plate B where A is refused. -/
  | plateRead (ok erase4k addr4 : Bool) (op4k density : Nat)
  /-- ADMISSION (R534): Admission places tasks and checks memory, scan lists, buses and chain bounds at the corner. -/
  | admission (ms : Nat)
  /-- ADMISSION_RERUN (R557): A tile or slice retired during step 8 makes admission run once more from check 2. -/
  | admissionRerun (ms : Nat)
  /-- ISLAND_CONFIGURATION (R252): At step 9 the keeper sends each island its plate configuration and marks it CONFIGURED. -/
  | islandConfiguration
  /-- FIRST_VALUES_TIMEOUT (R605): Step 10 ends when every list has delivered a sample, or 1 s after step 9. -/
  | firstValuesTimeout
  /-- IDENTITY_CHECK_TIMEOUT (R444): Step 11 ends 5 s after step 9, and nodes that have not reported are lost. -/
  | identityCheckTimeout
  /-- ARMED (R443): Once steps 10 and 11 have ended, the keeper arms the plant, clears start freeze and sends the first node commands. -/
  | armed
  /-- PFW_N_FALL (R105): PFW_N low for 2 µs asserts the power-fail warning source. -/
  | pfwNFall
  /-- PFW_N_RISE (R105): PFW_N high for 20 ms deasserts its warning source. -/
  | pfwNRise
  /-- FLUSH_STEP (R107): The power-fail flush passes to its next step in the order of Table 3-7 once the previous step ends. -/
  | flushStep (code : Nat)
  /-- STORE_QUEUE_RETRY (R100): At most every 1 ms the head of the store queue is retried against the energy check. -/
  | storeQueueRetry (code : Nat)
  /-- HOLDUP_LOW (R104): The oldest queued store waiting 10 s outside warnings raises HOLDUP_LOW. -/
  | holdupLow
  /-- OPERATING_SECONDS_STORE (R112): Every 360 s the operating seconds are stored to the next rotation-set word. -/
  | operatingSecondsStore
  /-- WORD_STORE_END (R304): A word program and its verify complete; a differing verify queues a second store ahead of others. -/
  | wordStoreEnd (bank : Nat) (differs : Bool)
  /-- ERASE_PULSE_END (R305): An erase pulse and its blank check end; the sequence ends or fails after 16 pulses. -/
  | erasePulseEnd (bank : Nat) (blank : Bool)
  /-- SCRUB_READ (R325): Every 400 ms the scrubber reads one 16-word packet in each bank. -/
  | scrubRead (found : List (Nat × Bool))
  /-- SCRUB_LATE (R328): A pass not complete within 24 h of operating time raises SCRUB_LATE. -/
  | scrubLate
  /-- ROW_RETIREMENT (R330): The keeper copies a failing row to a spare, redirects it and records NVM_ROW_RETIRED. -/
  | rowRetirement (differs : Bool)
  /-- PERSISTENT_PASS (R319): Every 900 s the keeper stores changed persistent items and their rows' wear words. -/
  | persistentPass
  /-- NVM_TIMEOUT (R343): A bank turn not complete within 2 ms raises NVM_TIMEOUT. -/
  | nvmTimeout (bank : Nat)
  /-- LINK_WORD_TRANSFER (R172): One word crosses a spine link by the four-phase handshake and is checked and corrected. -/
  | linkWordTransfer (dir : Nat) (wrong : List Nat) (src : Nat) (head : PacketHead)
  /-- SPN_LANE_SWAP (R208): Once both router ports have drained, the keeper moves the lane steering past the bad lane and clears the freezes. -/
  | spnLaneSwap
  /-- SPINE_STALL (R210): A handshake phase incomplete for 10 µs ends the packet and raises SPINE_STALL. -/
  | spineStall (router port : Nat)
  /-- ARB_REQUEST (R186): A requester raises a request at an arbiter instance. -/
  | arbRequest (n req : Nat) (back : Bool)
  /-- ARB_RELEASE (R189): The owner of a phase-separated arbiter releases it, and the chosen next owner starts. -/
  | arbRelease (n req : Nat)
  /-- ARB_TURN_START (R191): A one-ahead arbiter serves the grant it decided earlier and decides the next turn. -/
  | arbTurnStart (n : Nat)
  /-- ARB_WITHDRAW (R195): A request is withdrawn, free before grant or at the cost of one dead cycle after it. -/
  | arbWithdraw (n req : Nat)
  /-- DEAD_CYCLE_END (R195): The dead cycle after a withdrawn grant ends and the arbiter decides afresh. -/
  | deadCycleEnd (n : Nat)
  /-- ARB_FREEZE (R197): The keeper sets an arbiter's freeze bit; no new grant, and DRAINED sets when the turn ends. -/
  | arbFreeze (n : Nat)
  /-- ARB_UNFREEZE (R198): The keeper clears the freeze bit and the arbiter decides afresh. -/
  | arbUnfreeze (n : Nat)
  /-- ARB_DOUBLE (R211): Two raised grant wires raise ARB_DOUBLE. -/
  | arbDouble (n : Nat)
  /-- TOGGLE_EVENT (R222): One control event crosses between fabric and island by a toggle. -/
  | toggleEvent (island toggle : Nat) (more : Bool)
  /-- QUEUE_ENTRY (R223): One entry crosses through a dual-clock queue. -/
  | queueEntry (island queue : Nat) (entry : Option Word)
  /-- HOLD_AND_FLAG (R226): A configuration or status word or set crosses by hold-and-flag. -/
  | holdAndFlag (island base : Nat) (words : List Word)
  /-- PROBE (R231): Every 10 ms each crossing sends a probe toggle to its island. -/
  | probe
  /-- CROSSING_TIMEOUT (R240): A crossing transfer times out; the island is reset and set STOPPED, raising ISLAND_CLOCK_STOP. -/
  | crossingTimeout (island : Nat)
  /-- RESET_FLUSH (R244): A reset across a crossing empties both sides and returns the island to DEFAULT, recording ISL_RESYNC. -/
  | resetFlush (island : Nat)
  /-- XT40_STOP (R246): No crystal edge for 1 µs moves MAIN to the RC oscillator, takes the CAN controllers off the bus and raises XT40_STOP. -/
  | xt40Stop
  /-- RC_LOST (R250): No RC edge for 1 µs while the crystal runs raises RC_LOST. -/
  | rcLost
  /-- MINOR_FRAME_TICK (R265): The PWM island's 50 ms tick starts the next minor frame on every logical tile. -/
  | minorFrameTick
  /-- FRAME_TICK_LOST (R292): No tick within 55 ms makes the tiles use the self-timed chain and raises FRAME_TICK_LOST. -/
  | frameTickLost
  /-- TASK_ENTRY (R266): A tile runs one cycle-table entry, reading its inputs at its start and running its blocks. -/
  | taskEntry (tile corr : Nat)
  /-- KEEPER_PACKET_VOTE (R260): The voter compares the keeper tiles' copies of an outgoing packet. -/
  | keeperPacketVote (port : Nat) (copies : List (Nat × Word))
  /-- VOTE_TIMEOUT (R260): A copy late by 50 µs after the second copy ends the vote. -/
  | voteTimeout (port : Nat) (copies : List (Nat × Word))
  /-- KEEPER_TILE_RETURN (R262): At the next major-frame boundary the keeper copies state into the tile that left and returns it to the vote. -/
  | keeperTileReturn (k : Nat) (ok : Bool)
  /-- RUNTIME_CHECK_FAIL (R481): A logical tile fails a runtime check and its frame is withheld. -/
  | runtimeCheckFail (tile : Nat) (published : Bool)
  /-- MIGRATION_LOAD_END (R484): The spare's load completes, the map is updated, TILE_MIGRATED is raised and the spare starts its entries. -/
  | migrationLoadEnd
  /-- SPARE_TILE_TEST_FAIL (R482): A spare tile failing its continuous test is retired. -/
  | spareTileTestFail (phys : Nat)
  /-- SHARED_SRAM_SCRUB (R489): Every 10 ms the keeper scrubs one 16-word packet per shared SRAM bank. -/
  | sharedSramScrub (bad : List Nat)
  /-- FAULT_RAISE (R355): A source's cause appears; the collector classifies, escalates, records and starts reactions. -/
  | faultRaise (src : Nat) (param : Word) (unit : Nat)
  /-- LINE_BREAK (R349): A source pair whose rails agree for 2 µs is taken as asserted and raises LINE_BREAK. -/
  | lineBreak (src : Nat)
  /-- FAULT_CAUSE_GONE (R358): A source's cause disappears; an acknowledged source then clears. -/
  | faultCauseGone (src : Nat)
  /-- FLT_ACK (R357): A session writes a source number or 0xFF to FLT_ACK to acknowledge faults. -/
  | fltAck (seq mask : Nat) (data : Word)
  /-- FATAL_RESET_TIMEOUT (R360): 1 s after the fatal latch sets, the collector performs the chip reset if the flush is unconfirmed. -/
  | fatalResetTimeout
  /-- CHIP_RESET_REACTION (R354): After the fault mirror is stored, or 20 ms, a CHIP_RESET reaction resets the chip. -/
  | chipResetReaction
  /-- FATAL_MIRROR_STORE (R361): In fatal service the latched fault mirror is stored once at a 10 ms reading with enough energy. -/
  | fatalMirrorStore (code : Nat)
  /-- WATCHDOG_KICK (R364): Every 100 ms the keeper kicks the window watchdog; an early kick is an expiry. -/
  | watchdogKick
  /-- WDOG_EXPIRY (R365): No kick before the late limit holds the outputs hung for 1 ms, then resets the chip. -/
  | wdogExpiry
  /-- BEACON_TOGGLE (R363): Every 250 ms the running keeper inverts BEACON unless a Severe fault holds it low. -/
  | beaconToggle
  /-- FLT_INJECT (R368): A factory session in test mode injects rail levels for one fault source. -/
  | fltInject (seq mask : Nat) (data : Word)
  /-- COLLECTOR_SELF (R378): A mismatch between the collector's two state copies raises COLLECTOR_SELF. -/
  | collectorSelf (param : Word)
  /-- RECORD_CREATE (R394): A new record enters the tail of the SRAM buffer. -/
  | recordCreate (code unit : Nat) (a b : Word)
  /-- OLDEST_RECORD_TIMEOUT (R395): The oldest buffered record waiting 3 600 s triggers a flush. -/
  | oldestRecordTimeout
  /-- CHUNK_START (R396): A record chunk of up to 16 records starts under the energy check. -/
  | chunkStart (code : Nat)
  /-- CHUNK_STORE_END (R393): A chunk's words are programmed with each W0 last, and its records count as stored. -/
  | chunkStoreEnd
  /-- SVC_SECTION_START (R446): A session SECTION command starts a section by Table 11-6. -/
  | svcSectionStart (seq sect : Nat)
  /-- SVC_SECTION_STOP (R447): A session SECTION command stops a section or every section. -/
  | svcSectionStop (seq sect op : Nat)
  /-- AUTO_START_ARMED (R449): An ARMED auto-start rule fires at its delay after arming. -/
  | autoStartArmed (sect : Nat)
  /-- KEEPER_VALUE_WRITE (R451): Every 1 s, and at each change, the keeper writes its PRODUCER 3 values. -/
  | keeperValueWrite
  /-- PLATE_BEGIN (R517): An engineer starts a plate write; the slot's sectors are erased. -/
  | plateBegin (seq slot length : Nat)
  /-- FLASH_SECTOR_ERASE_END (R519): A flash 4 KiB sector erase completes as its status poll shows. -/
  | flashSectorEraseEnd
  /-- PLATE_DATA (R517): A PLATE_DATA frame delivers bytes that are kept or programmed in pages. -/
  | plateData (seq off : Nat) (bytes : List Byte)
  /-- FLASH_PAGE_PROGRAM_END (R519): A flash page program completes as its status poll shows. -/
  | flashPageProgramEnd
  /-- PLATE_END (R517): The header is programmed, the slot is read back and validated, and PLATE_WRITTEN is recorded. -/
  | plateEnd (seq : Nat)
  /-- FLASH_TIMEOUT (R526): A flash erase or program past its bound abandons the plate write. -/
  | flashTimeout
  /-- SLICE_TURN_BOUNDARY (R578): At a 250 µs turn boundary a slice ends one entry, writes its sample and begins the next. -/
  | sliceTurnBoundary (list : Nat) (code code2 : Reading) (ovr : Bool) (lo hi vexc : Nat)
  /-- SAMPLE_PROCESSING (R607): A sample from the CONV queue is classified, linearised, range-tested, substituted, paired and written. -/
  | sampleProcessing
  /-- PAIR_DISAGREE (R621): The pair's disagreement timer reaches LIMIT_MS, so both members go DISAGREE. -/
  | pairDisagree (pair : Nat)
  /-- SWITCH_DELAY_EXPIRY (R626): A switch's ON_MS or OFF_MS timer expires and the switch changes state. -/
  | switchDelayExpiry (sw : Nat)
  /-- AGE_CHECK (R620): Every 10 ms the ages of pair members and switch sources are checked for STALE. -/
  | ageCheck
  /-- ROTATION_FIRING (R584): The rotation timer picks the outgoing and incoming slices and starts the overlap. -/
  | rotationFiring
  /-- ROTATION_HANDOVER (R585): After the overlap comparison the incoming slice takes the list. -/
  | rotationHandover
  /-- CALIBRATION_END (R582): A start or rotation calibration completes and its corrections apply. -/
  | calibrationEnd (slice : Nat) (offs gains : List Int) (ref : SliceRef)
  /-- BLANK_TRIGGER_ASSERT (R589): A blanking trigger asserts and its entries stop requesting, with conversions in flight discarded. -/
  | blankTriggerAssert (trig : Nat)
  /-- BLANK_TRIGGER_END (R589): A blanking trigger's time ends or its ball falls, and its entries request again. -/
  | blankTriggerEnd (trig : Nat)
  /-- BLANK_LIMIT (R591): Blanking beyond BLANK_MS turns the value STALE and raises BLANK_LIMIT. -/
  | blankLimit (value : Nat)
  /-- EXC_FAULT (R601): An excitation source out of compliance raises EXC_FAULT. -/
  | excFault (src meas : Nat)
  /-- VREF_FAULT (R602): VREF_OUT out of range for 10 ms raises VREF_FAULT. -/
  | vrefFault
  /-- MODULATOR_STALL (R603): A modulator without transitions for 64 µs retires its slice. -/
  | modulatorStall (slice : Nat)
  /-- MAINS_ZERO_CROSSING (R644): A rising crossing of the reference phase ends one mains cycle and starts the next. -/
  | mainsZeroCrossing
  /-- MISSING_CROSSING (R644): No crossing within 1.5 nominal periods ends the cycle at one nominal period. -/
  | missingCrossing
  /-- HALF_CYCLE_REFRESH (R645): The half-cycle RMS of each phase is refreshed. -/
  | halfCycleRefresh (rms : List Int)
  /-- MAINS_WINDOW_END (R646): A 10 or 12 cycle window ends; RMS, frequency, sequence and unbalance are computed and written. -/
  | mainsWindowEnd (rms : List Int) (periods : Nat) (pos neg : Int) (acb : Bool)
  /-- START_REQUEST (R651): A motor asked to run with ranks 1 to 3 allowing places a start request. -/
  | startRequest (ch : Nat)
  /-- START_WITHDRAW (R657): A start request is withdrawn; a chosen one makes a dead step. -/
  | startWithdraw (ch : Nat)
  /-- DECISION_STEP (R652): Every 100 ms the start budget serves its last decision and decides the next. -/
  | decisionStep
  /-- START_END (R655): A start in progress ends at the latest of 2 s, proving and the proving time. -/
  | startEnd (ch : Nat)
  /-- START_STARVED (R656): A request waiting longer than WAIT_S raises START_STARVED. -/
  | startStarved (ch : Nat)
  /-- DIP_LEARNED (R659): 2 s after a grant the observed drop updates the motor's learned dip. -/
  | dipLearned (ch : Nat)
  /-- SPEED_PUBLICATION (R686): Every 100 ms fan speeds are published and loops, stall and fan loss are judged. -/
  | speedPublication (tach : List (Nat × Nat × Nat))
  /-- FAN_LOSS (R691): The fan-loss condition lasting past the group's longest STALL_MS raises FAN_LOSS. -/
  | fanLoss (dryer : Nat)
  /-- HARD_TRIP (R693): The trip comparator sets the latch, asserts SHUTDOWN_N and takes the owning dryer's channels. -/
  | hardTrip (cause : Nat)
  /-- HOST_HEARTBEAT (R698): A host heartbeat on HOST_BUS restarts supervision and counts toward fog exit. -/
  | hostHeartbeat
  /-- FOG_START (R698): The supervision timer reaches HOST_S: fog mode takes the fans, heat and dryer motors. -/
  | fogStart
  /-- FAN_FOG_ACK (R699): A session writes ACK of FAN_FOG; with three heartbeats counted, fog mode ends. -/
  | fanFogAck (seq mask : Nat) (data : Word)
  /-- FAN_FIX_WRITE (R681): A session writes FAN_FIXn, unless the plate locks it. -/
  | fanFixWrite (seq n mask : Nat) (words : List Word)
  /-- MOTION_PUBLICATION (R718): Every 100 ms motion rates are published and motors are proved and interlocks judged. -/
  | motionPublication (edges : List (Nat × Nat × Nat)) (fb : List (Nat × Bool))
  /-- PROVE_TIMEOUT (R721): A motor not proved when PROVE elapses is stopped, TRIPPED and raises MOT_PROVE. -/
  | proveTimeout (ch : Nat)
  /-- FEEDBACK_LOSS (R726): Feedback inactive for 1 s while running trips the motor with MOT_FEEDBACK. -/
  | feedbackLoss (ch : Nat)
  /-- WELDED_CONTACTOR (R730): Feedback active 2 s after release raises MOT_FEEDBACK with bit 8 set. -/
  | weldedContactor (ch : Nat)
  /-- ROUTE_STOP (R723): A route stop puts the motor and its upstream chain into STOPPING, most upstream first. -/
  | routeStop (ch : Nat)
  /-- PURGE_EXPIRY (R723): PURGE after its last feeder stopped, a STOPPING motor is released. -/
  | purgeExpiry (ch : Nat)
  /-- MOT_CLR (R731): A session writes MOT_CLR to clear a TRIPPED motor to OFF. -/
  | motClr (seq mask : Nat) (data : Word)
  /-- GATE_COMMAND (R734): A new gate target starts a move towards it. -/
  | gateCommand (ch : Nat)
  /-- REVERSAL_PAUSE_END (R735): After 200 ms with both outputs released on reversal, the other output sinks. -/
  | reversalPauseEnd (ch : Nat)
  /-- GATE_TRAVEL (R736): A move not reaching its target within TRAVEL_MS releases the outputs and raises GATE_TRAVEL. -/
  | gateTravel (ch : Nat)
  /-- GATE_STALL (R736): Too little position change within STALL_MS releases the outputs and raises GATE_STALL. -/
  | gateStall (ch : Nat)
  /-- HEAT_PERMIT_CHANGE (R741): HEATn_PMT changes, forcing or freeing the channel's demand. -/
  | heatPermitChange (ch : Nat) (present : Bool)
  /-- HEAT_PERMIT (R741): Permit absent for 2 s with block demand above 0 raises HEAT_PERMIT. -/
  | heatPermit (ch : Nat)
  /-- OUT_SHORT (R163): An open-drain ball at its current limit for 5 ms is released for 1 s and OUT_SHORT is raised. -/
  | outShort (row col : Nat)
  /-- OUT_SHORT_RETRY (R163): After 1 s released, the ball is driven again as its owner requires. -/
  | outShortRetry (row col : Nat)
  /-- CALENDAR_SECOND (R839): The calendar advances one second every 32 768 crystal periods. -/
  | calendarSecond
  /-- SCHEDULE_EVALUATION (R852): At second 0 of each local minute the keeper evaluates schedule entries. -/
  | scheduleEvaluation
  /-- OPERATING_SECOND_TICK (R839): The TIME island's free-running divider ticks one operating second. -/
  | operatingSecondTick
  /-- XT32_STOP (R840): No XT32 edge for 100 ms clears calendar validity and raises CAL_INVALID. -/
  | xt32Stop
  /-- CAL_SET0_WRITE (R843): A session write of CAL_SET0 stages the calendar group. -/
  | calSet0Write (seq mask : Nat) (words : List Word)
  /-- CAL_SET1_COMMIT (R846): A write of CAL_SET1 checks and commits the staged calendar setting. -/
  | calSet1Commit (seq mask : Nat) (data : Word)
  /-- CAL_NOW0_READ (R849): A read of CAL_NOW0 captures UTC and latches local time into CAL_NOW1. -/
  | calNow0Read (seq count : Nat)
  /-- LOCKOUT_END (R966): An authentication lockout ends at its stored operating second. -/
  | lockoutEnd
  /-- MAILBOX_LOAD (R872): A frame from the transmit load queue takes or replaces a mailbox. -/
  | mailboxLoad (bus : Nat)
  /-- MAILBOX_ABORT (R875): The keeper aborts a mailbox by toggle. -/
  | mailboxAbort (bus mb : Nat)
  /-- FRAME_TRANSMITTED (R874): A frame is transmitted without error and its mailbox frees. -/
  | frameTransmitted (bus tdc : Nat)
  /-- FRAME_RECEIVED (R877): A received frame matching a filter enters the receive queue. -/
  | frameReceived (bus id : Nat) (ide fdf brs esi rtr : Bool) (data : List Byte)
  /-- CAN_ERROR (R880): A bus error changes the error counts and the confinement state. -/
  | canError (bus err : Nat) (data tx dom : Bool)
  /-- RECOVERY_DELAY_END (R884): RECOV_S after bus-off the keeper requests recovery, or raises CAN_RECOVERY_OUT. -/
  | recoveryDelayEnd (bus : Nat)
  /-- RECOVERY_COMPLETE (R883): 128 sequences of 11 recessive bits return the controller error-active. -/
  | recoveryComplete (bus : Nat)
  /-- CAN_RECOVER (R885): A session writes RECOVER of CANn_CMD to request recovery. -/
  | canRecover (seq n mask : Nat) (data : Word)
  /-- MOORED_JOIN (R887): A listening moored CAN0 joins the bus after 8 good frames or 1 s recessive. -/
  | mooredJoin (recessive : Bool)
  /-- PROTOCOL_EXCEPTION (R890): A recessive res bit in an FD frame makes the controller wait for bus idle. -/
  | protocolException (bus : Nat)
  /-- HEARTBEAT_SEND (R908): Every NODE_MS / 4 the master sends its heartbeat. -/
  | heartbeatSend
  /-- NODE_HEARTBEAT (R909): A node heartbeat arrives and restarts the node's loss timer. -/
  | nodeHeartbeat (bus : Nat)
  /-- NODE_LOST (R909): No heartbeat for NODE_MS makes a node lost and its values STALE. -/
  | nodeLost (bus node : Nat)
  /-- PLANT_STATE (R912): Within 20 ms of a plant flag change the master broadcasts PLANT_STATE. -/
  | plantState
  /-- IDENT_REQ (R914): The master sends identity requests at step 9, each 1 s to silent nodes, and to returning nodes. -/
  | identReq (bus node : Nat)
  /-- IDENTITY (R915): A node's identity report makes it present or foreign. -/
  | identity (bus : Nat)
  /-- CHANNEL_CMD (R917): A change of a remote channel's resolved command is sent to its node. -/
  | channelCmd (kind ch : Nat)
  /-- CHANNEL_CMD_REPEAT (R917): Once per second the latest command of each remote channel is repeated. -/
  | channelCmdRepeat
  /-- CHANNEL_STATUS (R918): A node's channel status updates feedback, motion, gate failures or heat permit. -/
  | channelStatus (bus : Nat)
  /-- VALUE (R919): A node's VALUE frame is written into the value table. -/
  | value (bus : Nat)
  /-- TELEMETRY (R790): A class 5 record arrives for a SUB instance. -/
  | telemetry (bus : Nat)
  /-- HOST_SECTION_START (R922): The host's SECTION object starts a section. -/
  | hostSectionStart
  /-- HOST_SECTION_STOP (R922): The host's SECTION object stops a section or all. -/
  | hostSectionStop
  /-- HOST_FAULT_ACK (R922): The host's FAULT_ACK object acknowledges faults. -/
  | hostFaultAck
  /-- HOST_FOG_ACK (R922): The host's FOG_ACK object acknowledges fog mode. -/
  | hostFogAck
  /-- HOST_START_FREEZE_SET (R922): The host's START_FREEZE object sets the host freeze source. -/
  | hostStartFreezeSet
  /-- HOST_START_FREEZE_RELEASE (R922): The host's START_FREEZE object releases the host freeze source. -/
  | hostStartFreezeRelease
  /-- HOST_MOTOR_CLEAR (R922): The host's MOTOR_CLEAR object clears a TRIPPED motor. -/
  | hostMotorClear
  /-- HOST_CAL_SET (R848): The host's CAL_SET object sets the calendar. -/
  | hostCalSet
  /-- VALUE_READ (R924): The host reads a group of eight values as VALUE_GROUP. -/
  | valueRead
  /-- IDENT_READ (R922): The host reads MASTER_ID. -/
  | identRead
  /-- HOST_UNKNOWN_OBJECT (R922): An unlisted host object is answered UNKNOWN. -/
  | hostUnknownObject
  /-- SWITCHES (R925): Switch states are sent to the host after a change and every 10 s. -/
  | switches
  /-- EVENT_NOTICE (R926): A stored 0x1xxx or 0x2xxx record is sent to the host, or dropped after 10 s. -/
  | eventNotice
  /-- SYN_REC_READ (R931): A class 7 REC_READ starts a recorder transfer in REC_DATA frames. -/
  | synRecRead
  /-- SYN_REC_CLEAR (R933): A class 7 REC_CLEAR clears the sketch ring. -/
  | synRecClear
  /-- TRANSFER_TIMEOUT (R932): A recorder transfer not complete in 60 s is abandoned. -/
  | transferTimeout
  /-- FRAME_GAP (R949): A 2 ms gap discards a partial service frame. -/
  | frameGap (cutFrame : Bool)
  /-- FRAME_TOO_LONG (R949): A LENGTH above 1 024 is answered FRAME and bytes are skipped. -/
  | frameTooLong (seq cmd len : Nat)
  /-- FRAME_CRC_ERROR (R950): A frame failing its CRC is answered CRC. -/
  | frameCrcError (seq cmd : Nat)
  /-- RETRANSMISSION (R951): A repeated SEQ and CMD within 1 s resends the previous reply. -/
  | retransmission (seq cmd : Nat)
  /-- HELLO (R956): HELLO returns a fresh nonce and the identity. -/
  | hello (seq : Nat)
  /-- AUTH (R957): AUTH checks the tag and opens a session. -/
  | auth (seq role : Nat) (tag : List Byte)
  /-- CLOSE (R960): CLOSE ends the session and releases its overrides. -/
  | close (seq : Nat)
  /-- SESSION_IDLE (R960): 600 s without a valid frame ends the session. -/
  | sessionIdle
  /-- BAUD (R961): BAUD changes the port rate after its reply. -/
  | baud (seq rate : Nat)
  /-- BAUD_REVERT (R961): No valid frame within 2 s at the new rate returns to 115 200 bit/s. -/
  | baudRevert
  /-- READ (R967): READ returns words from ascending addresses. -/
  | read (seq addr count : Nat) (poisoned : Bool)
  /-- REGISTER_WRITE (R970): A WRITE to a register without its own row meets only check 1 and is answered OK. -/
  | registerWrite (seq addr mask : Nat) (bytes : List Byte)
  /-- SVC_REC_READ (R403): REC_READ returns up to 32 stored records. -/
  | svcRecRead (seq start dir count flush : Nat)
  /-- SVC_REC_CLEAR (R407): REC_CLEAR clears the sketch ring. -/
  | svcRecClear (seq : Nat) (guard : List Byte)
  /-- FLT_HIST_READ (R366): FLT_HIST_READ returns the fault history queue. -/
  | fltHistRead (seq : Nat)
  /-- OVERRIDE_SET (R976): OVERRIDE sets a session override on a channel. -/
  | overrideSet (seq kind ch : Nat) (value : Word)
  /-- OVERRIDE_RELEASE (R976): OVERRIDE releases a channel's override. -/
  | overrideRelease (seq kind ch op : Nat)
  /-- RESTART (R980): RESTART requests a flush and resets the chip. -/
  | restart (seq : Nat)
  /-- IMAGE_WRITE_BEGIN (R978): IMAGE_WRITE with BEGIN starts erasing the target slot region. -/
  | imageWriteBegin (seq slot : Nat) (engine : Bool) (off : Nat) (words : List Word)
  /-- IMAGE_WRITE_DATA (R978): IMAGE_WRITE frame words are kept or programmed as one unit. -/
  | imageWriteData (seq slot : Nat) (engine : Bool) (off : Nat) (words : List Word)
  /-- IMAGE_WRITE_FINAL (R978): IMAGE_WRITE with FINAL programs the header and checks the image. -/
  | imageWriteFinal (seq slot : Nat) (engine : Bool) (off : Nat) (words : List Word)
  /-- IMAGE_ACTIVATE (R979): IMAGE_ACTIVATE stores the preferred pair if eligible. -/
  | imageActivate (seq pair : Nat)
  /-- VALUE_FORCE (R977): A write of a value word forces the value. -/
  | valueForce (seq n mask : Nat) (words : List Word)
  /-- FORCE_RELEASE (R977): A write of a status word releases the session's force. -/
  | forceRelease (seq n mask : Nat) (data : Word)
  /-- REC_CTL_FLUSH (R406): Writing FLUSH of REC_CTL requests a recorder flush. -/
  | recCtlFlush (seq mask : Nat) (data : Word)
  /-- STB_FREEZE_SET (R662): A session sets SESSION of STB_FREEZE. -/
  | stbFreezeSet (seq mask : Nat)
  /-- STB_FREEZE_RELEASE (R662): A session clears SESSION of STB_FREEZE. -/
  | stbFreezeRelease (seq mask : Nat)
  /-- SVC_SITE_WRITE (R972): A write to SVC_SITEw stages or commits the write-once site identity. -/
  | svcSiteWrite (seq k mask : Nat) (words : List Word)
  /-- SVC_KEY_WRITE (R963): A write to SVC_KEYr_g stages or commits a key cell. -/
  | svcKeyWrite (seq r g w mask : Nat) (words : List Word)
  /-- ARB_CTL_WRITE (R216): A factory session in test mode writes FREEZE of ARB_CTLn. -/
  | arbCtlWrite (seq n mask : Nat) (data : Word)
  /-- W1C_CLEAR (R16): Writing 1 to a sticky flag clears it. -/
  | w1cClear (seq addr mask : Nat) (data : Word)
  /-- VBKUP_POWER_ON (R840): VBKUP rises from no supply, the calendar restarts at 2000-01-01 00:00:00 UTC with offset 0, and validity is lost with WHY 1. -/
  | vbkupPowerOn
  /-- CHAIN_FRAME_BOUNDARY (R292): While the tick is lost, the self-timed delay chain ends a 50 ms minor frame and starts the next frame on every logical tile. -/
  | chainFrameBoundary
  /-- PAIR_DISAGREE_END (R622): The difference of a disagreeing pair has stayed at or below TOLERANCE for LIMIT_MS, so the pair leaves DISAGREE and both members take their own values and qualities. -/
  | pairDisagreeEnd (pair : Nat)
  /-- PWM_PERIOD_BOUNDARY (R678): A fan or heat PWM period ends and a new duty or demand taken by the island takes effect at the boundary. -/
  | pwmPeriodBoundary (kind ch : Nat)
  /-- BUS_INTEGRATION (R900): A configured CAN controller sees 11 consecutive recessive bits and integrates on the bus, and a controller that took a protocol exception takes part again on the same condition. -/
  | busIntegration (bus : Nat)
  /-- UNKNOWN_COMMAND (R954): A complete service frame with a valid CRC whose CMD is not in Table 25-2 is answered UNKNOWN. -/
  | unknownCommand (seq cmd : Nat)
  /-- BOUNDARY_SCAN_EXTEST (R441): An IEEE 1149.1 EXTEST instruction takes the balls in the moored state or boot-ROM service, or acts as BYPASS otherwise, and leaving it returns the balls within 2 µs. -/
  | boundaryScanExtest
  /-- BUS_LOAD_WINDOW (R928): Each 1 s bus-load window of a controller ends, LOAD_PM and TELEM_PM are updated, and five consecutive windows above 800 ‰ raise SYN_BUDGET. -/
  | busLoadWindow (bus : Nat)
  deriving DecidableEq, Repr

end Sys2Proof
end

