-- ==== Sys2Proof/Config.lean ====
section
/-! DEFINITION. What one implementation or one board fixes and the manual leaves open: constants without a
body, about which nothing can be proved, so that a claim holds whatever they are. -/

namespace Sys2Proof.Config

open Sys2Proof

/-- The n-th free word: a value the manual leaves open, taken afresh each time (State counts n). -/
opaque freeWord : Nat → BitVec 40
/-- ID_PART STEPPING, fixed in mask ROM (Table 11-8). -/
opaque stepping : BitVec 16
/-- ID_BOOTROM, the boot ROM version, fixed in mask ROM (chapter 11). -/
opaque bootRomVersion : BitVec 32
/-- The device serial, bits 39:0 (0) and 79:40 (1), written by the factory (Table 11-8). -/
opaque serial : Nat → BitVec 40
/-- The four public keys of the boot ROM (R430): the x coordinates. -/
opaque romKeyX : Nat → BitVec 256
/-- The four public keys of the boot ROM (R430): the y coordinates. -/
opaque romKeyY : Nat → BitVec 256
/-- The code of a ratio whose measured excitation is zero (R570, R571), by the input in nV: the manual states none. -/
opaque ratioAtZero : Int → BitVec 24
/-- Where within the 4 units that R804 allows an F40 function's result lies, by function (0 ln, 1 exp, 2 power)
and arguments. -/
opaque fnUnits : Nat → BitVec 40 → BitVec 40 → Nat

end Sys2Proof.Config
end

