-- ==== Sys2Proof/Machine/Types.lean ====
section
/-! DEFINITION. The small closed sets of names that every unit uses: qualities and fault classes. -/

namespace Sys2Proof.Machine

/-- The quality of a logical value (Table 7-6). -/
inductive Quality where
  | good
  | stale
  | subst
  | fault
  | blanked
  | forced
  | disagree
  deriving DecidableEq, Repr

/-- The quality code of a status word. -/
def Quality.code : Quality → Nat
  | .good => 0 | .stale => 1 | .subst => 2 | .fault => 3 | .blanked => 4 | .forced => 5 | .disagree => 6

/-- The precedence of Table 7-6, 0 highest. -/
def Quality.prec : Quality → Nat
  | .forced => 0 | .fault => 1 | .subst => 2 | .stale => 3 | .disagree => 4 | .blanked => 5 | .good => 7

/-- The order of R280 from best (0) to worst (6). -/
def Quality.rank : Quality → Nat
  | .good => 0 | .forced => 1 | .blanked => 2 | .disagree => 3 | .subst => 4 | .stale => 5 | .fault => 6

/-- The worse of two qualities in the order of R280. -/
def worse (a b : Quality) : Quality := if a.rank ≥ b.rank then a else b

/-- The worst of a list, GOOD for none (R280). -/
def worstQ : List Quality → Quality
  | [] => .good
  | q :: qs => worse q (worstQ qs)

/-- The quality of a code; none for a reserved one. -/
def qualityOf (n : Nat) : Option Quality :=
  match n with
  | 0 => some .good | 1 => some .stale | 2 => some .subst | 3 => some .fault
  | 4 => some .blanked | 5 => some .forced | 6 => some .disagree | _ => none

/-- A fault class (Table 9-1). -/
inductive FClass where
  | advisory
  | degraded
  | severe
  | fatal
  deriving DecidableEq, Repr

/-- The class code. -/
def FClass.code : FClass → Nat
  | .advisory => 0 | .degraded => 1 | .severe => 2 | .fatal => 3

/-- One class higher, Fatal at most. -/
def FClass.up : FClass → FClass
  | .advisory => .degraded | .degraded => .severe | .severe => .fatal | .fatal => .fatal

/-- The class of a code. -/
def classOf (n : Nat) : FClass :=
  match n with | 0 => .advisory | 1 => .degraded | 2 => .severe | _ => .fatal

end Sys2Proof.Machine
end

