-- ==== Sys2Proof/Machine/BlockState.lean ====
section
/-! DEFINITION. What a block instance keeps from run to run, one alternative per kind of block (chapters 20, 21).
Times are in milliseconds; F40 quantities are F40 words, value-format quantities signed integers. -/

namespace Sys2Proof.Machine

open Sys2Proof

/-- COLUMN (R808, R809): 64 cells from the top, the flow accumulator (t), the discharged-moisture ring with the
time in ms each left (newest first), the correction b, and the last inputs that were not bad. -/
structure ColSt where
  m : List Word
  acc : Word
  ring : List (Word × Nat)
  b : Word
  lastIn : List (Option Int)
  mp : Int
  mpq : Quality
  deriving DecidableEq, Repr

/-- BATCH and CFLOW (R815): the step, its timer, the hold timer, the stop flag and the level of run. -/
structure SeqSt where
  step : Nat
  ms : Nat
  holdMs : Nat
  stop : Bool
  run : Bool
  deriving DecidableEq, Repr

/-- AERATE (R821): fans on, time in that state, met MIN_OFF_S at start, present bucket number and the buckets,
present first. -/
structure AerSt where
  on : Bool
  ms : Nat
  fresh : Bool
  bucket : Nat
  buckets : List Nat
  run : Bool
  deriving DecidableEq, Repr

/-- The state of an instance; `fresh` before its first run. -/
inductive BSt where
  | fresh
  | none
  | latch (q : Bool)
  | edge (mem : Bool)
  | timer (ms : Nat) (mem q : Bool)
  | lag (y : Int)
  | mavg (xs : List Int)
  | pid (i d pv u : Word) (man : Bool)
  | cnt (n : Int) (mem : Bool)
  | total (acc : Nat) (mem : Bool)
  | mode (s : Nat)
  | sel (second : Bool)
  | alarm (cond : Bool) (ms : Nat) (active : Bool)
  | pub (ms : Nat) (v : Int) (q : Quality)
  | column (c : ColSt)
  | disch (qs : Word) (en : Bool)
  | seq (s : SeqSt)
  | cool (on : Bool)
  | aerate (a : AerSt)
  | cable (fs : List (Option Word))
  | shrink (water dry : Int) (mem : Bool)
  | level (mass : Int)
  deriving DecidableEq, Repr

end Sys2Proof.Machine
end

