-- ==== Sys2Proof/Machine/Bits.lean ====
section
/-! DEFINITION. Bit fields of words, byte order (R13), saturating counters and exact rounding: the plainest
helpers that every unit uses. -/

namespace Sys2Proof.Machine

open Sys2Proof

/-- The field of bits `hi` down to `lo` of a number. -/
def bitsN (n hi lo : Nat) : Nat := (n / 2 ^ lo) % 2 ^ (hi + 1 - lo)

/-- The field of bits `hi` down to `lo` of a word. -/
def fld (w : Word) (hi lo : Nat) : Nat := bitsN w.toNat hi lo

/-- Bit `i` of a word. -/
def bitOf (w : Word) (i : Nat) : Bool := fld w i i == 1

/-- A Bool as the number of its bit. -/
def b2n (b : Bool) : Nat := if b then 1 else 0

/-- A field value placed at its lowest bit, cut to its width. -/
def place (hi lo v : Nat) : Nat := (v % 2 ^ (hi + 1 - lo)) * 2 ^ lo

/-- A register word built of its fields, each (high bit, low bit, value). Bits no field names read 0 (R14). -/
def packW (fs : List (Nat × Nat × Nat)) : Word :=
  BitVec.ofNat 40 (fs.foldl (fun a f => a + place f.1 f.2.1 f.2.2) 0)

/-- A counter that stops at its limit. -/
def satAdd (limit a b : Nat) : Nat := min limit (a + b)

/-- A number held to a limit. -/
def satTo (limit a : Nat) : Nat := min limit a

/-- A mask with one bit for each `true`, the first in bit 0. -/
def maskOf : List Bool → Nat
  | [] => 0
  | b :: bs => b2n b + 2 * maskOf bs

/-- The five bytes of a word, least significant first (R13). -/
def wordBytes (w : Word) : List Byte :=
  [BitVec.ofNat 8 w.toNat, BitVec.ofNat 8 (w.toNat / 2 ^ 8), BitVec.ofNat 8 (w.toNat / 2 ^ 16),
   BitVec.ofNat 8 (w.toNat / 2 ^ 24), BitVec.ofNat 8 (w.toNat / 2 ^ 32)]

/-- A little-endian number of bytes (R13). -/
def bytesNat : List Byte → Nat
  | [] => 0
  | b :: bs => b.toNat + 256 * bytesNat bs

/-- The bytes of a little-endian number, `k` of them. -/
def natBytes : Nat → Nat → List Byte
  | 0, _ => []
  | k + 1, n => BitVec.ofNat 8 n :: natBytes k (n / 256)

/-- The words of a byte stream, five bytes a word (R13); a short rest is padded with zero bytes. The first
argument bounds the number of words. -/
def bytesWords : Nat → List Byte → List Word
  | 0, _ => []
  | _ + 1, [] => []
  | k + 1, bs => BitVec.ofNat 40 (bytesNat (bs.take 5)) :: bytesWords k (bs.drop 5)

/-- The bytes of a list of words. -/
def wordsBytes (ws : List Word) : List Byte := ws.flatMap wordBytes

/-- A number read as two's complement in `w` bits. -/
def signedOf (w n : Nat) : Int :=
  if n % 2 ^ w < 2 ^ (w - 1) then ((n % 2 ^ w : Nat) : Int) else ((n % 2 ^ w : Nat) : Int) - ((2 ^ w : Nat) : Int)

/-- An integer as a `w`-bit two's-complement number. -/
def unsignedOf (w : Nat) (z : Int) : Nat := (z % ((2 ^ w : Nat) : Int)).toNat

/-- `n / d` rounded to the nearest integer, ties to even (R270); 0 for a zero divisor. -/
def divRoundEven (n : Int) (d : Nat) : Int :=
  let q := n / (d : Int)
  let r := (n - q * (d : Int)).toNat
  if 2 * r < d then q
  else if 2 * r > d then q + 1
  else if q % 2 == 0 then q else q + 1

/-- Integer square root of `n` by binary search on `k` bits. -/
def isqrtBits : Nat → Nat → Nat → Nat
  | 0, _, acc => acc
  | k + 1, n, acc =>
    let c := acc + 2 ^ k
    if c * c ≤ n then isqrtBits k n c else isqrtBits k n acc

/-- The largest `r` below 2^96 with r × r at most n. -/
def isqrt (n : Nat) : Nat := isqrtBits 96 n 0

/-- Number of bits of `n`: the least k with n below 2^k, for n below 2^fuel. -/
def bitLenAux : Nat → Nat → Nat → Nat
  | 0, _, k => k
  | f + 1, n, k => if n == 0 then k else bitLenAux f (n / 2) (k + 1)

/-- Number of bits of `n` (n below 2^1200). -/
def bitLen (n : Nat) : Nat := bitLenAux 1200 n 0

/-- Replace entry `i` of a list. -/
def listSet {α : Type} : List α → Nat → α → List α
  | [], _, _ => []
  | _ :: xs, 0, v => v :: xs
  | x :: xs, i + 1, v => x :: listSet xs i v

/-- Insert by an order, before the first entry that is not below. -/
def insertBy {α : Type} (le : α → α → Bool) (x : α) : List α → List α
  | [] => [x]
  | y :: ys => if le x y then x :: y :: ys else y :: insertBy le x ys

/-- Sort by an order, entries that compare equal keep their order. -/
def sortBy {α : Type} (le : α → α → Bool) : List α → List α
  | [] => []
  | x :: xs => insertBy le x (sortBy le xs)

/-- The first index at which a predicate holds. -/
def findIdx0 {α : Type} (p : α → Bool) : List α → Nat → Option Nat
  | [], _ => none
  | x :: xs, i => if p x then some i else findIdx0 p xs (i + 1)

/-- No entry occurs twice. -/
def noDup {α : Type} [BEq α] : List α → Bool
  | [] => true
  | x :: xs => !xs.contains x && noDup xs

/-- Numbers a, a+1, …, a+k-1. -/
def rangeFrom : Nat → Nat → List Nat
  | _, 0 => []
  | a, k + 1 => a :: rangeFrom (a + 1) k

/-- The sum of a list. -/
def sumN : List Nat → Nat
  | [] => 0
  | x :: xs => x + sumN xs

/-- The largest of a list, 0 for none. -/
def maxN : List Nat → Nat
  | [] => 0
  | x :: xs => max x (maxN xs)

end Sys2Proof.Machine
end

