-- ==== Sys2Proof/Machine/TabOps.lean ====
section
/-! DEFINITION. Reading and writing sparse tables in their canonical form. Every array and memory of State is
read and written through these two operations only. -/

namespace Sys2Proof.Machine

open Sys2Proof

/-- The entry at an index; `d` where the index is unlisted. -/
def tget {α : Type} (d : α) : Tab α → Nat → α
  | [], _ => d
  | (k, v) :: t, i => if i = k then v else tget d t i

/-- The table without an index. -/
def tdel {α : Type} : Tab α → Nat → Tab α
  | [], _ => []
  | (k, v) :: t, i => if i = k then tdel t i else (k, v) :: tdel t i

/-- The table with an entry put at an index, indexes rising. -/
def tins {α : Type} : Tab α → Nat → α → Tab α
  | [], i, x => [(i, x)]
  | (k, v) :: t, i, x =>
    if i < k then (i, x) :: (k, v) :: t
    else if i = k then (i, x) :: t
    else (k, v) :: tins t i x

/-- Write an entry and keep the canonical form: an entry equal to the default is not listed. -/
def tset {α : Type} [DecidableEq α] (d : α) (t : Tab α) (i : Nat) (x : α) : Tab α :=
  if x = d then tdel t i else tins t i x

/-- Change one entry. -/
def tmod {α : Type} [DecidableEq α] (d : α) (t : Tab α) (i : Nat) (f : α → α) : Tab α :=
  tset d t i (f (tget d t i))

/-- Indexes strictly rise. -/
def tabRising {α : Type} : Tab α → Bool
  | [] => true
  | [_] => true
  | (a, _) :: (b, w) :: t => decide (a < b) && tabRising ((b, w) :: t)

/-- No entry equals the default. -/
def tabNoDefault {α : Type} [DecidableEq α] (d : α) : Tab α → Bool
  | [] => true
  | (_, v) :: t => decide (v ≠ d) && tabNoDefault d t

/-- The canonical form of a table with default `d`. -/
def tabWf {α : Type} [DecidableEq α] (d : α) (t : Tab α) : Bool := tabRising t && tabNoDefault d t

end Sys2Proof.Machine
end

