-- ==== Sys2Proof/Machine/Num.lean ====
section
/-! DEFINITION. The two number formats: the value format Q20.20 (R269 to R272) and the coefficient format F40
(R273 to R276). Every operation computes its exact result as a fraction and rounds once. -/

namespace Sys2Proof.Machine

open Sys2Proof

/-- The largest value-format integer (R269). -/
def qMax : Int := 549755813887
/-- The smallest value-format integer (R269). -/
def qMin : Int := -549755813888
/-- 1.0 in the value format. -/
def qOne : Int := 1048576

/-- A value-format result and whether it saturated (R270). -/
structure QRes where
  val : Int
  sat : Bool
  deriving DecidableEq, Repr

/-- A fraction: exact intermediate results. The denominator is meant to be positive. -/
structure Frac where
  num : Int
  den : Nat
  deriving DecidableEq, Repr

/-- The signed integer N of a value word. -/
def qOf (w : Word) : Int := signedOf 40 w.toNat
/-- The word of a value-format integer. -/
def qWord (z : Int) : Word := BitVec.ofInt 40 z

/-- Clamp an integer to the value format (R270). -/
def qClamp (z : Int) : QRes :=
  if z > qMax then ⟨qMax, true⟩ else if z < qMin then ⟨qMin, true⟩ else ⟨z, false⟩

/-- Round an exact result, given in units of 2^-20, to the value format (R270). -/
def qRound (f : Frac) : QRes := qClamp (divRoundEven f.num f.den)

/-- Sum of two values. -/
def qAdd (a b : Int) : QRes := qClamp (a + b)
/-- Difference of two values. -/
def qSub (a b : Int) : QRes := qClamp (a - b)
/-- Product of two values. -/
def qMul (a b : Int) : QRes := qRound ⟨a * b, 1048576⟩
/-- Quotient of two values, with the corners of R271. -/
def qDiv (a b : Int) : QRes :=
  if b = 0 then
    if a > 0 then ⟨qMax, true⟩ else if a < 0 then ⟨qMin, true⟩ else ⟨0, false⟩
  else if b > 0 then qRound ⟨a * 1048576, b.toNat⟩
  else qRound ⟨-(a * 1048576), (-b).toNat⟩
/-- Negation (R271). -/
def qNeg (a : Int) : QRes := qClamp (-a)
/-- Absolute value (R271). -/
def qAbs (a : Int) : QRes := qClamp (if a < 0 then -a else a)
/-- A whole number as a value. -/
def qInt (z : Int) : QRes := qClamp (z * qOne)
/-- A fraction of whole units as a value. -/
def qFrac (n : Int) (d : Nat) : QRes := qRound ⟨n * qOne, d⟩
/-- A Boolean as a value (R767). -/
def qBool (b : Bool) : Int := if b then qOne else 0

/-! F40 -/

/-- The sign, exponent and fraction fields of an F40 word (Table 7-3). -/
def fSign (w : Word) : Bool := bitOf w 39
def fExp (w : Word) : Nat := fld w 38 31
def fFrac (w : Word) : Nat := fld w 30 0

/-- An F40 word that R274 admits. -/
def fLegal (w : Word) : Bool := fExp w != 255 && (fExp w != 0 || fFrac w == 0)

/-- The exact value of an F40 word (R273). -/
def fVal (w : Word) : Frac :=
  let e := fExp w
  if e == 0 then ⟨0, 1⟩
  else
    let m : Int := ((2 ^ 31 + fFrac w : Nat) : Int)
    let z := if fSign w then -m else m
    -- value = z × 2^(e - 158)
    if e ≥ 158 then ⟨z * ((2 ^ (e - 158) : Nat) : Int), 1⟩ else ⟨z, 2 ^ (158 - e)⟩

/-- Exact sum, difference, product and quotient of fractions; a zero divisor answers a zero denominator under the dividend's
sign. -/
def frAdd (a b : Frac) : Frac := ⟨a.num * (b.den : Int) + b.num * (a.den : Int), a.den * b.den⟩
def frNeg (a : Frac) : Frac := ⟨-a.num, a.den⟩
def frSub (a b : Frac) : Frac := frAdd a (frNeg b)
def frMul (a b : Frac) : Frac := ⟨a.num * b.num, a.den * b.den⟩
def frDiv (a b : Frac) : Frac :=
  if b.num ≥ 0 then ⟨a.num * (b.den : Int), a.den * b.num.toNat⟩
  else ⟨-(a.num * (b.den : Int)), a.den * (-b.num).toNat⟩
def frLe (a b : Frac) : Bool := a.num * (b.den : Int) ≤ b.num * (a.den : Int)
def frLt (a b : Frac) : Bool := a.num * (b.den : Int) < b.num * (a.den : Int)
def frInt (z : Int) : Frac := ⟨z, 1⟩
/-- A value-format integer as a fraction of whole units. -/
def frQ (z : Int) : Frac := ⟨z, 1048576⟩

/-- The largest F40 magnitude and its word (R275). -/
def fMaxWord (neg : Bool) : Word := packW [(39, 39, b2n neg), (38, 31, 254), (30, 0, 2147483647)]

/-- An F40 result and whether it saturated (R275). -/
structure FRes where
  word : Word
  sat : Bool
  deriving DecidableEq, Repr

/-- Round an exact fraction to F40 (R275): 32 significant bits, ties to even; the largest magnitude above
it, zero below 2^-126, zero with S = 0. A zero denominator stands for a division by zero and takes the largest
magnitude of the dividend's sign (0 / 0 is 0), as R271 says of the value format. -/
def fRound (f : Frac) : FRes :=
  if f.num = 0 then ⟨0#40, false⟩
  else if f.den = 0 then ⟨fMaxWord (f.num < 0), true⟩
  else
    let neg := decide (f.num < 0)
    let n := f.num.natAbs
    -- estimate the exponent so that n / den lies within 2^x to 2^(x+1)
    let ln := bitLen n
    let ld := bitLen f.den
    let x0 : Int := (ln : Int) - (ld : Int)
    let below : Bool := if x0 ≥ 0 then n < f.den * 2 ^ x0.toNat else n * 2 ^ (-x0).toNat < f.den
    let x : Int := if below then x0 - 1 else x0
    -- mantissa of 32 bits: n / den × 2^(31 - x)
    let sh : Int := 31 - x
    let m := if sh ≥ 0 then divRoundEven ((n * 2 ^ sh.toNat : Nat) : Int) f.den
             else divRoundEven (n : Int) (f.den * 2 ^ (-sh).toNat)
    let m := m.toNat
    let (m, x) := if m ≥ 2 ^ 32 then (m / 2, x + 1) else (m, x)
    if x > 127 then ⟨fMaxWord neg, true⟩
    else if x < -126 then ⟨0#40, false⟩
    else ⟨packW [(39, 39, b2n neg), (38, 31, (x + 127).toNat), (30, 0, m)], false⟩

def fAdd (a b : Word) : FRes := fRound (frAdd (fVal a) (fVal b))
def fSub (a b : Word) : FRes := fRound (frSub (fVal a) (fVal b))
def fMul (a b : Word) : FRes := fRound (frMul (fVal a) (fVal b))
def fDiv (a b : Word) : FRes := fRound (frDiv (fVal a) (fVal b))
/-- Value format to F40 (R276). -/
def qToF (z : Int) : FRes := fRound (frQ z)
/-- F40 to the value format (R276). -/
def fToQ (w : Word) : QRes := qRound (frMul (fVal w) (frInt qOne))

end Sys2Proof.Machine
end

