-- ==== Sys2Proof/Machine/PlateTypes.lean ====
section
/-! DEFINITION. The decoded plate: one structure for each table of Table 13-3 (chapter 13). Fields marked V hold
the signed value-format integer, fields marked F the F40 word, everything else a number. -/

namespace Sys2Proof.Machine

open Sys2Proof

/-- ISLANDS 1: mains-watch settings. -/
structure IslandsCfg where
  freq60 : Bool
  phases : Nat
  seqAcb : Bool
  pfwPct : Nat
  nominal : Int
  ratio : List Word
  unbalance : Int
  freqLow : Int
  freqHigh : Int
  deriving DecidableEq, Repr

/-- FRONTEND 2: a scan entry. -/
structure ScanCfg where
  pos : Nat
  neg : Nat
  gain : Nat
  odr : Nat
  burnout : Nat
  cap : Bool
  value : Nat
  exc : Nat
  bias : Nat
  settleMs : Nat
  blankMs : Nat
  blankMask : Nat
  deriving DecidableEq, Repr

/-- FRONTEND 3: an excitation source. -/
structure ExcCfg where
  src : Nat
  mode : Nat
  iUa : Nat
  pinP : Nat
  pinN : Nat
  freqHz : Nat
  deriving DecidableEq, Repr

/-- FRONTEND 4: a bias source. -/
structure BiasCfg where
  bias : Nat
  pin : Nat
  level : Nat
  deriving DecidableEq, Repr

/-- VALUES 1: a value declaration. -/
structure ValCfg where
  index : Nat
  producer : Nat
  subst : Nat
  coef : Nat
  kq : Nat
  low : Int
  high : Int
  temp : Nat
  staleMs : Nat
  deriving DecidableEq, Repr

/-- VALUES 2: a coefficient set; `c` holds c(i, j) at i(JMAX + 1) + j. -/
structure CoefCfg where
  set : Nat
  imax : Nat
  jmax : Nat
  name : Nat
  c : List Word
  deriving DecidableEq, Repr

/-- VALUES 3: a redundant pair. -/
structure PairCfg where
  a : Nat
  b : Nat
  policy : Nat
  tolerance : Int
  limitMs : Nat
  deriving DecidableEq, Repr

/-- VALUES 4: a threshold switch. -/
structure SwCfg where
  sw : Nat
  source : Nat
  dir : Bool
  fstate : Nat
  pinEn : Bool
  pinPol : Bool
  set : Int
  reset : Int
  onMs : Nat
  offMs : Nat
  deriving DecidableEq, Repr

/-- VALUES 5: a persistent item. -/
structure PItemCfg where
  kind : Nat
  index : Nat
  deriving DecidableEq, Repr

/-- CHANNELS 1: a fan channel. -/
structure FanCfg where
  ch : Nat
  mode : Nat
  pol : Bool
  ppr : Nat
  group : Nat
  pwmHz : Nat
  source : Nat
  speed : Nat
  fixedPm : Nat
  stall : Int
  stallMs : Nat
  setpoint : Int
  kp : Word
  ti : Word
  deriving DecidableEq, Repr

/-- CHANNELS 2: a motor channel. -/
structure MotorCfg where
  ch : Nat
  sect : Nat
  down : Nat
  role : Nat
  dryer : Nat
  prove : Nat
  purge : Nat
  ct : Nat
  level : Nat
  plugPct : Nat
  nomMov : Nat
  plugMs : Nat
  overload : Int
  slip : Nat
  slipPct : Nat
  deriving DecidableEq, Repr

/-- CHANNELS 3: a gate channel. -/
structure GateCfg where
  ch : Nat
  pos : Nat
  openPos : Int
  closedPos : Int
  travelMs : Nat
  stallMs : Nat
  deriving DecidableEq, Repr

/-- CHANNELS 4: a heat channel. -/
structure HeatCfg where
  ch : Nat
  dryer : Nat
  plenum : Nat
  high : Int
  reset : Int
  deriving DecidableEq, Repr

/-- CHANNELS 5: a dryer. -/
structure DryerCfg where
  dryer : Nat
  trip : Bool
  tripFull : Bool
  sect : Nat
  deriving DecidableEq, Repr

/-- An output of a block instance: target and KIND. -/
structure OutCfg where
  target : Nat
  kind : Nat
  deriving DecidableEq, Repr

/-- BLOCKS 1: a block instance. -/
structure InstCfg where
  type : Nat
  inst : Nat
  pindex : Nat
  ins : List Nat
  outs : List OutCfg
  params : List Word
  deriving DecidableEq, Repr

/-- BLOCKS 3: a plant section. -/
structure SectCfg where
  sect : Nat
  auto : Nat
  run : Nat
  phase : Nat
  cond : Nat
  delayS : Nat
  name : Nat
  deriving DecidableEq, Repr

/-- TASKS 1: a task. -/
structure TaskCfg where
  task : Nat
  period : Nat
  tile : Nat
  insts : List Nat
  deriving DecidableEq, Repr

/-- TASKS 2: a reaction chain. -/
structure ChainCfg where
  chain : Nat
  deadlineMs : Nat
  causeKind : Nat
  causeIndex : Nat
  tasks : List Nat
  effKind : Nat
  effCh : Nat
  deriving DecidableEq, Repr

/-- STARTS 1: start-budget settings. -/
structure StartsCfg where
  limitPct : Int
  spacingS : Nat
  maxConc : Nat
  waitS : Nat
  alpha : Word
  deriving DecidableEq, Repr

/-- STARTS 2: a declared motor dip. -/
structure DipCfg where
  ch : Nat
  pindex : Nat
  dip : Int
  deriving DecidableEq, Repr

/-- FAULTS 2: a source entry. -/
structure FaultCfg where
  src : Nat
  cls : Nat
  react : Nat
  stop : Bool
  mask : Nat
  deriving DecidableEq, Repr

/-- FAULTS 3: a channel reaction. -/
structure ReactCfg where
  src : Nat
  kind : Nat
  ch : Nat
  level : Int
  deriving DecidableEq, Repr

/-- BUS 1: a CAN controller. -/
structure CanCfg where
  ctrl : Nat
  fd : Bool
  triple : Bool
  recovN : Nat
  recovS : Nat
  nomBps : Nat
  nomSp : Nat
  dataBps : Nat
  dataSp : Nat
  deriving DecidableEq, Repr

/-- BUS 2: supervision. -/
structure SupCfg where
  hostS : Nat
  hostBus : Nat
  nodeMs : Nat
  telemPct : Nat
  deriving DecidableEq, Repr

/-- BUS 3: a node. -/
structure NodeCfg where
  bus : Nat
  node : Nat
  type : Nat
  version : Nat
  crc : Nat
  deriving DecidableEq, Repr

/-- BUS 4: a remote channel or value. -/
structure RemoteCfg where
  kind : Nat
  logical : Nat
  bus : Nat
  node : Nat
  obj : Nat
  fbFull : Bool
  deriving DecidableEq, Repr

/-- SCHED 1: a calendar schedule entry. -/
structure SchedCfg where
  entry : Nat
  months : Nat
  day : Nat
  wdays : Nat
  hour : Nat
  minute : Nat
  fb : Bool
  deriving DecidableEq, Repr

/-- LOCKS 1: a plate-locked register range. -/
structure LockCfg where
  first : Nat
  count : Nat
  deriving DecidableEq, Repr

/-- STRINGS 1: a text. -/
structure StrCfg where
  str : Nat
  bytes : Nat
  deriving DecidableEq, Repr

/-- IDENT 1: tool and descriptive data. -/
structure IdentCfg where
  tool : Nat
  toolVer : Nat
  created : Nat
  name : Nat
  note : Nat
  deriving DecidableEq, Repr

/-- The decoded content of a plate (R515), header words included. -/
structure Plate where
  hdr : List Word := []
  ident : List IdentCfg := []
  islands : List IslandsCfg := []
  rotateS : Nat := 0
  reject : Nat := 0
  scans : List ScanCfg := []
  excs : List ExcCfg := []
  biases : List BiasCfg := []
  vals : List ValCfg := []
  coefs : List CoefCfg := []
  pairs : List PairCfg := []
  sws : List SwCfg := []
  pitems : List PItemCfg := []
  fans : List FanCfg := []
  motors : List MotorCfg := []
  gates : List GateCfg := []
  heats : List HeatCfg := []
  dryers : List DryerCfg := []
  insts : List InstCfg := []
  sects : List SectCfg := []
  tasks : List TaskCfg := []
  chains : List ChainCfg := []
  starts : List StartsCfg := []
  dips : List DipCfg := []
  faultN : List Nat := []
  faults : List FaultCfg := []
  reacts : List ReactCfg := []
  cans : List CanCfg := []
  sup : List SupCfg := []
  nodes : List NodeCfg := []
  remotes : List RemoteCfg := []
  scheds : List SchedCfg := []
  locks : List LockCfg := []
  strs : List StrCfg := []
  deriving DecidableEq, Repr

end Sys2Proof.Machine
end

