-- ==== Sys2Proof/Machine/BlockTable.lean ====
section
/-! DEFINITION. The catalogue of block types: codes, counts, optional inputs and outputs, parameter formats
(R763 to R766, Tables 20-2 to 20-5 and chapter 21), corner costs and state words (Table 20-10). -/

namespace Sys2Proof.Machine

open Sys2Proof

/-- The format of a parameter word (R764): value format, coefficient format, or integer fields with the mask of
the bits the entry names. -/
inductive PFmt where
  | v
  | f
  | i (mask : Nat)
  deriving DecidableEq, Repr

/-- One catalogue entry. `optIn` and `optOut` list the inputs and outputs an entry marks optional. -/
structure BlockType where
  code : Nat
  niMin : Nat
  niMax : Nat
  noMin : Nat
  noMax : Nat
  optIn : List Nat
  optOut : List Nat
  params : List PFmt
  cost : Nat
  stateWords : Nat
  deriving DecidableEq, Repr

/-- The general blocks of chapter 20. MODE's parameters follow Table 20-5 and are computed in `blockParams`. -/
def generalBlocks : List BlockType :=
  [⟨0x01, 2, 8, 1, 1, [], [], [], 3, 0⟩, ⟨0x02, 2, 2, 1, 1, [], [], [], 2, 0⟩,
   ⟨0x03, 2, 2, 1, 1, [], [], [], 3, 0⟩, ⟨0x04, 2, 2, 1, 1, [], [], [], 5, 0⟩,
   ⟨0x05, 1, 1, 1, 1, [], [], [.v, .v], 5, 0⟩, ⟨0x06, 3, 3, 1, 1, [], [], [], 3, 0⟩,
   ⟨0x07, 1, 1, 1, 1, [], [], [.f, .v], 4, 0⟩, ⟨0x08, 2, 8, 1, 1, [], [], [], 3, 0⟩,
   ⟨0x09, 2, 8, 1, 1, [], [], [], 3, 0⟩, ⟨0x0A, 1, 1, 1, 1, [], [], [], 2, 0⟩,
   ⟨0x0B, 2, 8, 1, 1, [], [], [], 3, 0⟩, ⟨0x0C, 2, 2, 1, 1, [], [], [.i 0x3], 3, 1⟩,
   ⟨0x0D, 1, 1, 1, 1, [], [], [.i 0x3], 3, 1⟩, ⟨0x0E, 1, 1, 1, 1, [], [], [.v], 6, 2⟩,
   ⟨0x0F, 1, 1, 1, 1, [], [], [.v], 6, 2⟩, ⟨0x10, 1, 1, 1, 1, [], [], [.v], 6, 2⟩] ++
  [⟨0x11, 1, 1, 1, 1, [], [], [.v, .v, .i 0x1], 7, 1⟩, ⟨0x12, 1, 1, 1, 1, [], [], [.f], 9, 1⟩,
   ⟨0x13, 1, 1, 1, 1, [], [], [.i 0x1FF], 12, 2⟩,
   ⟨0x14, 4, 4, 1, 1, [2, 3], [], [.f, .f, .f, .v, .v, .i 0x1], 48, 12⟩,
   ⟨0x15, 2, 2, 2, 2, [1], [1], [.v], 5, 2⟩, ⟨0x16, 2, 2, 2, 2, [1], [0, 1], [.f], 12, 4⟩,
   ⟨0x17, 1, 32, 1, 16, [], [], [], 30, 2⟩, ⟨0x18, 3, 9, 1, 1, [], [], [], 4, 0⟩,
   ⟨0x19, 1, 1, 1, 1, [], [0], [.i 0x1F, .i 0xFFFFFFFFFF], 6, 2⟩, ⟨0x1A, 1, 1, 0, 0, [], [], [], 3, 0⟩,
   ⟨0x1B, 1, 1, 0, 0, [], [], [.i 0xFFFFF, .i 0xFFFFFFFFFF, .v], 10, 3⟩,
   ⟨0x1C, 0, 0, 1, 1, [], [], [.i 0xFFFFF], 10, 2⟩]

/-- The drying and storage blocks of chapter 21. -/
def grainBlocks : List BlockType :=
  [⟨0x40, 2, 2, 1, 1, [], [], [.i 0x1, .f, .f, .f], 40, 0⟩, ⟨0x41, 4, 4, 3, 3, [2, 3], [2], [], 35, 0⟩,
   ⟨0x42, 7, 7, 3, 3, [6], [], [.v, .v, .v, .f, .f, .v, .v, .f, .v, .v], 1900, 1024⟩,
   ⟨0x43, 2, 2, 3, 3, [], [2], [.i 0xFFFF, .v, .v, .v, .f, .v, .v], 2600, 256⟩,
   ⟨0x44, 6, 6, 7, 7, [], [],
     [.v, .v, .v, .v, .i 0xFFFFFFFFF, .i 0xFFFFFFFFFF, .i 0xFFFFFFFFFF, .i 0x1], 60, 24⟩,
   ⟨0x45, 3, 3, 7, 7, [], [], [.v, .v, .i 0xFFFFFFFFFF, .i 0xFFFFFFFFFF], 70, 32⟩] ++
  [⟨0x46, 3, 3, 2, 2, [], [1], [.v, .v, .v, .v], 30, 8⟩,
   ⟨0x47, 4, 4, 4, 4, [], [], [.v, .v, .v, .v, .v, .v, .i 0x1FFFF, .i 0xFFFFFFFF, .v], 90, 40⟩,
   ⟨0x48, 2, 65, 6, 6, [0], [], [.f, .v, .v], 400, 160⟩,
   ⟨0x49, 4, 4, 3, 3, [3], [], [], 20, 8⟩,
   ⟨0x4A, 3, 3, 3, 3, [2], [2], [.v, .i 0xFF, .v, .v, .v, .v], 15, 4⟩]

/-- Every block type. -/
def blockTypes : List BlockType := generalBlocks ++ grainBlocks

/-- The catalogue entry of a type code. -/
def blockType? (code : Nat) : Option BlockType := blockTypes.find? (fun b => b.code == code)

/-- MODE: number of transitions and of states (Table 20-5). -/
def modeNT (i : InstCfg) : Nat := fld (i.params.getD 0 0#40) 9 4
def modeNS (i : InstCfg) : Nat := fld (i.params.getD 0 0#40) 3 0 + 1

/-- The formats of an instance's parameter words; MODE's NP is 1 + NT + NS × (NO − 1). -/
def blockParams (b : BlockType) (i : InstCfg) : List PFmt :=
  if b.code == 0x17 then
    .i 0x3FFF :: (List.replicate (modeNT i) (PFmt.i 0x7FFF) ++
      List.replicate (modeNS i * (i.outs.length - 1)) PFmt.v)
  else b.params

/-- The corner cost of an instance, µs (Table 20-10). -/
def blockCost (i : InstCfg) : Nat := ((blockType? i.type).map (·.cost)).getD 0

/-- The state words of an instance (Table 20-10); MAVG holds 2 + N. -/
def blockWords (i : InstCfg) : Nat :=
  if i.type == 0x13 then 2 + fld (i.params.getD 0 0#40) 8 0
  else ((blockType? i.type).map (·.stateWords)).getD 0

/-- The persistent items a type may name: (KIND, how many) (Table 20-10, R812, R823). -/
def blockItems (code : Nat) : Option (Nat × Nat) :=
  if code == 0x0C || code == 0x15 then some (4, 1)
  else if code == 0x16 || code == 0x49 then some (1, 2)
  else if code == 0x42 then some (3, 1)
  else none

end Sys2Proof.Machine
end

