-- ==== Sys2Proof/Machine/Blocks.lean ====
section
/-! DEFINITION. The general blocks of chapter 20: one run of an instance, from its inputs, parameters and state to
its outputs and next state (R763 to R790). -/

namespace Sys2Proof.Machine

open Sys2Proof

/-- An input as an instance reads it: value word and quality. -/
structure BIn where
  v : Int
  q : Quality
  deriving DecidableEq, Repr

/-- What a run gives: next state, each output (none: nothing written), saturated results in order (R272), the
ALARM state, the SFRZ assertion, and the record a PUB sends. -/
structure BRes where
  st : BSt
  outs : List (Option BIn) := []
  sats : List Word := []
  alarm : Option Bool := none
  sfrz : Option Bool := none
  pub : Option BIn := none
  deriving DecidableEq, Repr

/-- What a run takes besides its inputs: parameters, state, last outputs, dt and the task period in ms, the
elapsed block time in ms, operating seconds, whether the AERATE window is open, the COLUMN state and the
parameters a DISCH reads, the record a SUB has received, and the persistent item words. -/
structure BEnv where
  p : List Word
  st : BSt
  last : List Int
  dt : Nat
  nowMs : Nat
  opSec : Nat
  window : Bool
  col : Option (ColSt × List Word × List (Option BIn))
  sub : Option BIn
  items : List (Option Word)

def BEnv.pw (e : BEnv) (k : Nat) : Word := e.p.getD k 0#40
def BEnv.pv (e : BEnv) (k : Nat) : Int := qOf (e.pw k)
def BEnv.pn (e : BEnv) (k hi lo : Nat) : Nat := fld (e.pw k) hi lo
def BEnv.lastOut (e : BEnv) (k : Nat) : Int := e.last.getD k 0

/-- true when the word is at least 0.5 (R767). -/
def isTrue (x : BIn) : Bool := 2 * x.v ≥ qOne
/-- bad: FAULT or STALE (R768). -/
def isBad (x : BIn) : Bool := x.q == .fault || x.q == .stale
/-- usable: GOOD or FORCED (R809). -/
def isUsable (x : BIn) : Bool := x.q == .good || x.q == .forced

def insQ (xs : List (Option BIn)) : Quality := worstQ ((xs.filterMap id).map (·.q))
/-- Input k, or a zero that is bad where it is absent. -/
def inAt (xs : List (Option BIn)) (k : Nat) : BIn := (xs.getD k none).getD ⟨0, .stale⟩
def inOpt (xs : List (Option BIn)) (k : Nat) : Option BIn := xs.getD k none

/-- The saturated word of a value-format result, if it saturated. -/
def satQ (r : QRes) : List Word := if r.sat then [qWord r.val] else []
/-- The saturated word of an F40 result, if it saturated. -/
def satF (r : FRes) : List Word := if r.sat then [r.word] else []

/-- PT of a timer, s in the value format, compared with an elapsed time in ms. -/
def reached (ms : Nat) (pt : Int) : Bool := (ms : Int) * qOne ≥ pt * 1000

/-- One result on output 0. -/
def oneOut (st : BSt) (r : QRes) (q : Quality) : BRes := ⟨st, [some ⟨r.val, q⟩], satQ r, none, none, none⟩
def boolOut (st : BSt) (b : Bool) (q : Quality) : BRes := ⟨st, [some ⟨qBool b, q⟩], [], none, none, none⟩

/-! Arithmetic and selection (Table 20-2). -/

def runSel (e : BEnv) (xs : List (Option BIn)) : BRes :=
  let s := inAt xs 0
  if isBad s then
    let q := match e.st with
      | .sel true => worse s.q (inAt xs 2).q
      | .sel false => worse s.q (inAt xs 1).q
      | _ => worse s.q (worse (inAt xs 1).q (inAt xs 2).q)
    ⟨(match e.st with | .fresh => .none | x => x), [some ⟨e.lastOut 0, q⟩], [], none, none, none⟩
  else
    let x := if isTrue s then inAt xs 2 else inAt xs 1
    ⟨.sel (isTrue s), [some ⟨x.v, worse s.q x.q⟩], [], none, none, none⟩

def runMux (e : BEnv) (xs : List (Option BIn)) : BRes :=
  let s := inAt xs 0
  let k := s.v / qOne
  if isBad s || k < 0 || k.toNat + 1 ≥ xs.length then
    ⟨.none, [some ⟨e.lastOut 0, .fault⟩], [], none, none, none⟩
  else
    let x := inAt xs (k.toNat + 1)
    ⟨.none, [some ⟨x.v, worse s.q x.q⟩], [], none, none, none⟩

def runScale (e : BEnv) (xs : List (Option BIn)) : BRes :=
  let y := qRound (frMul (frAdd (frMul (fVal (e.pw 0)) (frQ (inAt xs 0).v)) (frQ (e.pv 1))) (frInt qOne))
  oneOut .none y (insQ xs)

/-! Logic (Table 20-3). -/

def runLatch (e : BEnv) (xs : List (Option BIn)) : BRes :=
  let q0 := match e.st with
    | .latch q => q
    | _ => match e.items.getD 0 none with | some w => w != 0#40 | none => e.pn 0 1 1 == 1
  let on := fun x : BIn => isTrue x && !isBad x
  let s := on (inAt xs 0)
  let r := on (inAt xs 1)
  let q := if s && r then e.pn 0 0 0 == 1 else if s then true else if r then false else q0
  boolOut (.latch q) q (insQ xs)

def runEdge (e : BEnv) (xs : List (Option BIn)) : BRes :=
  let x := inAt xs 0
  if isBad x then boolOut e.st false x.q
  else
    let t := isTrue x
    let y := match e.st with
      | .edge m =>
        let k := e.pn 0 1 0
        (t && !m && k != 1) || (!t && m && k != 0)
      | _ => false
    boolOut (.edge t) y x.q

/-! Timers, comparison and filters (Table 20-4, R776). -/

def runTon (e : BEnv) (xs : List (Option BIn)) : BRes :=
  let x := inAt xs 0
  let (ms, m, q) := match e.st with | .timer ms m q => (ms, m, q) | _ => (0, false, false)
  if isBad x then boolOut (.timer ms m q) q x.q
  else if isTrue x then
    let ms := if m then ms + e.dt else 0
    let q := reached ms (e.pv 0)
    boolOut (.timer ms true q) q x.q
  else boolOut (.timer 0 false false) false x.q

def runTof (e : BEnv) (xs : List (Option BIn)) : BRes :=
  let x := inAt xs 0
  let (ms, m, q) := match e.st with | .timer ms m q => (ms, m, q) | _ => (0, false, false)
  if isBad x then boolOut (.timer ms m q) q x.q
  else if isTrue x then boolOut (.timer 0 true true) true x.q
  else
    let ms := if m then 0 else ms + e.dt
    let q := q && !reached ms (e.pv 0)
    boolOut (.timer ms false q) q x.q

def runPulse (e : BEnv) (xs : List (Option BIn)) : BRes :=
  let x := inAt xs 0
  let (ms, m, q) := match e.st with | .timer ms m q => (ms, m, q) | _ => (0, isTrue x, false)
  if isBad x then boolOut (match e.st with | .fresh => .fresh | _ => .timer ms m q) q x.q
  else
    let t := isTrue x
    if q then
      let ms := ms + e.dt
      let q := !reached ms (e.pv 0)
      boolOut (.timer ms t q) q x.q
    else
      let q := t && !m && !reached 0 (e.pv 0)
      boolOut (.timer 0 t q) q x.q

def runCmph (e : BEnv) (xs : List (Option BIn)) : BRes :=
  let x := inAt xs 0
  let q := match e.st with | .latch q => q | _ => false
  if isBad x then boolOut (.latch q) q x.q
  else
    let d := e.pn 2 0 0 == 1
    let on := if d then decide (x.v ≤ e.pv 0) else decide (x.v ≥ e.pv 0)
    let off := if d then decide (x.v ≥ e.pv 1) else decide (x.v ≤ e.pv 1)
    let q := if q then !off else on
    boolOut (.latch q) q x.q

/-- dt in seconds. -/
def dtFr (e : BEnv) : Frac := ⟨(e.dt : Int), 1000⟩

def runLag (e : BEnv) (xs : List (Option BIn)) : BRes :=
  let x := inAt xs 0
  if isBad x then ⟨e.st, [some ⟨e.lastOut 0, x.q⟩], [], none, none, none⟩
  else
    match e.st with
    | .lag y =>
      let t := fVal (e.pw 0)
      let r := if t.num = 0 then ⟨x.v, false⟩
        else qRound (frMul (frAdd (frQ y) (frDiv (frMul (frQ (x.v - y)) (dtFr e)) (frAdd t (dtFr e)))) (frInt qOne))
      oneOut (.lag r.val) r x.q
    | _ => ⟨.lag x.v, [some ⟨x.v, x.q⟩], [], none, none, none⟩

def runMavg (e : BEnv) (xs : List (Option BIn)) : BRes :=
  let x := inAt xs 0
  let buf := match e.st with | .mavg b => b | _ => []
  if isBad x then ⟨.mavg buf, [some ⟨e.lastOut 0, x.q⟩], [], none, none, none⟩
  else
    let buf := (x.v :: buf).take (e.pn 0 8 0)
    oneOut (.mavg buf) (qRound ⟨buf.foldl (· + ·) 0, buf.length⟩) x.q

/-! PID (R777 to R780), in F40, each operation rounded (R275). -/

def fLimit (u lo hi : Word) : Word :=
  if frLt (fVal u) (fVal lo) then lo else if frLt (fVal hi) (fVal u) then hi else u

def fNegW (w : Word) : Word := (fRound (frNeg (fVal w))).word

def runPid (e : BEnv) (xs : List (Option BIn)) : BRes :=
  let pv := inAt xs 0
  let sp := inAt xs 1
  let (i0, d0, pv0, u0, man0, first) := match e.st with
    | .pid i d p u m => (i, d, p, u, m, false)
    | _ => (0#40, 0#40, 0#40, 0#40, false, true)
  let man := match inOpt xs 3 with
    | none => false
    | some m => if isBad m then man0 else isTrue m
  let q := if man then insQ [inOpt xs 2, inOpt xs 3] else worse pv.q sp.q
  let hold := if man then (match inOpt xs 2 with | some t => isBad t | none => false) else isBad pv || isBad sp
  if hold then ⟨e.st, [some ⟨e.lastOut 0, q⟩], [], none, none, none⟩
  else
    let kp := e.pw 0
    let ti := e.pw 1
    let td := e.pw 2
    let ulo := qToF (e.pv 3)
    let uhi := qToF (e.pv 4)
    let pvF := qToF pv.v
    let spF := qToF sp.v
    let dtF := fRound (dtFr e)
    let neg := e.pn 5 0 0 == 1
    let sg := fun w => if neg then fNegW w else w
    let e1 := fSub spF.word pvF.word
    let er := sg e1.word
    let p := fMul kp er
    let trF := match inOpt xs 2 with | some t => some (qToF t.v) | none => none
    let i1 : FRes := if first then
        (match inOpt xs 2, trF with
         | some t, some tf => if isBad t then ⟨0#40, false⟩ else fSub tf.word p.word
         | _, _ => ⟨0#40, false⟩)
      else ⟨i0, false⟩
    let i0 := i1.word
    let pv0 := if first then pvF.word else pv0
    -- the derivative
    let dUse := fPos' td
    let a := fMul (sg (fNegW kp)) td
    let b := fSub pvF.word pv0
    let c := fMul a.word b.word
    let draw := fDiv c.word dtF.word
    let dd := fSub draw.word d0
    let f := fMul dd.word dtF.word
    let g := fDiv td (qToF (8 * qOne)).word
    let h := fAdd g.word dtF.word
    let k := fDiv f.word h.word
    let d1 := fAdd d0 k.word
    let d := if dUse then d1.word else d0
    let dSats := if dUse then [a, b, c, draw, dd, f, g, h, k, d1].flatMap satF else []
    if man then
      let u := match trF with | some t => fLimit t.word ulo.word uhi.word | none => u0
      let s1 := fSub u p.word
      let i := fSub s1.word d
      let y := fToQ u
      ⟨.pid i.word d pvF.word u true, [some ⟨y.val, q⟩], [e1, p, i1].flatMap satF ++ dSats ++ [s1, i].flatMap satF ++ satQ y,
       none, none, none⟩
    else
      let tiUse := fPos' ti
      let j1 := fMul p.word dtF.word
      let j2 := fDiv j1.word ti
      let iNew := fAdd i0 j2.word
      let r1 := fAdd p.word iNew.word
      let uRaw := fAdd r1.word d
      let z := fVal er
      let lock := (frLt (fVal uhi.word) (fVal uRaw.word) && z.num > 0) ||
        (frLt (fVal uRaw.word) (fVal ulo.word) && z.num < 0)
      let i := if tiUse && !lock then iNew.word else i0
      let t1 := fAdd p.word i
      let t2 := fAdd t1.word d
      let u := fLimit t2.word ulo.word uhi.word
      let y := fToQ u
      ⟨.pid i d pvF.word u false, [some ⟨y.val, q⟩],
       [e1, p, i1].flatMap satF ++ dSats ++ (if tiUse then [j1, j2, iNew, r1, uRaw].flatMap satF else []) ++
         [t1, t2].flatMap satF ++ satQ y, none, none, none⟩
where
  fPos' (w : Word) : Bool := !fSign w && fExp w != 0

/-! Counters and totalizer (R781 to R783). -/

/-- The level of an input in an edge memory, and whether it rose; a bad input keeps the memory. -/
def rise (mem : Option Bool) (x : Option BIn) : Option Bool × Bool :=
  match x with
  | none => (mem, false)
  | some b => if isBad b then (mem, false) else (some (isTrue b), isTrue b && mem == some false)

/-- The same of an input computed on its value word, bad or not (R768): the reset of a totalizer. -/
def riseWord (mem : Option Bool) (x : Option BIn) : Option Bool × Bool :=
  match x with
  | none => (mem, false)
  | some b => (some (isTrue b), isTrue b && mem == some false)

def runCnt (e : BEnv) (xs : List (Option BIn)) : BRes :=
  let (n0, m0) := match e.st with
    | .cnt n m => (n, some m)
    | _ => ((match e.items.getD 0 none with | some w => qOf w | none => 0), none)
  let (m, up) := rise m0 (inOpt xs 0)
  let rst := match inOpt xs 1 with | some r => isTrue r | none => false
  let n := if rst then ⟨0, false⟩ else if up then qAdd n0 qOne else ⟨n0, false⟩
  let q := insQ xs
  ⟨.cnt n.val (m.getD true), [some ⟨n.val, q⟩, some ⟨qBool (n.val ≥ e.pv 0), q⟩], satQ n, none, none, none⟩

/-- The largest TOTAL accumulator: 2^60 − 2^-20, in units of 2^-20 (R782). -/
def totalMax : Nat := 2 ^ 80 - 1

def runTotal (e : BEnv) (xs : List (Option BIn)) : BRes :=
  let (a0, m0) := match e.st with
    | .total a m => (a, some m)
    | _ =>
      ((match e.items.getD 0 none, e.items.getD 1 none with
        | some lo, some hi => lo.toNat + 2 ^ 40 * hi.toNat
        | _, _ => 0), none)
  let (m, clr) := riseWord m0 (inOpt xs 1)
  let a1 := if clr then 0 else a0
  let rate := inAt xs 0
  let inc : Nat := if isBad rate || rate.v ≤ 0 then 0
    else
      let f := frMul (frMul (frQ rate.v) (fVal (e.pw 0))) (frMul (dtFr e) ⟨qOne, 3600⟩)
      (divRoundEven f.num f.den).toNat
  let a := min (a1 + inc) totalMax
  let sat := if a1 + inc > totalMax then [BitVec.ofNat 40 a] else []
  let lo : Nat := a % (100000 * 2 ^ 20)
  let hi := qInt ((a / (100000 * 2 ^ 20) : Nat) : Int)
  let q := insQ xs
  ⟨.total a (m.getD true), [some ⟨(lo : Int), q⟩, some ⟨hi.val, q⟩], sat ++ satQ hi, none, none, none⟩

/-! MODE (R784, R785). -/

/-- The first transition that holds. -/
def modeStep (e : BEnv) (xs : List (Option BIn)) (s : Nat) : List Nat → Nat
  | [] => s
  | k :: ks =>
    let frm := e.pn k 3 0
    let any := e.pn k 4 4 == 1
    let dst := e.pn k 8 5
    let neg := e.pn k 14 14 == 1
    let x := inAt xs (e.pn k 13 9)
    if (frm == s || (any && s != dst)) && !isBad x && isTrue x != neg then dst else modeStep e xs s ks

def runMode (e : BEnv) (xs : List (Option BIn)) (no : Nat) : BRes :=
  let nt := e.pn 0 9 4
  let s0 := match e.st with | .mode s => s | _ => e.pn 0 13 10
  let s := modeStep e xs s0 (rangeFrom 1 nt)
  ⟨.mode s, some ⟨(s : Int) * qOne, .good⟩ ::
    (rangeFrom 1 (no - 1)).map (fun k => some ⟨e.pv (1 + nt + s * (no - 1) + k - 1), .good⟩),
   [], none, none, none⟩

/-! ALARM, SFRZ, PUB and SUB (R787 to R790). -/

def runAlarm (e : BEnv) (xs : List (Option BIn)) : BRes :=
  let x := inAt xs 0
  let c := if isBad x then e.pn 0 4 4 == 1 else isTrue x
  let (c0, ms0, act) := match e.st with | .alarm c m a => (some c, m, a) | _ => (none, 0, false)
  let ms := if c0 == some c then ms0 + e.dt else 0
  let lim := if c then e.pn 1 19 0 else e.pn 1 39 20
  let act' := if c != act && ms ≥ lim then c else act
  ⟨.alarm c ms act', [some ⟨qBool act', x.q⟩], [], some act', none, none⟩

def runSfrz (xs : List (Option BIn)) : BRes :=
  let x := inAt xs 0
  ⟨.none, [], [], none, some (isBad x || isTrue x), none⟩

def runPub (e : BEnv) (xs : List (Option BIn)) : BRes :=
  let x := inAt xs 0
  match e.st with
  | .pub ms v q =>
    let ms := ms + e.dt
    let d : Int := if x.v ≥ v then x.v - v else v - x.v
    if ms ≥ e.pn 1 19 0 && (d ≥ e.pv 2 || x.q != q || ms ≥ e.pn 1 39 20) then
      ⟨.pub 0 x.v x.q, [], [], none, none, some x⟩
    else ⟨.pub ms v q, [], [], none, none, none⟩
  | _ => ⟨.pub 0 x.v x.q, [], [], none, none, some x⟩

def runSub (e : BEnv) : BRes := ⟨.none, [e.sub], [], none, none, none⟩

/-- One run of a general block (chapter 20); none for a type code that is not one. -/
def runGeneral (type no : Nat) (e : BEnv) (xs : List (Option BIn)) : Option BRes :=
  let a := inAt xs 0
  let b := inAt xs 1
  let q := insQ xs
  match type with
  | 0x01 => some (oneOut .none (qClamp (((xs.filterMap id).map (·.v)).foldl (· + ·) 0)) q)
  | 0x02 => some (oneOut .none (qSub a.v b.v) q)
  | 0x03 => some (oneOut .none (qMul a.v b.v) q)
  | 0x04 => some (oneOut .none (qDiv a.v b.v) (if b.v = 0 then .fault else q))
  | 0x05 => some (oneOut .none ⟨min (max a.v (e.pv 0)) (e.pv 1), false⟩ q)
  | 0x06 => some (runSel e xs)
  | 0x07 => some (runScale e xs)
  | 0x08 => some (boolOut .none ((xs.filterMap id).all isTrue) q)
  | 0x09 => some (boolOut .none ((xs.filterMap id).any isTrue) q)
  | 0x0A => some (boolOut .none (!isTrue a) q)
  | 0x0B => some (boolOut .none (((xs.filterMap id).filter isTrue).length % 2 == 1) q)
  | 0x0C => some (runLatch e xs)
  | 0x0D => some (runEdge e xs)
  | 0x0E => some (runTon e xs)
  | 0x0F => some (runTof e xs)
  | 0x10 => some (runPulse e xs)
  | 0x11 => some (runCmph e xs)
  | 0x12 => some (runLag e xs)
  | 0x13 => some (runMavg e xs)
  | 0x14 => some (runPid e xs)
  | 0x15 => some (runCnt e xs)
  | 0x16 => some (runTotal e xs)
  | 0x17 => some (runMode e xs no)
  | 0x18 => some (runMux e xs)
  | 0x19 => some (runAlarm e xs)
  | 0x1A => some (runSfrz xs)
  | 0x1B => some (runPub e xs)
  | 0x1C => some (runSub e)
  | _ => none

end Sys2Proof.Machine
end

