-- ==== Sys2Proof/Machine/Crypto.lean ====
section
/-! DEFINITION. CRC-32 (IEEE 802.3), SHA-256 (FIPS 180-4), HMAC (FIPS 198-1) and ECDSA P-256 verification
(FIPS 186-4), as R430, R505 and R507 name them. -/

namespace Sys2Proof.Machine

open Sys2Proof

/-- One bit step of the reflected CRC-32 register. -/
def crcBit (c : Nat) : Nat := if c % 2 == 1 then (c / 2) ^^^ 0xEDB88320 else c / 2

/-- The CRC register after one byte. -/
def crcByte (c : Nat) (b : Byte) : Nat :=
  let x := c ^^^ b.toNat
  crcBit (crcBit (crcBit (crcBit (crcBit (crcBit (crcBit (crcBit x)))))))

/-- CRC-32 of a byte list (IEEE 802.3 polynomial). -/
def crc32 (bs : List Byte) : Nat := (bs.foldl crcByte 0xFFFFFFFF) ^^^ 0xFFFFFFFF

/-! SHA-256 on 32-bit numbers, in the form FIPS 180-4 defines it: the constants from the roots of the primes, and the
eight working variables as the last four values of two sequences, the a's and the e's. -/

/-- A number modulo 2^32. -/
def mod32 (n : Nat) : Nat := n % 2 ^ 32

/-- x, a 32-bit number, turned right by k places. -/
def turn32 (x k : Nat) : Nat := x / 2 ^ k ||| mod32 (x * 2 ^ (32 - k))

/-- The exclusive or of x turned right by each place of a list. -/
def turnMix (places : List Nat) (x : Nat) : Nat := places.foldl (fun m k => m ^^^ turn32 x k) 0

/-- The greatest r below 2^k with r^e at most n. -/
def rootOf (e n : Nat) : Nat → Nat → Nat
  | 0, r => r
  | k + 1, r => rootOf e n k (if (r + 2 ^ k) ^ e ≤ n then r + 2 ^ k else r)

/-- The first 32 bits of the fraction of the e-th root of p. -/
def rootFraction (e p : Nat) : Nat := mod32 (rootOf e (p * 2 ^ (32 * e)) 40 0)

/-- The primes below 312, of which there are 64. -/
def shaPrimes : List Nat :=
  (rangeFrom 2 310).filter (fun p => (rangeFrom 2 16).all (fun d => p ≤ d || p % d != 0))

/-- The round constants: the cube roots of the first 64 primes (FIPS 180-4, 4.2.2). -/
def shaK : List Nat := shaPrimes.map (rootFraction 3)

/-- The hash so far, or the working variables of a block: the a's (a, b, c, d) and the e's (e, f, g, h). -/
structure ShaSt where
  as : List Nat
  es : List Nat
  deriving DecidableEq, Repr

/-- The initial hash value: the square roots of the first eight primes (FIPS 180-4, 5.3.3). -/
def shaInit : ShaSt :=
  let h := (shaPrimes.take 8).map (rootFraction 2)
  ⟨h.take 4, h.drop 4⟩

/-- Each bit of e chooses between f (where it is 1) and g. -/
def shaChoose (es : List Nat) : Nat := es.getD 2 0 ^^^ (es.getD 0 0 &&& (es.getD 1 0 ^^^ es.getD 2 0))

/-- Each bit is that of at least two of a, b and c. -/
def shaMost (as : List Nat) : Nat :=
  (as.getD 0 0 &&& as.getD 1 0) ||| (as.getD 2 0 &&& (as.getD 0 0 ||| as.getD 1 0))

/-- One round, with `x` the sum of its constant and its schedule word (FIPS 180-4, 6.2.2 step 3). -/
def shaRound (s : ShaSt) (x : Nat) : ShaSt :=
  let add := x + s.es.getD 3 0 + turnMix [6, 11, 25] (s.es.getD 0 0) + shaChoose s.es
  ⟨mod32 (add + turnMix [2, 13, 22] (s.as.getD 0 0) + shaMost s.as) :: s.as.take 3,
   mod32 (add + s.as.getD 3 0) :: s.es.take 3⟩

/-- The schedule word after the 16 of a window, oldest first (FIPS 180-4, 6.2.2 step 1). -/
def shaNextW (ws : List Nat) : Nat :=
  let near := ws.getD 14 0
  let far := ws.getD 1 0
  mod32 ((turnMix [17, 19] near ^^^ near / 2 ^ 10) + ws.getD 9 0 + (turnMix [7, 18] far ^^^ far / 2 ^ 3) + ws.getD 0 0)

/-- One round per constant, the window of the schedule sliding by one word each. -/
def shaRounds (ks ws : List Nat) (s : ShaSt) : ShaSt :=
  (ks.foldl (fun acc k => (acc.1.drop 1 ++ [shaNextW acc.1], shaRound acc.2 (k + acc.1.getD 0 0))) (ws, s)).2

/-- The hash after one more block of 16 words. -/
def shaBlock (s : ShaSt) (ws : List Nat) : ShaSt :=
  let r := shaRounds shaK ws s
  ⟨List.zipWith (fun h x => mod32 (h + x)) s.as r.as, List.zipWith (fun h x => mod32 (h + x)) s.es r.es⟩

/-- A big-endian number of bytes. -/
def beNat (bs : List Byte) : Nat := bs.foldl (fun a b => a * 256 + b.toNat) 0

/-- The big-endian bytes of a number, `k` of them. -/
def beBytes (k n : Nat) : List Byte := (natBytes k n).reverse

/-- The hash after the next `k` blocks of 64 bytes. -/
def shaBlocks : Nat → List Byte → ShaSt → ShaSt
  | 0, _, s => s
  | k + 1, bs, s =>
    shaBlocks k (bs.drop 64) (shaBlock s ((rangeFrom 0 16).map (fun w => beNat ((bs.drop (4 * w)).take 4))))

/-- A message with its padding to whole blocks of 64 bytes (FIPS 180-4, 5.1.1). -/
def shaPadded (m : List Byte) : List Byte :=
  m ++ 0x80#8 :: List.replicate ((119 - m.length % 64) % 64) 0#8 ++ beBytes 8 (8 * m.length)

/-- SHA-256 of a byte list, 32 bytes. -/
def sha256 (m : List Byte) : List Byte :=
  let r := shaBlocks ((shaPadded m).length / 64) (shaPadded m) shaInit
  (r.as ++ r.es).flatMap (beBytes 4)

/-- HMAC-SHA-256 with a key of at most 64 bytes. -/
def hmac (key msg : List Byte) : List Byte :=
  let k := key ++ List.replicate (64 - key.length) 0#8
  sha256 (k.map (· ^^^ 0x5c#8) ++ sha256 (k.map (· ^^^ 0x36#8) ++ msg))

/-! P-256. -/

def p256P : Nat := 0xFFFFFFFF00000001000000000000000000000000FFFFFFFFFFFFFFFFFFFFFFFF
def p256N : Nat := 0xFFFFFFFF00000000FFFFFFFFFFFFFFFFBCE6FAADA7179E84F3B9CAC2FC632551
def p256B : Nat := 0x5AC635D8AA3A93E7B3EBBD55769886BC651D06B0CC53B0F63BCE3C3E27D2604B
def p256Gx : Nat := 0x6B17D1F2E12C4247F8BCE6E563A440F277037D812DEB33A0F4A13945D898C296
def p256Gy : Nat := 0x4FE342E2FE1A7F9B8EE7EB4A7C0F9E162BCE33576B315ECECBB6406837BF51F5

/-- a^e mod m, by the bits of e, least significant first (`k` bits). -/
def powMod : Nat → Nat → Nat → Nat → Nat → Nat
  | 0, _, _, _, acc => acc
  | k + 1, a, e, m, acc => powMod k (a * a % m) (e / 2) m (if e % 2 == 1 then acc * a % m else acc)

/-- Inverse modulo a prime. -/
def invMod (a m : Nat) : Nat := powMod 256 (a % m) (m - 2) m 1

/-- An affine point, or none for the point at infinity. -/
abbrev EcPoint := Option (Nat × Nat)

/-- Sum of two points of the curve. -/
def ecAdd (a b : EcPoint) : EcPoint :=
  match a, b with
  | none, q => q
  | p, none => p
  | some (x1, y1), some (x2, y2) =>
    if x1 == x2 && (y1 + y2) % p256P == 0 then none
    else
      let l := if x1 == x2 && y1 == y2
        then (3 * x1 * x1 + (p256P - 3)) * invMod (2 * y1) p256P % p256P
        else (y2 + p256P - y1) * invMod (x2 + p256P - x1) p256P % p256P
      let x3 := (l * l + 2 * p256P - x1 - x2) % p256P
      some (x3, (l * (x1 + p256P - x3) + p256P - y1) % p256P)

/-- k × a, by the bits of k. -/
def ecMul : Nat → Nat → EcPoint → EcPoint → EcPoint
  | 0, _, _, acc => acc
  | f + 1, k, a, acc => ecMul f (k / 2) (ecAdd a a) (if k % 2 == 1 then ecAdd acc a else acc)

/-- ECDSA P-256 verification of a SHA-256 hash with public key (x, y) (R430). -/
def ecdsaVerify (x y r s : Nat) (hash : List Byte) : Bool :=
  if r == 0 || s == 0 || r ≥ p256N || s ≥ p256N then false
  else if x ≥ p256P || y ≥ p256P || (y * y) % p256P != (x * x * x + (p256P - 3) * x + p256B) % p256P then false
  else
    let z := beNat hash
    let w := invMod s p256N
    match ecAdd (ecMul 256 (z * w % p256N) (some (p256Gx, p256Gy)) none)
                (ecMul 256 (r * w % p256N) (some (x, y)) none) with
    | none => false
    | some (px, _) => px % p256N == r

end Sys2Proof.Machine
end

