-- ==== Sys2Proof/Machine/PlateParse.lean ====
section
/-! DEFINITION. The layout of plate sections (R509 to R511, Table 13-3): the walk of a section's tables, the
typed content of each entry, and the checks 12a to 12f of Table 13-5 of one entry. -/

namespace Sys2Proof.Machine

open Sys2Proof

/-- One table entry as it stands in the plate: section, table, word offset, words. -/
structure Ent where
  sect : Nat
  tid : Nat
  off : Nat
  ws : List Word
  deriving DecidableEq, Repr

/-- Word k of an entry, as a number. -/
def Ent.n (e : Ent) (k : Nat) : Nat := (e.ws.getD k 0#40).toNat
/-- Word k of an entry. -/
def Ent.w (e : Ent) (k : Nat) : Word := e.ws.getD k 0#40
/-- Field of word k. -/
def Ent.f (e : Ent) (k hi lo : Nat) : Nat := bitsN (e.n k) hi lo
/-- One-bit field of word k. -/
def Ent.b (e : Ent) (k i : Nat) : Bool := bitsN (e.n k) i i == 1
/-- Value-format word k. -/
def Ent.v (e : Ent) (k : Nat) : Int := qOf (e.w k)

/-- EW of each table of Table 13-3; none for a table that does not exist. -/
def tableEW (sect tid : Nat) : Option Nat :=
  match sect, tid with
  | 0, 1 => some 3 | 1, 1 => some 9
  | 2, 1 => some 1 | 2, 2 => some 3 | 2, 3 => some 2 | 2, 4 => some 1
  | 3, 1 => some 4 | 3, 2 => some 0 | 3, 3 => some 3 | 3, 4 => some 4 | 3, 5 => some 1
  | 4, 1 => some 7 | 4, 2 => some 6 | 4, 3 => some 4 | 4, 4 => some 3 | 4, 5 => some 1
  | 5, 1 => some 0 | 5, 2 => some 3
  | 6, 1 => some 0 | 6, 2 => some 0
  | 7, 1 => some 3 | 7, 2 => some 2
  | 8, 1 => some 1 | 8, 2 => some 2 | 8, 3 => some 2
  | 9, 1 => some 3 | 9, 2 => some 1 | 9, 3 => some 3 | 9, 4 => some 1
  | 10, 1 => some 2 | 11, 1 => some 1 | 12, 1 => some 0
  | _, _ => none

/-- The task periods in ms (Table 13-4). -/
def periodMs (code : Nat) : Nat :=
  [50, 100, 200, 250, 500, 1000, 2000, 5000, 10000, 30000, 60000].getD code 0

/-- The conversion turns of an ODR code (Table 15-2). -/
def odrTurns (code : Nat) : Nat :=
  [1600, 800, 400, 240, 200, 80, 67, 40, 10, 4, 1].getD code 0

/-- The instance that an entry of BLOCKS table 1 declares. -/
def instOf (e : Ent) : InstCfg :=
  let ni := e.f 1 7 0
  let no := e.f 1 15 8
  let np := e.f 1 23 16
  { type := e.f 0 15 8, inst := e.f 0 31 16, pindex := e.f 1 39 24,
    ins := (rangeFrom 2 ni).map (fun k => e.f k 11 0),
    outs := (rangeFrom (2 + ni) no).map (fun k => ⟨e.f k 11 0, e.f k 15 12⟩),
    params := (rangeFrom (2 + ni + no) np).map e.w }

def islandsOf (e : Ent) : IslandsCfg :=
  ⟨e.b 0 0, e.f 0 3 1, e.b 0 4, e.f 0 12 6, e.v 1, [e.w 2, e.w 3, e.w 4, e.w 5], e.v 6, e.v 7, e.v 8⟩
def scanOf (e : Ent) : ScanCfg :=
  ⟨e.f 0 6 0, e.f 0 14 8, e.f 0 18 16, e.f 0 23 20, e.f 0 25 24, e.b 0 26, e.f 1 11 0, e.f 1 15 12,
   e.f 1 19 16, e.f 1 35 20, e.f 2 19 0, e.f 2 27 20⟩
def excOf (e : Ent) : ExcCfg := ⟨e.f 0 2 0, e.f 0 4 3, e.f 0 14 5, e.f 0 21 15, e.f 0 28 22, e.f 1 15 0⟩
def biasOf (e : Ent) : BiasCfg := ⟨e.f 0 1 0, e.f 0 8 2, e.f 0 10 9⟩
def valOf (e : Ent) : ValCfg :=
  ⟨e.f 0 11 0, e.f 0 15 12, e.f 0 17 16, e.f 0 31 24, e.f 0 39 32, e.v 1, e.v 2, e.f 3 11 0, e.f 3 31 12⟩
def coefOf (e : Ent) : CoefCfg := ⟨e.f 0 15 8, e.f 0 18 16, e.f 0 21 20, e.f 0 39 24, e.ws.drop 1⟩
def pairOf (e : Ent) : PairCfg := ⟨e.f 0 11 0, e.f 0 23 12, e.f 0 25 24, e.v 1, e.f 2 19 0⟩
def swOf (e : Ent) : SwCfg :=
  ⟨e.f 0 7 0, e.f 0 19 8, e.b 0 20, e.f 0 22 21, e.b 0 23, e.b 0 24, e.v 1, e.v 2, e.f 3 19 0, e.f 3 39 20⟩
def fanOf (e : Ent) : FanCfg :=
  ⟨e.f 0 7 0, e.f 0 9 8, e.b 0 10, e.f 0 13 11 + 1, e.f 0 17 14, e.f 0 33 18, e.f 1 11 0, e.f 1 23 12,
   e.f 1 33 24, e.v 2, e.f 3 19 0, e.v 4, e.w 5, e.w 6⟩
def motorOf (e : Ent) : MotorCfg :=
  ⟨e.f 0 7 0, e.f 0 15 8, e.f 0 23 16, e.f 0 25 24, e.f 0 27 26, e.f 1 15 0, e.f 1 31 16, e.f 2 11 0,
   e.f 2 23 12, e.f 2 31 24, e.f 3 15 0, e.f 3 35 16, e.v 4, e.f 5 11 0, e.f 5 19 12⟩
def gateOf (e : Ent) : GateCfg := ⟨e.f 0 6 0, e.f 0 18 7, e.v 1, e.v 2, e.f 3 19 0, e.f 3 39 20⟩
def heatOf (e : Ent) : HeatCfg := ⟨e.f 0 3 0, e.f 0 5 4, e.f 0 17 6, e.v 1, e.v 2⟩
def dryerOf (e : Ent) : DryerCfg := ⟨e.f 0 1 0, e.b 0 2, e.b 0 3, e.f 0 8 4⟩
def sectOf (e : Ent) : SectCfg :=
  ⟨e.f 0 4 0, e.f 0 6 5, e.f 0 18 7, e.f 0 30 19, e.f 1 11 0, e.f 1 23 12, e.f 2 15 0⟩
def taskOf (e : Ent) : TaskCfg :=
  ⟨e.f 0 31 16, e.f 0 11 8, e.f 0 38 32, (rangeFrom 1 (e.ws.length - 1)).map (fun k => e.f k 15 0)⟩
def chainOf (e : Ent) : ChainCfg :=
  let l := e.ws.length - 1
  ⟨e.f 0 31 16, e.f 1 31 0, e.f 2 3 0, e.f 2 15 4, (rangeFrom 3 (l - 3)).map (fun k => e.f k 15 0),
   e.f l 3 0, e.f l 15 4⟩
def startsOf (e : Ent) : StartsCfg := ⟨e.v 0, e.f 1 7 0, e.f 1 10 8, e.f 1 31 16, e.w 2⟩
def canOf (e : Ent) : CanCfg :=
  ⟨e.f 0 1 0, e.b 0 2, e.b 0 3, e.f 0 15 8, e.f 0 21 16, e.f 1 23 0, e.f 1 33 24, e.f 2 23 0, e.f 2 33 24⟩
def nodeOf (e : Ent) : NodeCfg := ⟨e.f 0 1 0, e.f 0 9 2, e.f 0 17 10, e.f 1 31 0, e.f 2 31 0⟩
def remoteOf (e : Ent) : RemoteCfg := ⟨e.f 0 3 0, e.f 0 15 4, e.f 0 17 16, e.f 0 25 18, e.f 0 35 26, e.b 0 36⟩
def schedOf (e : Ent) : SchedCfg :=
  ⟨e.f 0 7 0, e.f 0 19 8, e.f 0 24 20, e.f 0 31 25, e.f 0 36 32, e.f 1 5 0, e.b 1 6⟩

/-- The plate with one more entry taken. -/
def addEnt (p : Plate) (e : Ent) : Plate :=
  match e.sect, e.tid with
  | 0, _ => { p with ident := p.ident ++ [⟨e.f 0 39 32, e.f 0 31 0, e.n 1, e.f 2 15 0, e.f 2 31 16⟩] }
  | 1, _ => { p with islands := p.islands ++ [islandsOf e] }
  | 2, 1 => { p with rotateS := e.f 0 15 0, reject := e.f 0 17 16 }
  | 2, 2 => { p with scans := p.scans ++ [scanOf e] }
  | 2, 3 => { p with excs := p.excs ++ [excOf e] }
  | 2, _ => { p with biases := p.biases ++ [biasOf e] }
  | 3, 1 => { p with vals := p.vals ++ [valOf e] }
  | 3, 2 => { p with coefs := p.coefs ++ [coefOf e] }
  | 3, 3 => { p with pairs := p.pairs ++ [pairOf e] }
  | 3, 4 => { p with sws := p.sws ++ [swOf e] }
  | 3, _ => { p with pitems := p.pitems ++ [⟨e.f 0 39 32, e.f 0 16 0⟩] }
  | 4, 1 => { p with fans := p.fans ++ [fanOf e] }
  | 4, 2 => { p with motors := p.motors ++ [motorOf e] }
  | 4, 3 => { p with gates := p.gates ++ [gateOf e] }
  | 4, 4 => { p with heats := p.heats ++ [heatOf e] }
  | 4, _ => { p with dryers := p.dryers ++ [dryerOf e] }
  | 5, 1 => { p with insts := p.insts ++ [instOf e] }
  | 5, _ => { p with sects := p.sects ++ [sectOf e] }
  | 6, 1 => { p with tasks := p.tasks ++ [taskOf e] }
  | 6, _ => { p with chains := p.chains ++ [chainOf e] }
  | 7, 1 => { p with starts := p.starts ++ [startsOf e] }
  | 7, _ => { p with dips := p.dips ++ [⟨e.f 0 7 0, e.f 0 24 8, e.v 1⟩] }
  | 8, 1 => { p with faultN := p.faultN ++ [e.f 0 1 0] }
  | 8, 2 => { p with faults := p.faults ++ [⟨e.f 0 7 0, e.f 0 9 8, e.f 0 14 10, e.b 0 16, e.f 1 31 0⟩] }
  | 8, _ => { p with reacts := p.reacts ++ [⟨e.f 0 7 0, e.f 0 11 8, e.f 0 23 12, e.v 1⟩] }
  | 9, 1 => { p with cans := p.cans ++ [canOf e] }
  | 9, 2 => { p with sup := p.sup ++ [⟨e.f 0 9 0, e.f 0 11 10, e.f 0 27 12, e.f 0 32 28⟩] }
  | 9, 3 => { p with nodes := p.nodes ++ [nodeOf e] }
  | 9, _ => { p with remotes := p.remotes ++ [remoteOf e] }
  | 10, _ => { p with scheds := p.scheds ++ [schedOf e] }
  | 11, _ => { p with locks := p.locks ++ [⟨e.f 0 19 0, e.f 0 39 20⟩] }
  | _, _ => { p with strs := p.strs ++ [⟨e.f 0 23 8, e.f 0 35 24⟩] }

/-- The bit timing of R867: BRP, TSEG1, TSEG2 of the nominal and of the data phase. -/
structure CanTiming where
  brp : Nat
  n1 : Nat
  n2 : Nat
  d1 : Nat
  d2 : Nat
  deriving DecidableEq, Repr

/-- The smallest BRP that R867 admits, tried from `b` upward. -/
def canBrp (c : CanCfg) : Nat → Nat → Option Nat
  | 0, _ => none
  | k + 1, b =>
    let okN := c.nomBps != 0 && 40000000 % (b * c.nomBps) == 0 && 40000000 / (b * c.nomBps) ≤ 200
    let okD := !c.fd || c.dataBps == 0 ||
      (40000000 % (b * c.dataBps) == 0 && 40000000 / (b * c.dataBps) ≤ 50)
    if okN && okD then some b else canBrp c k (b + 1)

/-- TSEG1 of N quanta at a sample point. -/
def canSeg1 (n sp : Nat) : Nat := (divRoundEven ((n * sp : Nat) : Int) 1000).toNat - 1

/-- The bit timing of a controller entry; none where no BRP exists. -/
def canTiming (c : CanCfg) : Option CanTiming :=
  match canBrp c 32 1 with
  | none => none
  | some b =>
    let n := 40000000 / (b * c.nomBps)
    let t1 := canSeg1 n c.nomSp
    if c.fd && c.dataBps != 0 then
      let d := 40000000 / (b * c.dataBps)
      let u1 := canSeg1 d c.dataSp
      some ⟨b, t1, n - 1 - t1, u1, d - 1 - u1⟩
    else some ⟨b, t1, n - 1 - t1, 0, 0⟩

/-- Name spaces of declared indexes: 0 value, 1 set, 2 switch, 3 fan, 4 motor, 5 gate, 6 heat, 7 instance,
8 task, 9 chain, 10 section, 11 node, 12 schedule entry, 13 string, 14 persistent index, 15 excitation,
16 bias, 17 dryer, 18 value named as a RUN value. -/
def declares (p : Plate) (space key : Nat) : Bool :=
  match space with
  | 0 => p.vals.any (·.index == key)
  | 1 => p.coefs.any (·.set == key)
  | 2 => p.sws.any (·.sw == key)
  | 3 => p.fans.any (·.ch == key)
  | 4 => p.motors.any (·.ch == key)
  | 5 => p.gates.any (·.ch == key)
  | 6 => p.heats.any (·.ch == key)
  | 7 => p.insts.any (·.inst == key)
  | 8 => p.tasks.any (·.task == key)
  | 9 => p.chains.any (·.chain == key)
  | 10 => p.sects.any (·.sect == key)
  | 11 => p.nodes.any (fun n => n.bus * 256 + n.node == key)
  | 12 => p.scheds.any (·.entry == key)
  | 13 => p.strs.any (·.str == key)
  | 14 => p.pitems.any (·.index == key)
  | 15 => p.excs.any (·.src == key)
  | 16 => p.biases.any (·.bias == key)
  | 17 => p.dryers.any (·.dryer == key)
  | 18 => p.sects.any (·.run == key)
  | 19 => p.remotes.any (fun r => r.kind < 4 && r.logical == key)
  | _ => false

/-- The checks of one entry: allowed bits of each word (12b), words that hold F40 (12c), word and verdict of
each range condition (12d), the index declared (12e), the references made (12f). -/
structure EntChk where
  masks : List Nat := []
  f40 : List Nat := []
  range : List (Nat × Bool) := []
  decl : List (Nat × Nat) := []
  refs : List (Nat × Nat × Nat) := []
  deriving DecidableEq, Repr

def all40 : Nat := 0xFFFFFFFFFF

/-- A reference that a none code may leave out. -/
def refOr (none_ word space key : Nat) : List (Nat × Nat × Nat) :=
  if key == none_ then [] else [(word, space, key)]

/-- An F40 word above 0, and not below 0. -/
def fPos (w : Word) : Bool := !fSign w && fExp w != 0
def fNonNeg (w : Word) : Bool := !fSign w || fExp w == 0
/-- 0 < w ≤ 1. -/
def fUnit (w : Word) : Bool := fPos w && frLe (fVal w) (frInt 1)

/-! The conditions of 12d, each with the word of the entry that it fails. A condition on several fields fails at the last of
their words, the first at which the walk of R513 can tell (DEDUCED, assumption 21). -/

/-- The front-end conditions of Table 15-10 for a scan entry. -/
def scanRange (p : Plate) (s : ScanCfg) : List (Nat × Bool) :=
  let src := p.excs.find? (·.src == s.exc)
  let mode3 := match src with | some x => x.mode == 3 | none => false
  let chop := match src with | some x => x.mode != 3 | none => false
  let turns := odrTurns s.odr
  let whole := match src with | some x => (turns * 250 * x.freqHz) % 1000000 == 0 | none => true
  let zero50 := s.odr ≤ 3 || s.odr == 5
  let zero60 := s.odr ≤ 2 || s.odr == 4 || (s.odr == 6 && !chop && !s.cap)
  let rejOk := s.odr ≥ 8 || s.cap ||
    ((p.reject % 2 == 0 || zero50) && (p.reject / 2 == 0 || zero60))
  [(0, s.pos ≤ 95 && s.neg ≤ 95 && s.pos != s.neg), (0, s.odr ≤ 10), (1, s.cap == mode3),
   (0, !(s.cap && s.burnout != 0)), (1, whole), (if s.odr == 6 && chop then 1 else 0, rejOk),
   (1, s.exc ≤ 7 || s.exc == 15), (1, s.bias ≤ 3 || s.bias == 15), (1, s.settleMs != 0),
   (2, !(s.blankMs == 0 && s.blankMask != 0))]

/-- The excitation conditions of Tables 13-3 and 15-10. -/
def excRange (x : ExcCfg) : List (Nat × Bool) :=
  [(0, if x.mode == 0 then decide (10 ≤ x.iUa ∧ x.iUa ≤ 1000) else x.iUa == 0),
   (0, x.pinP ≤ 95 && x.pinN ≤ 95),
   (1, if x.mode == 3 then decide (1000 ≤ x.freqHz ∧ x.freqHz ≤ 50000) && 5000000 % x.freqHz == 0
       else decide (1 ≤ x.freqHz ∧ x.freqHz ≤ 1000) && 2000 % x.freqHz == 0)]

/-- The value conditions of R452 and Table 16-6. INDEX 0xFFF is refused with PLT_RANGE: R511 has it stand for none, though Table
1-2 and R28 count values to 4 095 (DEDUCED, assumption 21). -/
def valRange (p : Plate) (v : ValCfg) : List (Nat × Bool) :=
  let tempOk := v.temp == 0xFFF || (v.temp != v.index &&
    (match p.vals.find? (·.index == v.temp) with | some t => t.temp == 0xFFF | none => true))
  [(0, v.producer ≤ 5), (0, if v.producer == 3 then v.kq ≤ 0x10 && v.coef == 0xFF else v.kq == 0),
   (0, v.coef == 0xFF || v.producer == 0), (0, v.index != 0xFFF),
   (0, v.producer != 1 || ((p.vals.filter (·.producer == 1)).map (·.index)).idxOf v.index < 10),
   (2, v.low < v.high), (3, tempOk), (3, v.staleMs != 0)]

/-- The pair conditions of Table 16-6. -/
def pairRange (p : Plate) (x : PairCfg) : List (Nat × Bool) :=
  let fe := fun i => match p.vals.find? (·.index == i) with | some v => v.producer == 0 | none => true
  let uses := fun i => (p.pairs.filter (fun y => y.a == i || y.b == i)).length ≤ 1
  [(0, p.pairs.length ≤ 128), (0, x.a != x.b && fe x.a && fe x.b && uses x.a && uses x.b),
   (1, x.tolerance > 0), (2, x.limitMs != 0)]

/-- The switch conditions of Table 16-6. -/
def swRange (x : SwCfg) : List (Nat × Bool) :=
  [(0, x.fstate ≤ 2), (0, x.sw ≤ 31 || !(x.pinEn || x.pinPol)),
   (2, if x.dir then decide (x.set ≤ x.reset) else decide (x.set ≥ x.reset))]

/-- The fan conditions of Table 18-4 with code PLT_RANGE. -/
def fanRange (f : FanCfg) : List (Nat × Bool) :=
  [(0, decide (20 ≤ f.pwmHz ∧ f.pwmHz ≤ 40000)), (0, f.group ≤ 3 || f.group == 15), (1, f.fixedPm ≤ 1000),
   (1, f.mode != 2 || f.source != 0xFFF), (2, f.stall ≥ 0),
   (2, !(f.stall > 0 && f.stall * (f.ppr : Int) < 12 * qOne)),
   (3, !(f.stall > 0 && f.stallMs == 0)), (2, !(f.stall > 0 && f.speed == 0xFFF)),
   (5, f.mode != 2 || fPos f.kp), (6, f.mode != 2 || fNonNeg f.ti)]

/-- The motor conditions of Table 19-4 with code PLT_RANGE. -/
def motorRange (m : MotorCfg) : List (Nat × Bool) :=
  let pct := fun x : Nat => decide (1 ≤ x ∧ x ≤ 100)
  [(0, m.role ≤ 2), (1, m.prove != 0 && m.purge != 0),
   (3, if m.nomMov > 0 then pct m.plugPct else m.plugPct == 0),
   (3, !(m.nomMov > 0 && m.plugMs == 0)), (4, m.ct == 0xFFF || m.overload > 0),
   (5, m.slip == 0xFFF || (m.nomMov > 0 && pct m.slipPct))]

/-- The gate and heat conditions of Table 19-4. -/
def gateRange (g : GateCfg) : List (Nat × Bool) :=
  [(2, g.openPos != g.closedPos), (3, g.travelMs != 0 && g.stallMs != 0 && decide (g.stallMs < g.travelMs))]
def heatRange (h : HeatCfg) : List (Nat × Bool) := [(2, h.high > h.reset)]

/-- The task that names an instance. -/
def taskOfInst (p : Plate) (i : Nat) : Option TaskCfg := p.tasks.find? (·.insts.contains i)

/-- The conditions on a block's parameters, by parameter number (Tables 20-11 and 21-7). -/
def paramRange (p : Plate) (i : InstCfg) : List (Nat × Bool) :=
  let w := fun k => i.params.getD k 0#40
  let v := fun k => qOf (w k)
  let n := fun k hi lo => fld (w k) hi lo
  let per := match taskOfInst p i.inst with | some t => periodMs t.period | none => 0
  let target0 := (i.outs.getD 0 ⟨0xFFF, 0⟩)
  let isPhase := target0.kind == 0 && p.sects.any (·.phase == target0.target)
  match i.type with
  | 0x05 => [(1, v 0 < v 1)]
  | 0x0D => [(0, n 0 1 0 ≤ 2)]
  | 0x0E => [(0, v 0 ≥ 0)]
  | 0x0F => [(0, v 0 ≥ 0)]
  | 0x10 => [(0, v 0 ≥ 0)]
  | 0x11 => [(2, if n 2 0 0 == 1 then decide (v 0 ≤ v 1) else decide (v 0 ≥ v 1))]
  | 0x12 => [(0, fNonNeg (w 0))]
  | 0x13 => [(0, decide (2 ≤ n 0 8 0 ∧ n 0 8 0 ≤ 256))]
  | 0x14 => [(0, fPos (w 0)), (1, fNonNeg (w 1)), (2, fNonNeg (w 2)), (4, v 3 < v 4)]
  | 0x16 => [(0, fPos (w 0))]
  | 0x17 =>
    let ns := modeNS i
    [(0, decide (n 0 13 10 < ns)), (0, decide (modeNT i ≤ 32)), (0, !isPhase || decide (ns ≤ 4))] ++
    (rangeFrom 1 (modeNT i)).map (fun k =>
      (k, decide (n k 3 0 < ns ∧ n k 8 5 < ns ∧ n k 13 9 < i.ins.length)))
  | 0x19 => []
  | 0x1B => [(1, n 1 39 20 != 0 && n 1 19 0 ≤ n 1 39 20), (2, v 2 ≥ 0)]
  | 0x40 => [(1, fPos (w 1)), (2, fPos (w 2))]
  | 0x42 => [(0, v 0 > 0), (1, v 1 > 0), (2, decide (0 ≤ v 2 ∧ v 2 ≤ 100 * qOne)), (7, fUnit (w 7)),
             (8, v 8 ≥ 0), (6, decide (v 6 ≥ 0 ∧ v 6 * 1000 ≤ 256 * (per : Int) * qOne))]
  | 0x43 => [(1, v 1 ≥ 0), (2, v 1 < v 2), (3, v 3 > 0), (4, fNonNeg (w 4)),
             (5, decide (v 1 ≤ v 5 ∧ v 5 ≤ v 2)), (6, v 6 ≥ 0)]
  | 0x44 => [(4, isPhase), (4, n 4 35 16 != 0), (5, n 5 19 0 != 0 && n 5 39 20 != 0),
             (6, n 6 19 0 != 0 && n 6 39 20 != 0)]
  | 0x45 => [(0, isPhase), (3, n 3 19 0 != 0 && n 3 39 20 != 0)]
  | 0x46 => [(1, v 1 < v 0), (3, decide (0 ≤ v 3 ∧ v 3 ≤ 100 * qOne))]
  | 0x47 => [(1, v 1 ≥ 0), (2, v 2 ≥ 0), (4, decide (v 3 ≤ v 4)), (5, decide (0 ≤ v 5 ∧ v 5 ≤ 100 * qOne))]
  | 0x48 => [(0, fNonNeg (w 0))]
  | 0x4A => [(0, v 0 > 0), (1, n 1 7 0 ≤ 64), (2, v 2 > 0), (3, v 3 > 0)]
  | _ => []

/-- The conditions of R763, R766 and Table 20-11 on an instance, by word of its entry. A second item is missed only beside a
first one: an undeclared PINDEX is a broken reference (DEDUCED, assumption 21). -/
def instRange (p : Plate) (i : InstCfg) : List (Nat × Bool) :=
  let ni := i.ins.length
  let no := i.outs.length
  match blockType? i.type with
  | none => [(0, false)]
  | some b =>
    let fm := blockParams b i
    let pItem := match blockItems i.type with
      | none => i.pindex == 0xFFFF
      | some (kind, cnt) => i.pindex == 0xFFFF ||
        ((p.pitems.all (fun x => x.index != i.pindex || x.kind == kind)) &&
         (cnt == 1 || !declares p 14 i.pindex || p.pitems.any (fun x => x.index == i.pindex + 1 && x.kind == kind)))
    [(1, decide (b.niMin ≤ ni ∧ ni ≤ b.niMax ∧ b.noMin ≤ no ∧ no ≤ b.noMax ∧ i.params.length = fm.length)),
     (1, pItem)] ++
    (rangeFrom 0 ni).map (fun k => (2 + k, i.ins.getD k 0 != 0xFFF || b.optIn.contains k)) ++
    (rangeFrom 0 no).map (fun k =>
      let o := i.outs.getD k ⟨0, 0⟩
      (2 + ni + k, o.kind ≤ 4 && (!(o.kind == 0 && o.target == 0xFFF) || b.optOut.contains k) &&
        (i.type != 0x1C || o.kind == 0))) ++
    (if i.type == 0x41 then
      [(4 + ni, (i.ins.getD 3 0 == 0xFFF) == ((i.outs.getD 2 ⟨0, 0⟩).kind == 0 && (i.outs.getD 2 ⟨0, 0⟩).target == 0xFFF))]
     else []) ++
    (paramRange p i).map (fun x => (2 + ni + no + x.1, x.2))

/-- The references of an instance: inputs, outputs, persistent item, COLUMN of a DISCH, schedule entries of an
AERATE, and the task that must name it (R766, Tables 20-1, 20-11, 21-7). -/
def instRefs (p : Plate) (i : InstCfg) : List (Nat × Nat × Nat) :=
  let ni := i.ins.length
  let no := i.outs.length
  let col := fld (i.params.getD 0 0#40) 15 0
  let discOk := i.type != 0x43 ||
    (p.insts.any (fun c => c.inst == col && c.type == 0x42) &&
     (match taskOfInst p i.inst with
      | some t => t.insts.idxOf col < t.insts.idxOf i.inst
      | none => false) &&
     (p.insts.filter (fun d => d.type == 0x43 && fld (d.params.getD 0 0#40) 15 0 == col)).length == 1)
  (if (taskOfInst p i.inst).isNone then [(0, 99, 0)] else []) ++
  (rangeFrom 0 ni).flatMap (fun k => refOr 0xFFF (2 + k) 0 (i.ins.getD k 0xFFF)) ++
  (rangeFrom 0 no).flatMap (fun k =>
    let o := i.outs.getD k ⟨0xFFF, 0⟩
    match o.kind with
    | 0 => refOr 0xFFF (2 + ni + k) 0 o.target
    | 1 => [(2 + ni + k, 3, o.target)]
    | 2 => [(2 + ni + k, 4, o.target)]
    | 3 => [(2 + ni + k, 5, o.target)]
    | 4 => [(2 + ni + k, 6, o.target)]
    | _ => []) ++
  refOr 0xFFFF 1 14 i.pindex ++
  (if discOk then [] else [(2 + ni + no, 99, 0)]) ++
  (if i.type == 0x47 && fld (i.params.getD 6 0#40) 16 16 == 0 then
    [(2 + ni + no + 6, 12, fld (i.params.getD 6 0#40) 7 0), (2 + ni + no + 6, 12, fld (i.params.getD 6 0#40) 15 8)]
   else [])

/-- Local channels of each kind and totals (Table 1-2): fan, motor, gate, heat. -/
def chanLocal (kind : Nat) : Nat := [32, 24, 16, 8].getD kind 0
def chanTotal (kind : Nat) : Nat := [256, 256, 128, 16].getD kind 0

/-- The controller conditions of R888 and Table 13-3. -/
def canRange (c : CanCfg) : List (Nat × Bool) :=
  let t := canTiming c
  let nomOk := (canTiming { c with fd := false }).isSome
  let sp := fun x : Nat => decide (500 ≤ x ∧ x ≤ 900)
  [(0, c.recovN == 0 || decide (1 ≤ c.recovS ∧ c.recovS ≤ 60)),
   (1, decide (20000 ≤ c.nomBps ∧ c.nomBps ≤ 1000000)), (if nomOk then 2 else 1, t.isSome || c.nomBps == 0), (1, sp c.nomSp),
   (1, match t with | some x => x.n2 ≥ 2 | none => true),
   (2, c.dataBps ≤ 5000000 && (c.dataBps == 0 || (c.fd && c.dataBps ≥ c.nomBps))),
   (2, c.dataBps == 0 || sp c.dataSp),
   (2, match t with | some x => !(c.fd && c.dataBps != 0) || x.d2 ≥ 1 | none => true)]

/-- The checks of an entry of Table 13-3. -/
def entChk (p : Plate) (e : Ent) : EntChk :=
  match e.sect, e.tid with
  | 0, _ => { masks := [all40, all40, 0xFFFFFFFF],
              range := [(0, e.f 0 39 32 == 1 || decide (0x80 ≤ e.f 0 39 32 ∧ e.f 0 39 32 ≤ 0xFE))],
              refs := refOr 0xFFFF 2 13 (e.f 2 15 0) ++ refOr 0xFFFF 2 13 (e.f 2 31 16) }
  | 1, _ =>
    let x := islandsOf e
    { masks := 0x1FDF :: List.replicate 8 all40, f40 := [2, 3, 4, 5],
      range := [(0, decide (40 ≤ x.pfwPct ∧ x.pfwPct ≤ 80)), (0, x.phases != 0),
        (1, decide (50 * qOne ≤ x.nominal ∧ x.nominal ≤ 300 * qOne)),
        (6, decide (qOne ≤ 2 * x.unbalance ∧ x.unbalance ≤ 10 * qOne)),
        (7, decide (45 * qOne ≤ x.freqLow)), (8, decide (x.freqLow < x.freqHigh ∧ x.freqHigh ≤ 65 * qOne))] }
  | 2, 1 => { masks := [0x3FFFF], range := [(0, decide (60 ≤ e.f 0 15 0 ∧ e.f 0 15 0 ≤ 3600))] }
  | 2, 2 =>
    let x := scanOf e
    { masks := [0x7F77F7F, 0xFFFFFFFFF, 0x7FFFFFF], range := scanRange p x,
      refs := [(1, 0, x.value)] ++ refOr 15 1 15 x.exc ++ refOr 15 1 16 x.bias }
  | 2, 3 => { masks := [0x1FFFFFFF, 0xFFFF], range := excRange (excOf e) }
  | 2, _ => { masks := [0x7FF], range := [(0, e.f 0 10 9 != 3), (0, e.f 0 8 2 ≤ 95)] }
  | 3, 1 =>
    let x := valOf e
    { masks := [0xFFFF03FFFF, all40, all40, 0xFFFFFFFF], range := valRange p x, decl := [(0, x.index)],
      refs := refOr 0xFF 0 1 x.coef ++ refOr 0xFFF 3 0 x.temp ++
        (if x.producer == 3 && x.kq == 0 then [(0, 18, x.index)] else []) }
  | 3, 2 => { masks := 0xFFFF37FFFF :: List.replicate (e.ws.length - 1) all40,
              f40 := rangeFrom 1 (e.ws.length - 1), range := [(0, e.f 0 18 16 ≤ 5), (0, e.f 0 15 8 != 0xFF)],
              decl := [(1, e.f 0 15 8)], refs := refOr 0xFFFF 0 13 (e.f 0 39 24) }
  | 3, 3 => { masks := [0x3FFFFFF, all40, 0xFFFFF], range := pairRange p (pairOf e),
              refs := [(0, 0, e.f 0 11 0), (0, 0, e.f 0 23 12)] }
  | 3, 4 => { masks := [0x1FFFFFF, all40, all40, all40], range := swRange (swOf e), decl := [(2, e.f 0 7 0)],
              refs := [(0, 0, e.f 0 19 8)] }
  | 3, _ => { masks := [0xFF0001FFFF], decl := [(14, e.f 0 16 0)],
              range := [(0, e.f 0 16 0 ≤ 64896), (0, decide (1 ≤ e.f 0 39 32 ∧ e.f 0 39 32 ≤ 4))] }
  | 4, 1 =>
    let x := fanOf e
    { masks := [0x3FFFFFFFF, 0x3FFFFFFFF, all40, 0xFFFFF, all40, all40, all40], f40 := [5, 6],
      range := fanRange x, decl := [(3, x.ch)],
      refs := refOr 15 0 17 x.group ++ refOr 0xFFF 1 0 x.source ++ refOr 0xFFF 1 0 x.speed }
  | 4, 2 =>
    let x := motorOf e
    { masks := [0xFFFFFFF, 0xFFFFFFFF, 0xFFFFFFFF, 0xFFFFFFFFF, all40, 0xFFFFF], range := motorRange x,
      decl := [(4, x.ch)],
      refs := refOr 255 0 10 x.sect ++ refOr 255 0 4 x.down ++
        (if x.role == 0 then [] else [(0, 17, x.dryer)]) ++
        refOr 0xFFF 2 0 x.ct ++ refOr 0xFFF 2 0 x.level ++ refOr 0xFFF 5 0 x.slip }
  | 4, 3 => { masks := [0x7FFFF, all40, all40, all40], range := gateRange (gateOf e), decl := [(5, e.f 0 6 0)],
              refs := refOr 0xFFF 0 0 (e.f 0 18 7) }
  | 4, 4 => { masks := [0x3FFFF, all40, all40], range := heatRange (heatOf e), decl := [(6, e.f 0 3 0)],
              refs := [(0, 17, e.f 0 5 4)] ++ refOr 0xFFF 0 0 (e.f 0 17 6) }
  | 4, _ => { masks := [0x1FF], refs := [(0, 10, e.f 0 8 4)] }
  | 5, 1 =>
    let x := instOf e
    let fm := match blockType? x.type with | some b => blockParams b x | none => []
    let base := 2 + x.ins.length + x.outs.length
    { masks := [0xFFFFFFFF, all40] ++ x.ins.map (fun _ => 0xFFF) ++ x.outs.map (fun _ => 0xFFFF) ++
        (rangeFrom 0 x.params.length).map (fun k => match fm.getD k .v with | .i m => m | _ => all40),
      f40 := (rangeFrom 0 x.params.length).flatMap (fun k => if fm.getD k .v == .f then [base + k] else []),
      range := instRange p x, decl := [(7, x.inst)], refs := instRefs p x }
  | 5, _ =>
    let x := sectOf e
    { masks := [0x7FFFFFFF, 0xFFFFFF, 0xFFFF], decl := [(10, x.sect)], range := [(1, x.delayS ≤ 3600)],
      refs := [(0, 0, x.run), (0, 0, x.phase)] ++
        (if x.auto == 3 then [(1, 0, x.cond)] else []) ++
        (if x.auto == 2 then [(1, 12, x.cond % 256)] else []) ++ refOr 0xFFFF 2 13 x.name }
  | 6, 1 =>
    let x := taskOf e
    { masks := 0x7FFFFF0FFF :: List.replicate (e.ws.length - 1) 0xFFFF, decl := [(8, x.task)],
      range := [(0, x.period ≤ 10), (0, x.tile ≤ 63 || x.tile == 127)],
      refs := (rangeFrom 0 x.insts.length).map (fun k => (1 + k, 7, x.insts.getD k 0)) }
  | 6, _ =>
    let x := chainOf e
    let l := e.ws.length - 1
    { masks := [0xFFFF00FF, 0xFFFFFFFF] ++ List.replicate (e.ws.length - 2) 0xFFFF, decl := [(9, x.chain)],
      range := [(2, x.causeKind ≤ 5), (2, x.causeKind != 3 || x.causeIndex < 0x60), (l, x.effKind ≤ 5)],
      refs := (rangeFrom 0 x.tasks.length).map (fun k => (3 + k, 8, x.tasks.getD k 0)) ++
        (if x.causeKind ≤ 2 then [(2, 0, x.causeIndex)] else []) ++
        (if x.causeKind == 4 then [(2, 4, x.causeIndex)] else []) ++
        (if x.causeKind == 5 then [(2, 3, x.causeIndex)] else []) ++
        (match x.effKind with
         | 0 => [(l, 3, x.effCh)] | 1 => [(l, 4, x.effCh)] | 2 => [(l, 5, x.effCh)] | 3 => [(l, 6, x.effCh)]
         | 4 => [(l, 2, x.effCh)] | _ => [(l, 19, x.effCh)]) }
  | 7, 1 =>
    let x := startsOf e
    { masks := [all40, 0xFFFF07FF, all40], f40 := [2],
      range := [(0, decide (70 * qOne ≤ x.limitPct ∧ x.limitPct ≤ 100 * qOne)),
        (1, decide (2 ≤ x.spacingS ∧ x.spacingS ≤ 60 ∧ 1 ≤ x.maxConc ∧ x.maxConc ≤ 4)), (2, fUnit x.alpha)] }
  | 7, _ => { masks := [0x1FFFFFF, all40], range := [(0, declares p 4 (e.f 0 7 0)), (1, e.v 1 ≥ 0)],
              refs := refOr 0x1FFFF 0 14 (e.f 0 24 8) }
  | 8, 1 => { masks := [0x3], range := [(0, e.f 0 1 0 ≤ 2)] }
  | 8, 2 => { masks := [0x17FFF, 0xFFFFFFFF], range := [(0, e.f 0 7 0 < 0x60)],
              refs := if e.b 0 16 then (rangeFrom 0 32).flatMap (fun k =>
                if e.b 1 k then [(1, 10, k)] else []) else [] }
  | 8, _ => { masks := [0xFFFFFF, all40], range := [(0, e.f 0 7 0 < 0x60), (0, e.f 0 11 8 ≤ 3)],
              refs := if e.f 0 11 8 ≤ 3 then [(0, 3 + e.f 0 11 8, e.f 0 23 12)] else [] }
  | 9, 1 => { masks := [0x3FFF0F, 0x3FFFFFFFF, 0x3FFFFFFFF], range := canRange (canOf e) }
  | 9, 2 => { masks := [0x1FFFFFFFF],
              range := [(0, e.f 0 9 0 ≤ 600), (0, e.f 0 27 12 ≥ 100),
                (0, decide (1 ≤ e.f 0 32 28 ∧ e.f 0 32 28 ≤ 20))] }
  | 9, 3 =>
    let x := nodeOf e
    { masks := [0x3FFFF, 0xFFFFFFFF, 0xFFFFFFFF], decl := [(11, x.bus * 256 + x.node)],
      range := [(0, decide (1 ≤ x.node ∧ x.node ≤ 0x7E)),
        (0, x.type == 2 || x.type == 8 || decide (0x80 ≤ x.type ∧ x.type ≤ 0xFE))] }
  | 9, _ =>
    let x := remoteOf e
    { masks := [0x1FFFFFFFFF],
      range := [(0, x.kind ≤ 4), (0, x.obj ≤ 0x3FF), (0, x.kind ≥ 4 || x.logical < chanTotal x.kind)],
      refs := [(0, 11, x.bus * 256 + x.node)] ++
        (if x.kind == 4 then [(0, 0, x.logical)] else if x.kind ≤ 3 then [(0, 3 + x.kind, x.logical)] else []) }
  | 10, _ =>
    let x := schedOf e
    { masks := [0x1FFFFFFFFF, 0x7F], decl := [(12, x.entry)],
      range := [(0, x.months != 0 && x.wdays != 0 && x.hour ≤ 23), (1, x.minute ≤ 59)] }
  | 11, _ => { masks := [all40], range := [(0, e.f 0 39 20 ≥ 1)] }
  | _, _ =>
    let used := e.f 0 35 24
    { masks := 0xFFFFFFFFF :: (rangeFrom 0 (e.ws.length - 1)).map (fun k =>
        if used ≥ 5 * (k + 1) then all40 else 2 ^ (8 * (used - 5 * k)) - 1), decl := [(13, e.f 0 23 8)] }

/-- NW that the fields of an entry of an EW-0 table call for, where they fix it (R510). -/
def entNW (e : Ent) : Option Nat :=
  match e.sect, e.tid with
  | 3, 2 => some (1 + (e.f 0 18 16 + 1) * (e.f 0 21 20 + 1))
  | 5, 1 => some (2 + e.f 1 7 0 + e.f 1 15 8 + e.f 1 23 16)
  | 12, 1 => some (1 + (e.f 0 35 24 + 4) / 5)
  | _, _ => none

/-- The least NW of a table with EW 0. -/
def minNW (sect tid : Nat) : Nat :=
  if sect == 5 then 2 else if sect == 6 && tid == 2 then 4 else 1

/-- The walk of a section: its entries, its table headers (offset, word), and the offset of the first word
that breaks R509 or R510. -/
structure Walk where
  ents : List Ent := []
  heads : List (Nat × Word) := []
  bad : Option Nat := none
  deriving DecidableEq, Repr

/-- Take `count` entries of one table from the words that are left; answers the entries, the words after them
and the offset of an entry that does not fit; where the section has ended, that of its last word (DESIGN CHOICE, assumption 51). -/
def takeEnts (sect tid ew : Nat) : Nat → Nat → List Word → List Ent → List Ent × List Word × Nat × Option Nat
  | 0, off, ws, acc => (acc, ws, off, none)
  | k + 1, off, ws, acc =>
    let nw := if ew == 0 then fld (ws.getD 0 0#40) 7 0 else ew
    let e : Ent := ⟨sect, tid, off, ws.take nw⟩
    let nwOk := ew != 0 || (nw ≥ minNW sect tid && (match entNW e with | some m => m == nw | none => true))
    if ws.isEmpty then (acc, ws, off, some (off - 1))
    else if ws.length < nw || !nwOk then (acc, ws, off, some off)
    else takeEnts sect tid ew k (off + nw) (ws.drop nw) (acc ++ [e])

/-- Walk the tables of a section; the first argument bounds the number of tables. -/
def walkTables (sect : Nat) : Nat → Nat → Nat → List Word → Walk → Walk
  | 0, off, _, ws, acc => if ws.isEmpty then acc else { acc with bad := some off }
  | k + 1, off, last, ws, acc =>
    match ws with
    | [] => acc
    | h :: rest =>
      let tid := fld h 39 32
      let acc := { acc with heads := acc.heads ++ [(off, h)] }
      match tableEW sect tid with
      | none => { acc with bad := some off }
      | some ew =>
        if tid ≤ last || fld h 31 24 != ew then { acc with bad := some off }
        else
          match takeEnts sect tid ew (fld h 19 0) (off + 1) rest [] with
          | (es, _, _, some b) => { acc with ents := acc.ents ++ es, bad := some b }
          | (es, ws', off', none) => walkTables sect k off' tid ws' { acc with ents := acc.ents ++ es }

/-- A failed check: word offset, refusal code. -/
abbrev Fail := Nat × Nat

/-- The failures of one entry, 12b to 12d and 12f. -/
def entFails (p : Plate) (e : Ent) : List Fail :=
  let c := entChk p e
  let res := (rangeFrom 0 e.ws.length).filterMap (fun k =>
    if e.n k &&& (all40 - (c.masks.getD k all40)) == 0 then none else some (e.off + k, 0x0D))
  let f40 := c.f40.filterMap (fun k => if fLegal (e.w k) then none else some (e.off + k, 0x0E))
  let rng := c.range.filterMap (fun x => if x.2 then none else some (e.off + x.1, 0x0F))
  let ref := c.refs.filterMap (fun x => if declares p x.2.1 x.2.2 then none else some (e.off + x.1, 0x11))
  res ++ f40 ++ rng ++ ref

/-- The second declarations of an index (12e): entries whose index an earlier entry declares. -/
def dupFails (p : Plate) : List Ent → List (Nat × Nat) → List Fail
  | [], _ => []
  | e :: es, seen =>
    let d := (entChk p e).decl
    d.filterMap (fun x => if seen.contains x then some (e.off, 0x10) else none) ++ dupFails p es (seen ++ d)

/-- Instances named by more than one task, or twice in one (Table 20-11). -/
def taskDupFails : List Ent → List Nat → List Fail
  | [], _ => []
  | e :: es, seen =>
    if e.sect == 6 && e.tid == 1 then
      let is := (taskOf e).insts
      (rangeFrom 0 is.length).filterMap (fun k =>
        if seen.contains (is.getD k 0) || (is.take k).contains (is.getD k 0) then some (e.off + 1 + k, 0x10)
        else none) ++ taskDupFails es (seen ++ is)
    else taskDupFails es seen

/-- Two switches with PIN_EN on one ball are two declarations of one switch; a pin of a switch above 31 is
refused by `swRange`. The reserved bits of table headers. -/
def headFails (hs : List (Nat × Word)) : List Fail :=
  hs.filterMap (fun h => if fld h.2 23 20 == 0 then none else some (h.1, 0x0D))

/-- The least failure: lowest offset, and there the lowest code (R513). -/
def firstFail : List Fail → Option Fail
  | [] => none
  | f :: fs =>
    match firstFail fs with
    | none => some f
    | some g => if f.1 < g.1 || (f.1 == g.1 && f.2 ≤ g.2) then some f else some g

end Sys2Proof.Machine
end

