-- ==== Sys2Proof/Machine/PlateCheck.lean ====
section
/-! DEFINITION. Plate validation: the checks of Table 13-5 in the order of R513, with the refusal parameter of
R514. -/

namespace Sys2Proof.Machine

open Sys2Proof

/-- What the GW64 knows of the flash from SFDP (R500, Table 13-7). -/
structure FlashFacts where
  ok : Bool := false
  erase4k : Bool := false
  addr4 : Bool := false
  op4k : Nat := 0
  density : Nat := 0
  deriving DecidableEq, Repr

/-- The flash has passed check 1 of Table 13-5. -/
def flashOk (f : FlashFacts) : Bool := f.ok && decide (64 ≤ f.density)

/-- What validation takes from the machine: the flash, the current plate key (none: not written) and its
generation, the running keeper's VERSION and the stored site identity (none: unwritten). -/
structure PlateEnv where
  flash : FlashFacts
  key : Option (List Byte)
  keyGen : Nat
  keeper : Nat
  site : Option (List Word)
  /-- Registers that their chapters mark plate-locked (14f). -/
  lockable : Nat → Bool
  /-- Default class and allowed reactions of a fault source (R352). -/
  faultDefault : Nat → Nat × Nat

/-- A refusal: code, section (0xFF for header and trailer), word offset. -/
structure Refuse where
  code : Nat
  sect : Nat
  off : Nat
  deriving DecidableEq, Repr

/-- The parameter of R514. -/
def Refuse.param (r : Refuse) : Word := packW [(7, 0, r.code), (15, 8, r.sect), (35, 16, r.off)]

/-- Directory entry i: OFFSET, SLEN, CRC and the reserved bits of its second word. -/
def dirOff (ws : List Word) (i : Nat) : Nat := fld (ws.getD (26 + 2 * i) 0#40) 39 20
def dirLen (ws : List Word) (i : Nat) : Nat := fld (ws.getD (26 + 2 * i) 0#40) 19 0
def dirCrc (ws : List Word) (i : Nat) : Nat := fld (ws.getD (27 + 2 * i) 0#40) 31 0

/-- Check 10 (R504 to R506): the first header word that breaks the directory rules or sets a reserved bit. The zero bits of the last
trailer word (R507), which Table 13-5 puts under no check, fall under this one (DESIGN CHOICE, assumption 51). -/
def dirFail (ws : List Word) (len : Nat) : Option Nat :=
  let w := fun k => ws.getD k 0#40
  let klist := fld (w 1) 24 20
  let bads : List (Nat × Bool) :=
    [(1, fld (w 1) 31 25 != 0), (3, fld (w 3) 39 2 != 0), (4, fld (w 4) 39 32 != 0), (5, fld (w 5) 39 17 != 0)] ++
    (rangeFrom 10 16).map (fun k => (k, fld (w k) 39 32 != 0 || (k ≥ 10 + klist && w k != 0#40))) ++
    (rangeFrom 0 13).flatMap (fun i =>
      [(26 + 2 * i, (if i == 0 then dirOff ws 0 != 64 else dirOff ws i != dirOff ws (i - 1) + dirLen ws (i - 1)) ||
          (i == 12 && dirOff ws 12 + dirLen ws 12 != len - 7)),
       (27 + 2 * i, fld (w (27 + 2 * i)) 39 32 != 0 || (dirLen ws i == 0 && dirCrc ws i != 0))]) ++
    (rangeFrom 52 12).map (fun k => (k, w k != 0#40)) ++
    [(len - 1, fld (w (len - 1)) 39 16 != 0)]
  (bads.find? (·.2)).map (·.1)

/-- The words of section i. -/
def sectWords (ws : List Word) (i : Nat) : List Word := (ws.drop (dirOff ws i)).take (dirLen ws i)

/-- The walks of the thirteen sections. -/
def plateWalks (ws : List Word) : List Walk :=
  (rangeFrom 0 13).map (fun i => walkTables i 16 (dirOff ws i) 0 (sectWords ws i) {})

/-- The decoded plate of a word list. -/
def decodePlate (ws : List Word) : Plate :=
  ((plateWalks ws).flatMap (·.ents)).foldl addEnt { hdr := ws.take 64 }

/-- The section that holds a word offset. -/
def sectAt (ws : List Word) (off : Nat) : Nat :=
  ((rangeFrom 0 13).find? (fun i => dirOff ws i ≤ off && off < dirOff ws i + dirLen ws i)).getD 0xFF

/-- Checks 12a to 12f in one walk (R513). The references are held against what the walk of every section declares, so that one
declared only at or after the word that fails 12a counts as undeclared (DESIGN CHOICE, assumption 51). -/
def check12 (ws : List Word) : Option Fail :=
  let walks := plateWalks ws
  let ents := walks.flatMap (·.ents)
  let p := decodePlate ws
  firstFail (walks.filterMap (fun w => w.bad.map (fun o => (o, 0x0C))) ++
    walks.flatMap (fun w => headFails w.heads) ++
    ents.flatMap (entFails p) ++ dupFails p ents [] ++ taskDupFails ents [])

/-- The number of explicit producers of a value and its matching PRODUCER code (R29): scan entries (0), local
tachometers (2), remote-map values (4), block outputs (5). -/
def producersOf (p : Plate) (v : Nat) : List Nat :=
  (p.scans.filter (·.value == v)).map (fun _ => 0) ++
  (p.fans.filter (fun f => f.speed == v && f.ch < 32)).map (fun _ => 2) ++
  (p.remotes.filter (fun r => r.kind == 4 && r.logical == v)).map (fun _ => 4) ++
  p.insts.flatMap (fun i => (i.outs.filter (fun o => o.kind == 0 && o.target == v)).map (fun _ => 5))

/-- The channel demands that block outputs drive: (KIND, target). -/
def demandOuts (p : Plate) : List (Nat × Nat) :=
  p.insts.flatMap (fun i => (i.outs.filter (fun o => o.kind != 0)).map (fun o => (o.kind, o.target)))

/-- Follow DOWN links from a motor for `k` steps; true when they return to it. -/
def downLoops (p : Plate) (start : Nat) : Nat → Nat → Bool
  | 0, _ => false
  | k + 1, m =>
    match p.motors.find? (·.ch == m) with
    | none => false
    | some c => if c.down == 255 then false else if c.down == start then true else downLoops p start k c.down

/-- A supervised fan channel: a stall speed above 0 (R692). -/
def supervised (f : FanCfg) : Bool := f.stall > 0

/-- The remote map names a channel. -/
def mapped (p : Plate) (kind ch : Nat) : Bool := p.remotes.any (fun r => r.kind == kind && r.logical == ch)

/-- Checks 14a to 14g of one entry: true where the entry is at fault under a code. `before` lists the entries
that stand before it. -/
def chk14 (env : PlateEnv) (p : Plate) (code : Nat) (before : List Ent) (e : Ent) : Bool :=
  match code, e.sect, e.tid with
  | 0x12, 3, 1 =>
    let v := valOf e
    let pr := producersOf p v.index
    let remoteSpeed := p.fans.any (fun f => f.speed == v.index && f.ch ≥ 32)
    !(if v.producer == 1 || v.producer == 3 then pr.isEmpty else pr == [v.producer]) ||
      (remoteSpeed && v.producer != 4)
  | 0x12, 5, 2 =>
    let x := sectOf e
    !(p.vals.any (fun v => v.index == x.run && v.producer == 3 && v.kq == 0))
  | 0x13, 9, 3 =>
    let x := nodeOf e
    let prev := (before.filter (fun b => b.sect == 9 && b.tid == 3)).map nodeOf
    prev.length ≥ 128 || (prev.filter (·.bus == x.bus)).length ≥ 32 || !(p.cans.any (·.ctrl == x.bus))
  | 0x13, 9, 2 => e.f 0 9 0 != 0 && !(p.cans.any (·.ctrl == e.f 0 11 10))
  | 0x14, 9, 4 =>
    let x := remoteOf e
    let prev := (before.filter (fun b => b.sect == 9 && b.tid == 4)).map remoteOf
    (x.kind ≤ 3 && x.logical < chanLocal x.kind) ||
    prev.any (fun y => (y.kind == x.kind && y.logical == x.logical) ||
      ((y.kind == x.kind || (x.kind < 4 && y.kind < 4)) && y.bus == x.bus && y.node == x.node && y.obj == x.obj))
  | 0x14, 4, 1 =>
    let f := fanOf e
    (f.ch ≥ 32 && !mapped p 0 f.ch) || (f.mode == 3) != ((demandOuts p).contains (1, f.ch))
  | 0x14, 4, 2 =>
    let m := motorOf e
    (m.ch ≥ 24 && !mapped p 1 m.ch) || downLoops p m.ch 256 m.ch
  | 0x14, 4, 3 => e.f 0 6 0 ≥ 16 && !mapped p 2 (e.f 0 6 0)
  | 0x14, 4, 4 =>
    let h := heatOf e
    (h.ch ≥ 8 && !mapped p 3 h.ch) || !(p.fans.any (fun f => f.group == h.dryer && supervised f))
  | 0x14, 4, 5 => e.b 0 2 && before.any (fun b => b.sect == 4 && b.tid == 5 && b.b 0 2)
  | 0x14, 5, 1 =>
    let d := ((instOf e).outs.filter (fun o => o.kind != 0)).map (fun o => (o.kind, o.target))
    let prev := (before.filter (fun b => b.sect == 5 && b.tid == 1)).flatMap (fun b =>
      ((instOf b).outs.filter (fun o => o.kind != 0)).map (fun o => (o.kind, o.target)))
    d.any prev.contains || !noDup d
  | 0x15, 9, 1 => e.b 0 3 && e.f 1 23 0 > 125000
  | 0x16, 10, 1 => e.f 0 24 20 == 29 || e.f 0 24 20 == 30
  | 0x17, 11, 1 => (rangeFrom (e.f 0 19 0) (e.f 0 39 20)).any (fun a => !env.lockable a)
  | 0x18, 8, 2 =>
    let d := env.faultDefault (e.f 0 7 0)
    let c := e.f 0 9 8
    let plant := e.f 0 7 0 ≥ 0x50
    d.1 == 3 || c == 3 || (c < d.1 && !plant) || (e.f 0 14 10 &&& (0x1F - d.2)) != 0
  | _, _, _ => false

/-- The first entry at fault under one of the codes, in table order of the checks. -/
def find14 (env : PlateEnv) (p : Plate) (ents : List Ent) : List Nat → Option Fail
  | [] => none
  | c :: cs =>
    match (rangeFrom 0 ents.length).find? (fun k =>
      chk14 env p c (ents.take k) (ents.getD k ⟨0, 0, 0, []⟩)) with
    | some k => some ((ents.getD k ⟨0, 0, 0, []⟩).off, c)
    | none => find14 env p ents cs

/-- PID0 and PID1 of a persistent-item list (R508): CRC-32 over the entries sorted by INDEX, and their number. -/
def pidOf (items : List Ent) : Nat × Nat :=
  let es := sortBy (fun a b => a.f 0 16 0 ≤ b.f 0 16 0) items
  if es.isEmpty then (0, 0) else (crc32 (wordsBytes (es.map (·.w 0))), es.length)

/-- The tag of the trailer (R507). -/
def trailerTag (ws : List Word) (len : Nat) : List Byte := (wordsBytes ((ws.drop (len - 7)).take 7)).take 32

/-- LENGTH of the header. -/
def plateLen (ws : List Word) : Nat := fld (ws.getD 1 0#40) 19 0

/-- Validation of a plate read as words (R513); none when it passes. The word that fails check 9 is word 6, that of check 11 the first
word of the section, and that of check 14h word 4 (DESIGN CHOICE, assumption 51: R514 does not say which word of several
fails). -/
def validatePlate (env : PlateEnv) (ws : List Word) : Option Refuse :=
  let w := fun k => ws.getD k 0#40
  let len := plateLen ws
  let kn := fld (w 1) 24 20
  if !flashOk env.flash then some ⟨0x01, 0xFF, 0⟩
  else if fld (w 0) 31 0 != 0x4C505747 then some ⟨0x02, 0xFF, 0⟩
  else if fld (w 0) 39 32 != 0x01 then some ⟨0x03, 0xFF, 0⟩
  else if fld (w 1) 39 32 != 0x40 then some ⟨0x04, 0xFF, 1⟩
  else if !(decide (71 ≤ len ∧ len ≤ 838860) && decide (1 ≤ kn ∧ kn ≤ 16)) then some ⟨0x05, 0xFF, 1⟩
  else
    match env.key with
    | none => some ⟨0x06, 0xFF, 0⟩
    | some key =>
      if fld (w 3) 1 0 != env.keyGen then some ⟨0x06, 0xFF, 0⟩
      else if trailerTag ws len != hmac key (wordsBytes (ws.take (len - 7))) then some ⟨0x07, 0xFF, 0⟩
      else if !((rangeFrom 10 kn).any (fun k => fld (w k) 31 0 == env.keeper)) then some ⟨0x08, 0xFF, 0⟩
      else if !((ws.drop 6).take 4 == List.replicate 4 0#40 || env.site == some ((ws.drop 6).take 4)) then
        some ⟨0x09, 0xFF, 6⟩
      else
        match dirFail ws len with
        | some k => some ⟨0x0A, 0xFF, k⟩
        | none =>
          match (rangeFrom 0 13).find? (fun i =>
            dirLen ws i != 0 && crc32 (wordsBytes (sectWords ws i)) != dirCrc ws i) with
          | some i => some ⟨0x0B, i, dirOff ws i⟩
          | none =>
            match check12 ws with
            | some (o, c) => some ⟨c, sectAt ws o, o⟩
            | none =>
              let ents := (plateWalks ws).flatMap (·.ents)
              let p := decodePlate ws
              match find14 env p ents [0x12, 0x13, 0x14, 0x15, 0x16, 0x17, 0x18] with
              | some (o, c) => some ⟨c, sectAt ws o, o⟩
              | none =>
                let pid := pidOf (ents.filter (fun e => e.sect == 3 && e.tid == 5))
                if (w 4).toNat != pid.1 || (w 5).toNat != pid.2 then some ⟨0x19, 0xFF, 4⟩ else none

end Sys2Proof.Machine
end

