-- ==== Sys2Proof/Machine/UnitsCore.lean ====
section
/-! DEFINITION. State of the core units: reset and straps (02, 03), supplies and stores (03), the non-volatile array
(08), the fault collector (09), the recorder (10), the start and its sections (11), proof and spares (12), the
plate port (13), admission (14), tiles, keeper, value table (07). Every structure is plain data with its reset
values as field defaults; times are in microseconds of State's clock. -/

namespace Sys2Proof.Machine

open Sys2Proof

/-! Reset and straps. -/

/-- What holds the internal chip reset and what a release remembers (Table 3-2, R86, R123). Holder codes are
those of CAUSE: 0 RESET_N, 1 VCORE supervisor, 2 VCORE power-on reset, 3 VIO supervisor, 4 VANA power-on reset,
5 window watchdog, 6 collector. -/
structure Rst where
  /-- The internal chip reset is held. -/
  held : Bool := false
  /-- Its holders, each once. -/
  holders : List Nat := []
  /-- The VCORE power-on reset held during this reset (R123 POR). -/
  por : Bool := true
  /-- CAUSE of PWR_FLAGS. -/
  cause : Nat := 0
  /-- Instant of the last release, t0 of the start (Table 11-1). -/
  t0 : Nat := 0
  /-- RESET_N or VANA power-on reset took part, so TRIP_SEL is latched at release (R56). -/
  latchTrip : Bool := false
  /-- The role of a session that a chip reset has ended and the number of its overrides; the next start records both (R39,
  R960). -/
  sessCut : Option (Nat × Nat) := none
  /-- A JTAG EXTEST instruction holds the balls (R441). -/
  extest : Bool := false
  deriving DecidableEq, Repr

/-- Strap balls in the order of Table 2-13 bits: TRIP_SEL0-3, HU_CLASS0-2, FAN_SAFE, PLT_MODE0-1, TESTMODE. -/
structure Straps where
  latched : List Bool := List.replicate 11 false
  isOpen : List Bool := List.replicate 11 false
  /-- Present levels of the balls; none for an open ball. -/
  present : List (Option Bool) := List.replicate 11 (some false)
  changed : Bool := false
  /-- Consecutive differences, and recorded once per start, per ball (R74). -/
  diffs : List Nat := List.replicate 11 0
  recorded : List Bool := List.replicate 11 false
  /-- The trip unit's latched TRIP_SEL n (R56, R59). -/
  tripN : Nat := 0
  deriving DecidableEq, Repr

/-! Stores. -/

/-- Who owns a store. Table 3-7 lists some of them; the others are dropped by a power-fail warning (R109). -/
inductive Owner where
  | powerCycle
  | opSeconds
  | authCount (word : Nat)
  | persistent (index kind : Nat)
  | calHistory
  | wear
  | layoutId
  | slotCount (slot : Nat)
  | preferred
  | journal (slot : Nat)
  | scrubProgress
  | scrubRead
  | recRead
  | scrubRewrite
  | retireCopy
  | retireRead
  | retireMap
  | repairMap
  | lateMap
  | keyCell
  | siteId
  | image
  | chunk
  | mirror
  | eraseImage (slot : Nat)
  | eraseRing
  deriving DecidableEq, Repr

/-- Store kinds of Table 3-3 and units of Table 3-4, and a read packet, which takes a turn of its bank too. -/
inductive StoreKind where
  | word
  | chunk
  | erase
  | unit
  | read
  deriving DecidableEq, Repr

/-- A store: its words (location as R411 packs it, value), or the bank and row of an erase pulse, or the bank of a read
packet. -/
structure Store where
  kind : StoreKind
  owner : Owner
  words : List (Nat × Word) := []
  bank : Nat := 0
  row : Nat := 0
  /-- The second store of its first word is due (R304); the rest of a unit or chunk follows it. -/
  second : Bool := false
  /-- Its energy has been checked and its first turn has started: a unit or chunk as a whole before its first word (R94, R95). -/
  started : Bool := false
  /-- A store of step 4 of the flush (R320). -/
  flush : Bool := false
  /-- Instant at which the store entered the queue, none before; total time in warnings at that instant (R104). -/
  since : Option Nat := none
  warn : Nat := 0
  /-- Its number in the order in which stores have arrived at the queue (R102). -/
  arrived : Nat := 0
  deriving DecidableEq, Repr

/-- Supplies, hold-up energy, store queue, power-fail warning (chapter 03) and the junction and speed readings
(chapter 04). -/
structure Pwr where
  vcoreMv : Nat := 0
  vioMv : Nat := 0
  vanaMv : Nat := 0
  vbkupMv : Nat := 0
  vanaLow : Bool := false
  vbkupLow : Bool := false
  /-- Consecutive VCORE readings below 0.90 V (R88). -/
  vcoreLowN : Nat := 0
  /-- What the ball HOLDUP_SNS converts to at present, 0 to 4 095 (assumption 3), and the converter code of the last
  reading (R90). -/
  snsPin : Nat := 0
  snsCode : Nat := 0
  energyUj : Nat := 0
  /-- Instants since which HOLDUP_SNS has read full scale or near zero, or in range (R119). -/
  snsBadSince : Option Nat := none
  snsGoodSince : Option Nat := none
  gate : Bool := false
  gateReads : Nat := 0
  gateFrom : Nat := 0
  gateWaited : Bool := false
  pfwSeen : Bool := false
  refused : Bool := false
  /-- PFW_N ball level as filtered; source bits of Table 3-6. -/
  pfwPin : Bool := false
  pfwMns : Bool := false
  pfw : Bool := false
  pfwSince : Nat := 0
  /-- Sources seen active during the present warning (PFW_END parameter A). -/
  pfwSources : Nat := 0
  pfwPct : Nat := 60
  /-- Step of Table 3-7 in progress: 0 to 8 for 0, 1, 2, 3, 4a to 4e; none when no flush runs. -/
  flush : Option Nat := none
  queue : List Store := []
  /-- Stores that found the queue full and wait with their owners (R102). -/
  waiting : List Store := []
  /-- Stores that have arrived at the queue so far (R102). -/
  arrivals : Nat := 0
  /-- Time spent in the warnings that have ended (R104). -/
  pfwUs : Nat := 0
  lastRetry : Nat := 0
  /-- Last ENERGY_REFUSED record per kind: word, chunk, erase, unit (R413). -/
  refusedAt : List (Option Nat) := [none, none, none, none]
  powerCycles : Nat := 0
  /-- The incremented count of step 4 has been stored. -/
  pccStored : Bool := false
  /-- Junction codes of the four sensors, their peak, hot and cool counts (R165). -/
  tj : List Nat := [0, 0, 0, 0]
  tjPeak : List Nat := [0, 0, 0, 0]
  tjHot : List Nat := [0, 0, 0, 0]
  /-- The 16 speed monitors: present, minimum and maximum ps, REF_RC, slow readings (R166, R183). -/
  monNow : List Nat := List.replicate 16 0
  monMin : List Nat := List.replicate 16 8191
  monMax : List Nat := List.replicate 16 0
  monRc : Bool := false
  /-- The last reading of the monitors (R183). -/
  monAt : Option Nat := none
  monSlow : List Nat := List.replicate 16 0
  /-- Since when VCORE and every monitor have been in range (Table 9-6, SPEED_MARGIN). -/
  speedOkSince : Option Nat := none
  /-- Open-drain balls released by OUT_SHORT: ball key, instant of release (R163). -/
  shorts : List (Nat × Nat) := []
  /-- Instant at which a ball was last at its current limit. -/
  shortAt : Nat := 0
  deriving DecidableEq, Repr

/-! The non-volatile array. -/

/-- What a word of the array reads as (Table 8-1); ERASING follows from the row's erase sequence. -/
inductive NvCell where
  | erased
  | clean (w : Word)
  | corrected (w : Word)
  | uncorr (w : Word)
  deriving DecidableEq, Repr

/-- An erase sequence (R305). -/
structure EraseSeq where
  row : Nat
  owner : Owner
  pulses : Nat := 0
  paused : Bool := false
  deriving DecidableEq, Repr

/-- One bank: its erase sequence, waiting erases (R307), the turn in progress, the stores and read packets that wait for a
turn of its arbiter, in order, counters. -/
structure Bank where
  erase : Option EraseSeq := none
  eraseWait : List (Nat × Owner) := []
  hand : Option Store := none
  turns : List Store := []
  corr : Nat := 0
  uncorr : Nat := 0
  factory : Nat := 0
  /-- Spare rows used, by number. -/
  spares : List Nat := []
  /-- Next word the scrubber reads, 0 to 524 287 (R325). -/
  scrubAt : Nat := 0
  sparesLow : Bool := false
  deriving DecidableEq, Repr

/-- A row retirement (Table 8-5): step, journal slot and sequence number, spare row, words dealt with by the copy of step 2, words of the row
programmed after their copy, and in step 3 the read turns still to be asked for. -/
structure Retire where
  bank : Nat
  row : Nat
  spare : Nat
  step : Nat := 1
  slot : Nat := 0
  seq : Nat := 0
  copied : Nat := 0
  log : List Nat := []
  reads : Nat := 32
  deriving DecidableEq, Repr

/-- The array (chapter 08). Cells are keyed by location: bank in bits 20:19, row in 18:9, word in 8:0. -/
structure Nvm where
  cells : Tab NvCell := []
  /-- Rows redirected to a spare: location of the row's word 0, spare row. -/
  redirect : Tab Nat := []
  /-- What a spare row under retirement holds, by bank × 16 384 + spare × 512 + word (Table 8-5 step 2); once the row is
  redirected its words are those of `cells`. -/
  spareCells : Tab NvCell := []
  /-- What the words of a redirected row hold themselves, by location (R345). -/
  oldCells : Tab NvCell := []
  /-- Counted cycles of a row at its redirection, from which the spare row's count starts at 0 (R322). -/
  wearBase : Tab Nat := []
  /-- Correction rewrites of write-once words at this start, by word (Table 8-4). -/
  rewrites : Tab Nat := []
  /-- Stores in the operating-seconds set (Table 8-4; assumption 15). -/
  opStores : Nat := 0
  /-- A store of the service request in hand was refused for energy (R103). -/
  svcRefused : Bool := false
  bank0 : Bank := {}
  bank1 : Bank := {}
  bank2 : Bank := {}
  bank3 : Bank := {}
  retired : Bool := false
  uncorrFlag : Bool := false
  late : Bool := false
  pdataReset : Bool := false
  retire : Option Retire := none
  /-- Rows waiting for retirement: bank, row. -/
  retireWait : List (Nat × Nat) := []
  /-- Retirements whose journal word stands in the array without DONE (R331, R472). -/
  journaled : List Retire := []
  /-- Scrub pass number, operating seconds at its start, last progress point stored, duration of the last pass in minutes,
  instant of the last packet. -/
  scrubPass : Nat := 0
  /-- 64ths of the pass whose end every bank has passed (R327). -/
  scrubMark : Nat := 0
  /-- Words that the schedule of the pass has reached in every bank (R325). -/
  scrubGoal : Nat := 0
  scrubFrom : Nat := 0
  scrubPoint : Nat := 0
  scrubLastMin : Nat := 0
  lastScrub : Nat := 0
  /-- Words read CORRECTED in this pass and in the last one (R329). -/
  corrNow : List Nat := []
  corrLast : List Nat := []
  /-- Rows whose erase a chip reset interrupted (R338). -/
  torn : List Nat := []
  /-- Rows that have raised NVM_WEAR at this start; pending wear counts (row location, count); rows counted in
  the present flush; the first pass of this start has been made (R320, R322). -/
  wearRaised : List Nat := []
  wearPend : Tab Nat := []
  flushRows : List Nat := []
  passed : Bool := false
  /-- The entry of the calibration-history sequence last programmed, which the keeper finds at its start (R321; how it finds
  it once every word is written the spec does not say: DEDUCED, assumption 15); the next one; entries waiting to be
  stored. -/
  calLast : Option Nat := none
  calNext : Nat := 0
  calWait : List Word := []
  /-- Next journal word and its sequence number (R331). -/
  journalNext : Nat := 0
  journalSeq : Nat := 0
  /-- Persistent item values held for the next pass: index, word. -/
  items : Tab (Option Word) := []
  /-- The plate's layout identity waits to be stored (R324). -/
  pidWait : Bool := false
  lastPass : Nat := 0
  deriving DecidableEq, Repr

/-! The fault collector. -/

/-- The state of one source (Table 9-10); class, reactions and allowed set not set by a plate are Table 9-6's. -/
structure Src where
  uncleared : Bool := false
  acked : Bool := false
  cause : Bool := false
  escalated : Bool := false
  eff : FClass := .advisory
  repeats : Nat := 0
  param : Word := 0#40
  /-- Unit code of the latest raise or repeat (R386). -/
  unit : Nat := 0
  /-- Order of the latest raise among all raises (R1009). -/
  seq : Nat := 0
  /-- The cause as the source's own unit reports it (R349). -/
  own : Bool := false
  /-- Held asserted by a line break (R349, R379), since this instant. -/
  broken : Bool := false
  brokenAt : Nat := 0
  /-- INT or NMI was started at the raise, so the plate's channel reactions hold until the source clears
  (R353, R1009). -/
  plant : Bool := false
  /-- The plant response of INT or NMI waits for the keeper (R380). -/
  waits : Bool := false
  deriving DecidableEq, Repr

/-- An entry of the history queue (Table 9-11). -/
structure HistEnt where
  src : Nat
  cls : FClass
  escalated : Bool
  opSec : Nat
  param : Word
  deriving DecidableEq, Repr

/-- The fault collector (chapter 09). -/
structure Flt where
  src : Tab Src := []
  /-- FAULTS section loaded at admission (R381): class, reactions of a source; FAULT_N class. -/
  cfg : Tab (Option (FClass × Nat)) := []
  faultNClass : FClass := .degraded
  fatal : Bool := false
  fatalSrc : Nat := 0
  fatalParam : Word := 0#40
  /-- Unit of the raise that set the latch (R386). -/
  fatalUnit : Nat := 0
  fatalRecorded : Bool := false
  /-- Instant of the fatal latch, while step 3 of Table 9-4 runs. -/
  fatalAt : Option Nat := none
  /-- Pending CHIP_RESET reaction since (R354), of this source; its fault mirror has been stored. -/
  resetAt : Option Nat := none
  resetFor : Nat := 0
  resetOk : Bool := false
  raises : Nat := 0
  /-- Raises since the chip reset, which tell the most recent one (R1009). -/
  order : Nat := 0
  /-- History slots 0 to 15. -/
  hist : Tab (Option HistEnt) := []
  beacon : Bool := false
  /-- Instant of the last BEACON change by the keeper. -/
  beaconAt : Nat := 0
  wdogOn : Bool := false
  wdogKick : Nat := 0
  wdogTrimmed : Bool := false
  earlyMs : Nat := 10
  lateMs : Nat := 400
  expiries : Nat := 0
  /-- Second tick of the first expiry of the window (R365). -/
  expiryTick : Nat := 0
  /-- An expiry of the watchdog holds the outputs in their hung-keeper behaviour since this instant (R365). -/
  hungAt : Option Nat := none
  /-- The keeper records WDOG_EXPIRY at its next start. -/
  expiryDue : Bool := false
  injEnable : Bool := false
  injFalse : Bool := false
  injTrue : Bool := false
  injSrc : Nat := 0
  /-- While an injection replaces the rails of a source (R368): the parameter and unit of the cause that its own unit
  reports, none while that cause is absent. -/
  injUnder : Option (Word × Nat) := none
  /-- Active instances of ALARM blocks: (n, INST) (R796). -/
  alarms : List (Nat × Nat) := []
  deriving DecidableEq, Repr

/-! The recorder. -/

/-- An event record (Table 10-1). -/
structure Record where
  code : Nat
  unit : Nat
  repeats : Nat := 0
  opSec : Nat
  pcc : Nat
  minutes : Nat := 0
  a : Word := 0#40
  b : Word := 0#40
  /-- Instant of creation, for the 3 600 s trigger of Table 10-4. -/
  at_ : Nat := 0
  deriving DecidableEq, Repr

/-- A chunk in progress: its records not yet stored, with the locator and the location of W0 that each takes, and the
location and word of the header of a sector it opens. Its words take their turns in bank 2. -/
structure Chunk where
  recs : List (Nat × Nat × Record)
  header : Option (Nat × Word) := none
  deriving DecidableEq, Repr

/-- A clear that waits for its chunk to start: the port that asked (R409), and the SEQ or REQ_ID of its request. -/
structure ClearReq where
  port : Word
  id : Nat
  deriving DecidableEq, Repr

/-- The recorder (chapter 10). -/
structure Recr where
  buf : List Record := []
  located : Bool := false
  etchedNext : Nat := 0
  /-- Present sector: sequence number (0 none), row minus 32, next slot. -/
  seq : Nat := 0
  row : Nat := 0
  slot : Nat := 0
  oldest : Nat := 0
  aheadOk : Bool := false
  aheadRow : Nat := 0
  aheadChecked : Bool := false
  flushing : Bool := false
  chunk : Option Chunk := none
  dropped : Nat := 0
  dropSince : Nat := 0
  dropOpSec : Nat := 0
  lastReqFlush : Option Nat := none
  lastClear : Option Nat := none
  /-- Clears that wait for their chunk to start (R407, R415). -/
  clears : List ClearReq := []
  /-- Locations of W0 words that have been programmed and have not passed their verify (R393, R416). -/
  unsure : List Nat := []
  /-- Rows skipped because no spare was left (R421). -/
  skipped : List Nat := []
  deriving DecidableEq, Repr

/-! Start, images, sections. -/

/-- State of a start (Table 11-11 STATE). -/
inductive SysState where
  | starting
  | bootService
  | moored
  | armed
  | fatalService
  deriving DecidableEq, Repr

/-- The result of verifying one image (Table 11-9). -/
structure ImgRes where
  present : Bool := false
  valid : Bool := false
  stepOk : Bool := false
  partnerOk : Bool := false
  version : Nat := 0
  list : List Word := []
  deriving DecidableEq, Repr

/-- One plant section (Tables 11-5, 11-12). -/
structure Sect where
  /-- Section state code of Table 11-5. -/
  st : Nat := 0
  run : Bool := false
  stoppedBy : Nat := 0xFF
  lastStop : Nat := 0
  lastStart : Nat := 3
  /-- Phase value last derived (R445). -/
  phase : Nat := 0
  /-- Stopped by a fault reaction, so phase 0 enters HELD (R448). -/
  faultStop : Bool := false
  /-- Instant of the last stop: a phase value written after it answers the stop. -/
  stopAt : Option Nat := none
  /-- Level of the CONDITION value (R449) and the ARMED rule fired. -/
  cond : Bool := false
  fired : Bool := false
  deriving DecidableEq, Repr

/-- The start (chapter 11). -/
structure Start where
  state : SysState := .starting
  step : Nat := 1
  moorWhy : Nat := 0
  /-- Plate admitted: 0 A, 1 B, 3 none. -/
  plate : Nat := 3
  armedMs : Nat := 0
  armedAt : Nat := 0
  imgs : List ImgRes := [{}, {}, {}, {}]
  whyA : Nat := 0
  whyB : Nat := 0
  service : Bool := false
  fallback : Bool := false
  preferred : Bool := false
  running : Bool := false
  sects : Tab Sect := []
  /-- Steps 10 and 11 have ended; end of step 9. -/
  step10 : Bool := false
  step11 : Bool := false
  step9At : Nat := 0
  /-- The hold-up class is open, so the gate ends in boot-ROM service (Table 2-10). -/
  huOpen : Bool := false
  /-- Running keeper and engine versions. -/
  keeperVer : Nat := 0
  engineVer : Nat := 0
  lastKeeperWrite : Nat := 0
  deriving DecidableEq, Repr

/-! Proof and spares. -/

/-- A physical tile (Table 12-13): state code of PRF_TILEp, logical tile (127 none), spare SRAM words used,
corrections, background self-test segments run (240 make a cycle). -/
structure Tile where
  st : Nat := 0
  logical : Nat := 127
  sramSpare : Nat := 0
  corr : Nat := 0
  bg : Nat := 0
  /-- Corrections with their instants, for the 64-in-one-hour rule. -/
  corrAt : List Nat := []
  /-- The CRC-32 of the cycle table loaded into the tile (R538). -/
  crc : Nat := 0
  deriving DecidableEq, Repr

/-! The plate port. -/

/-- An operation of the SPI flash: its start, its first byte, the bytes of a page program, or none for a 4 KiB erase, and the
command that PLT_MODE selects for it (R519). -/
structure FlashOp where
  since : Nat
  addr : Nat
  data : Option (List Byte) := none
  cmd : Nat := 0
  deriving DecidableEq, Repr

/-- A plate write in progress (Tables 13-6, 13-8). -/
structure PltWrite where
  state : Nat := 0
  slot : Nat := 0
  fail : Nat := 0
  code : Nat := 0
  bytes : Nat := 0
  /-- LENGTH in words; sectors left to erase; bytes kept for the header. -/
  length : Nat := 0
  sector : Nat := 0
  sectors : Nat := 0
  head : List Byte := []
  /-- Pages of the frame in hand that are still to be programmed: offset, bytes. -/
  pages : List (Nat × List Byte) := []
  /-- The flash operation in progress; it goes on when the write is abandoned. -/
  op : Option FlashOp := none
  /-- SEQ and CMD of the frame in hand, whose reply waits for the flash. -/
  frame : Option (Nat × Nat) := none
  deriving DecidableEq, Repr

/-- The plate port and the admitted plate (chapter 13). -/
structure Plt where
  flash : Tab Byte := []
  facts : FlashFacts := {}
  resultA : Word := 0xFF#40
  resultB : Word := 0xFF#40
  /-- The plate that passed step 7, and which slot it came from; tried so far. -/
  cand : Option Plate := none
  candSlot : Nat := 0
  /-- The admitted plate. -/
  plate : Plate := {}
  admitted : Bool := false
  write : PltWrite := {}
  /-- Plate-locked ranges: first, count (R516). -/
  locks : List (Nat × Nat) := []
  deriving DecidableEq, Repr

/-! Value table. -/

/-- A logical value: its word, quality, producing unit, instant of the last producer write, and whether a
session forces it (R277 to R282). -/
structure Val where
  v : Word := 0#40
  q : Quality := .stale
  unit : Nat := 0
  at_ : Option Nat := none
  forced : Bool := false
  deriving DecidableEq, Repr

/-- A block instance: its state, its last outputs, the minor frame of its last run. -/
structure InstSt where
  st : BSt := .fresh
  outs : List Int := []
  frame : Option Nat := none
  deriving DecidableEq, Repr

/-- A logical tile: the frame in hand (counted from the first minor frame 0; none: nothing in hand), its entries run so
far, their results held until publication in entry order, a frame that waits behind it (R287), and whether its tasks have
stopped by TILE_LOST (R496). -/
structure LTile where
  frame : Option Nat := none
  ran : Nat := 0
  held : List (Nat × BRes) := []
  owed : Option Nat := none
  lost : Bool := false
  /-- The first frame of a spare that has published none yet, and a frame withheld because a spare failed (R491). -/
  first : Option Nat := none
  barred : Option Nat := none
  deriving DecidableEq, Repr

/-- Tiles, frames, keeper, saturations (chapter 07) and the block instances. -/
structure Eng where
  vals : Tab Val := []
  /-- Block instances as the last publication left them, which their state shadows hold as well (R483, R485). -/
  insts : Tab InstSt := []
  ltiles : Tab LTile := []
  skips : Nat := 0
  chain : Bool := false
  /-- Frames since the first minor frame 0 of this start. -/
  frames : Nat := 0
  framesOn : Bool := false
  lastTick : Nat := 0
  overrunFrames : Nat := 0
  misc : List Nat := [0, 0, 0]
  miscAt : List (List Nat) := [[], [], []]
  kRetired : List Bool := [false, false, false]
  voting : List Bool := [true, true, true]
  /-- The frame after which a keeper tile out of the vote waits for a major-frame boundary: that in which it left, or the last
  migration ended (R262, R289). -/
  leftIn : List (Option Nat) := [none, none, none]
  satLast : Nat := 0
  satCount : Nat := 0
  sat : Bool := false
  satOnce : List Nat := []
  /-- Records waiting for SUB blocks: instance, value. -/
  subs : Tab (Option BIn) := []
  /-- SFRZ instances that assert. -/
  sfrz : List Nat := []
  /-- Channel demands last delivered by block outputs (Table 20-1): KIND × 256 + channel. -/
  dem : Tab (Option BIn) := []
  deriving DecidableEq, Repr

end Sys2Proof.Machine
end

