-- ==== Sys2Proof/Machine/UnitsComm.lean ====
section
/-! DEFINITION. State of the calendar (22), the CAN controllers (23), Syntagel (24) and the service port (25). -/

namespace Sys2Proof.Machine

open Sys2Proof

/-- The calendar (chapter 22) and the operating seconds of the TIME island. UTC is kept in seconds since 2000-01-01
00:00:00, the offset in steps of 15 min; `secAt` is the instant of the last second, from which the sub-second counter
runs; `evalDue` is the local second of a minute that waits for its schedule evaluation. -/
structure Cal where
  opSec : Nat := 0
  ticks : Nat := 0
  utc : Nat := 0
  offset : Int := 0
  secAt : Nat := 0
  valid : Bool := false
  atEnd : Bool := false
  why : Nat := 1
  xtRun : Bool := true
  sets : Nat := 0
  /-- The last committed pair (R847) and the latch of CAL_NOW1 (R849). -/
  set0 : Word := 0#40
  set1 : Word := 0#40
  now1 : Word := 0#40
  evalDue : Option Nat := none
  deriving DecidableEq, Repr

/-! The CAN controllers (chapter 23). -/

/-- A frame: identifier, 29-bit, FD, bit-rate switching, payload as it travels. -/
structure CanFrame where
  id : Nat
  ide : Bool := true
  fdf : Bool := false
  brs : Bool := false
  data : List Byte := []
  deriving DecidableEq, Repr

/-- A transmit mailbox that holds a frame; `abort` lets the attempt in progress be its last (R875). Whether it is
chosen or transmitting follows from the arbiter of the controller. -/
structure Mbox where
  frame : CanFrame
  abort : Bool := false
  deriving DecidableEq, Repr

/-- A frame on its way to the transmit load queue or in it, the half of the mailboxes it goes to (R871), and for a frame to the host its
rank under R927: 0 replies and VALUE_GROUP, 1 SWITCHES, 2 EVENT_NOTICE. `stat` lists the value records of the payload,
offset and value index, whose status is taken when the frame is loaded (R907). -/
structure LoadEnt where
  frame : CanFrame
  telem : Bool := false
  host : Option Nat := none
  stat : List (Nat × Nat) := []
  deriving DecidableEq, Repr

/-- An entry of the receive queue (R879). -/
structure RxEnt where
  frame : CanFrame
  esi : Bool
  filt : Nat
  at_ : Nat
  deriving DecidableEq, Repr

/-- An acceptance filter (R877). -/
structure CanFilt where
  ide : Bool
  id : Nat
  mask : Nat
  deriving DecidableEq, Repr

/-- A controller. `st` is STATE of Table 23-4. -/
structure CanSt where
  st : Nat := 0
  cfg : Option CanCfg := none
  tec : Nat := 0
  recN : Nat := 0
  lastErr : Nat := 0
  errData : Bool := false
  tdc : Nat := 0
  filts : Tab (Option CanFilt) := []
  mbs : Tab (Option Mbox) := []
  load : List LoadEnt := []
  /-- Frames that the keeper has still to put in the load queue. -/
  hold : List LoadEnt := []
  rx : List RxEnt := []
  txCnt : Nat := 0
  rxCnt : Nat := 0
  noMatch : Nat := 0
  remote : Nat := 0
  pex : Nat := 0
  busOffs : Nat := 0
  /-- Operating seconds of the recovery attempts, newest first. -/
  attempts : List Nat := []
  /-- Instant at which the automatic request is due. -/
  pendAt : Option Nat := none
  out : Bool := false
  /-- Consecutive good frames while CAN0 listens moored (R887). -/
  goodRx : Nat := 0
  /-- A protocol exception keeps the controller out until 11 recessive bits (R890). -/
  pexWait : Bool := false
  /-- Bus time in the present 1 s window, in quarter ns, and the loads of the last window in ‰. -/
  busQ : Nat := 0
  telQ : Nat := 0
  loadPm : Nat := 0
  telPm : Nat := 0
  /-- Consecutive windows above 800 ‰, and since when the load has been within budget. -/
  overN : Nat := 0
  underSince : Option Nat := none
  /-- Telemetry loaded into mailboxes: instant, frame time in quarter ns (R928). -/
  telem : List (Nat × Nat) := []
  /-- Instants at which frames to the host were loaded (R927). -/
  hostAt : List Nat := []
  /-- SHORT and DISCARD of Table 24-11. -/
  short : Bool := false
  discard : Bool := false
  deriving DecidableEq, Repr

/-- The four controllers. -/
structure Can where
  ctl : Tab CanSt := []
  deriving DecidableEq, Repr

/-- A node (Table 24-12): STATE 0 no entry and silent, 1 awaiting identity, 2 present, 3 lost, 4 foreign; TYPE last
reported, WHY bits 28 to 25, instants of its last heartbeat and of the last identity request to it, and whether a
returning heartbeat calls for an identity request (R914). -/
structure NodeSt where
  st : Nat := 0
  type : Nat := 0
  why : Nat := 0
  hb : Option Nat := none
  ask : Option Nat := none
  back : Bool := false
  deriving DecidableEq, Repr

/-- The latest CHANNEL_CMD of a remote channel (Table 24-5): LEVEL, FLAGS, SEQ, instant of sending. -/
structure CmdSt where
  level : Int
  flags : Nat
  seq : Nat
  at_ : Nat
  deriving DecidableEq, Repr

/-- A recorder transfer in progress (R931): requester, transfer ID, direction, locator at which the next frame goes on
(none: no locator is left), records left, frame number, start. -/
structure Xfer where
  req : Nat
  id : Nat
  down : Bool
  next : Option Nat
  left : Nat
  frame : Nat
  since : Nat
  deriving DecidableEq, Repr

/-- The Syntagel master (chapter 24). Nodes are keyed by bus × 128 + address, remote channels by KIND × 256 + channel. -/
structure Syn where
  nodes : Tab NodeSt := []
  /-- Stored 0x1xxx and 0x2xxx records that wait for their EVENT_NOTICE: locator, instant of storage (R926). -/
  notices : List (Nat × Nat) := []
  /-- Instants of the notices of the last second. -/
  noticeAt : List Nat := []
  /-- Heartbeats: next sequence number, instant of the last one. -/
  hbSeq : Nat := 0
  hbAt : Option Nat := none
  /-- The identity request to every node has been sent (R914). -/
  identAll : Bool := false
  /-- Plant flags last sent. -/
  plant : Nat := 0
  cmds : Tab (Option CmdSt) := []
  /-- SWITCHES: content and instant of the last frame. -/
  swSent : List Byte := []
  swAt : Option Nat := none
  /-- Host commands of the last second (R921). -/
  cmdAt : List Nat := []
  xfer : Option Xfer := none
  /-- Controllers on which FOREIGN_HOST has been recorded at this start (R25). -/
  foreignHost : List Nat := []
  deriving DecidableEq, Repr

/-- A session override or heat limit (R976): kind 0 fan, 1 motor, 2 gate, 3 heat; channel; value. For a motor the
value is 0 STOP, 1 RUN, 2 STOP_NOW. -/
structure Override where
  kind : Nat
  ch : Nat
  value : Int
  deriving DecidableEq, Repr

/-- An image write (Table 25-8, SVC_IMG): STATE 0 idle, 1 erasing, 2 receiving, 3 checking, 4 done, 5 failed; slot, engine
region, next word offset, region row being erased, header words kept; abandoned by a power-fail warning (R987). -/
structure ImgWrite where
  st : Nat := 0
  slot : Nat := 0
  engine : Bool := false
  next : Nat := 0
  row : Nat := 0
  head : List Word := []
  cut : Bool := false
  deriving DecidableEq, Repr

/-- An open session: role (0 operator, 1 engineer, 2 factory), generation, instant of the last request that passed its CRC
(R960). -/
structure Sess where
  role : Nat
  gen : Nat
  seen : Nat
  deriving DecidableEq, Repr

/-- A staged group (R973): address of its first word, words staged so far. -/
structure Stage where
  first : Nat
  words : List Word
  deriving DecidableEq, Repr

/-- A reply frame (Table 25-1): SEQ, CMD of the request, payload, status byte first. -/
structure Reply where
  seq : Nat := 0
  cmd : Nat := 0
  bytes : List Byte := []
  deriving DecidableEq, Repr

/-- A request whose reply waits for its stores (R103) or read packets: the reply to give once they have ended, the words they make, 1 for a
frame of an image write and 2 for its FINAL one, and the events to record then (code, unit, parameters A and B). -/
structure SvcWait where
  seq : Nat
  cmd : Nat
  bytes : List Byte := []
  words : List (Nat × Word) := []
  image : Nat := 0
  events : List (Nat × Nat × Word × Word) := []
  /-- The image write as it stood before its frame, which a refusal leaves so (R20). -/
  img : ImgWrite := {}
  /-- A REC_READ that waits for bank 2: start, direction, count. -/
  read : Option (Nat × Bool × Nat) := none
  deriving DecidableEq, Repr

/-- The service port (chapter 25). -/
structure Svc where
  ovr : List Override := []
  /-- Values that the session forces (R977). -/
  forces : List Nat := []
  /-- SYS_LOCKVIOL (Table 25-10). -/
  lockViol : Bool := false
  onceViol : Bool := false
  lockAddr : Nat := 0
  /-- Failed-authentication words as the keeper holds them, by control-row word 0 to 7. -/
  authWords : Tab (Option Word) := []
  sess : Option Sess := none
  /-- The nonce of the last HELLO, until it is spent (R956). -/
  nonce : Option (List Byte) := none
  stage : Option Stage := none
  img : ImgWrite := {}
  /-- Bit rate; instant of a change that no frame has confirmed yet (R961). -/
  baud : Nat := 115200
  baudAt : Option Nat := none
  /-- SVC_COUNT: frames answered, CRC failures, FRAME replies. -/
  answered : Nat := 0
  crcFails : Nat := 0
  frameReplies : Nat := 0
  /-- The last reply sent; the reply to the previous request of the session, with the instant of its end (R951). -/
  reply : Reply := {}
  prev : Option (Reply × Nat) := none
  wait : Option SvcWait := none
  /-- Bytes are discarded until the next gap (R949). -/
  deaf : Bool := false
  /-- A RESTART has been answered, at this instant (R980). -/
  restartAt : Option Nat := none
  deriving DecidableEq, Repr

end Sys2Proof.Machine
end

