-- ==== Sys2Proof/Machine/AdmitCalc.lean ====
section
/-! DEFINITION. Admission as a function of the decoded plate and of the units present (chapter 14): the cost model (R530 to
R533), the checks of Table 14-1 (R534 to R554) and the frame time model of Table 14-2. Costs are in half µs, so that
every term is exact; frame times in quarter ns. -/

namespace Sys2Proof.Machine

open Sys2Proof

/-! Frame time (Table 14-2). -/

/-- The next CAN FD length, 8 or more (R545). -/
def fdLen (b : Nat) : Nat :=
  if b ≤ 8 then 8 else if b ≤ 12 then 12 else if b ≤ 16 then 16 else if b ≤ 20 then 20 else if b ≤ 24 then 24
  else if b ≤ 32 then 32 else if b ≤ 48 then 48 else 64

/-- Frame time of b payload bytes; the bit times of R867 are whole multiples of 25 ns. Table 14-2 gives the classical row for at
most 8 bytes: a frame of 64 on a classical controller is counted by that row all the same (DESIGN CHOICE, assumption 50). -/
def frameQ (c : CanCfg) (b : Nat) : Nat :=
  let nq := 4000000000 / c.nomBps
  let k := fdLen b
  if c.fd && c.dataBps != 0 then 58 * nq + (8 * k + 28) * (4000000000 / c.dataBps) * 5 / 4
  else ((8 * k + 54) * 12 + 130) * nq / 10

/-- One second in quarter ns. -/
def secondQ : Nat := 4000000000

/-- BUS supervision, or what R512 takes where the plate has none. -/
def supOf (p : Plate) : SupCfg := p.sup.headD ⟨0, 0, 1000, 20⟩

/-! Cost of a task (R530, R532). -/

def taskInsts (p : Plate) (t : TaskCfg) : List InstCfg := t.insts.filterMap (fun i => p.insts.find? (·.inst == i))

/-- A list with each entry once. -/
def dedup : List Nat → List Nat
  | [] => []
  | x :: xs => if xs.contains x then dedup xs else x :: dedup xs

/-- Value indexes that a task's blocks read, and that they produce. -/
def taskReads (p : Plate) (t : TaskCfg) : List Nat :=
  dedup (((taskInsts p t).flatMap (·.ins)).filter (· != 0xFFF))
def taskProds (p : Plate) (t : TaskCfg) : List Nat :=
  (taskInsts p t).flatMap (fun i => (i.outs.filter (fun o => o.kind == 0 && o.target != 0xFFF)).map (·.target))
/-- Output words of a task: KIND and target. -/
def taskOuts (p : Plate) (t : TaskCfg) : List (Nat × Nat) :=
  (taskInsts p t).flatMap (fun i => i.outs.map (fun o => (o.kind, o.target)))

def taskIn (p : Plate) (t : TaskCfg) : Nat := ((taskReads p t).filter (fun v => !(taskProds p t).contains v)).length
def taskOut (p : Plate) (t : TaskCfg) : Nat := (taskOuts p t).length

/-- c(e) in half µs (R530). -/
def taskCost (p : Plate) (t : TaskCfg) : Nat :=
  30 + 3 * taskIn p t + 2 * sumN ((taskInsts p t).map blockCost) + 50 * ((taskOut p t + 15) / 16)

/-- Σ s(i), and m(e) in words (R532). -/
def taskState (p : Plate) (t : TaskCfg) : Nat := sumN ((taskInsts p t).map blockWords)
def taskMem (p : Plate) (t : TaskCfg) : Nat := 4 + 2 * taskIn p t + 2 * taskOut p t + taskState p t

/-- Phases of a task (R264). -/
def taskK (t : TaskCfg) : Nat := max 1 (periodMs t.period / 50)

/-- Half µs up to whole µs, for ADM_NEED, ADM_TASK_LONG's need and PEAK_US (DESIGN CHOICE, assumption 50: R537 names no
rounding). -/
def halfUp (h : Nat) : Nat := (h + 1) / 2

/-! Placement (R535 to R537). -/

/-- A task placed: logical tile, phase, phases, cost, memory. -/
structure Place where
  task : Nat
  tile : Nat
  phi : Nat
  k : Nat
  c : Nat
  m : Nat
  deriving DecidableEq, Repr

/-- L(t, f) in half µs (R531). -/
def loadAt (ps : List Place) (t f : Nat) : Nat :=
  40 + sumN ((ps.filter (fun p => p.tile == t && f % p.k == p.phi)).map (·.c))

/-- The busiest frame of a phase with one more entry of cost c. -/
def peakAt (ps : List Place) (t k phi c : Nat) : Nat :=
  maxN ((rangeFrom 0 (1200 / k)).map (fun j => loadAt ps t (phi + j * k))) + c

/-- M(t) (R532). -/
def memAt (ps : List Place) (t : Nat) : Nat := 64 + sumN ((ps.filter (·.tile == t)).map (·.m))

def capHalf : Nat := 70000
def memMax : Nat := 10240

/-- The lowest peak of a tile over the phases, with the lowest phase that has it. -/
def bestPhase (ps : List Place) (t k c : Nat) : Nat × Nat :=
  (rangeFrom 1 (k - 1)).foldl (fun (b : Nat × Nat) phi =>
    let q := peakAt ps t k phi c
    if q < b.2 then (phi, q) else b) (0, peakAt ps t k 0 c)

/-- Where the search for a tile stands: the least peak offered, the memory of the first tile that had load room. -/
structure Offer where
  peak : Option Nat := none
  mem : Option Nat := none
  deriving DecidableEq, Repr

/-- Try the tiles in order (R535). -/
def placeOn (ps : List Place) (task k c m : Nat) : List Nat → Offer → Place ⊕ Offer
  | [], o => .inr o
  | t :: ts, o =>
    if (ps.filter (·.tile == t)).length ≥ 255 then placeOn ps task k c m ts o
    else
      let b := bestPhase ps t k c
      let o := { o with peak := some (match o.peak with | none => b.2 | some q => min q b.2) }
      if b.2 > capHalf then placeOn ps task k c m ts o
      else if memAt ps t + m > memMax then
        placeOn ps task k c m ts { o with mem := some (o.mem.getD (memAt ps t + m)) }
      else .inl ⟨task, t, b.1, k, c, m⟩

/-- A refusal: code, subject kind and index, need and limit (R553). -/
structure AdmFail where
  code : Nat
  kind : Nat
  index : Nat
  need : Nat
  limit : Nat
  deriving DecidableEq, Repr

/-- The order of R535. -/
def placeOrder (p : Plate) : List TaskCfg :=
  let fixed := sortBy (fun a b => decide (a.task ≤ b.task)) (p.tasks.filter (·.tile < 127))
  let free := sortBy (fun a b =>
    let x := taskCost p a * taskK b
    let y := taskCost p b * taskK a
    decide (x > y) || (x == y && decide (a.task ≤ b.task))) (p.tasks.filter (fun t => !(t.tile < 127)))
  fixed ++ free

/-- Place the tasks in order. A load that no tile offers, since each tile that the task may take holds 255 tasks already, is
refused with a need of 0 (DESIGN CHOICE, assumption 50). -/
def placeAll (p : Plate) (tiles : Nat) : List TaskCfg → List Place → List Place ⊕ AdmFail
  | [], ps => .inl ps
  | t :: ts, ps =>
    let ok := if t.tile < 127 then [t.tile] else rangeFrom 0 tiles
    match placeOn ps t.task (taskK t) (taskCost p t) (taskMem p t) ok {} with
    | .inl q => placeAll p tiles ts (ps ++ [q])
    | .inr o =>
      match o.mem with
      | some m => .inr ⟨5, 1, t.task, m, memMax⟩
      | none => .inr ⟨4, 1, t.task, halfUp (o.peak.getD 0), 35000⟩

/-! Scan lists (R540 to R543). -/

/-- Slot time of an entry in µs (R540). -/
def slotUs (c : ScanCfg) : Nat := 250 * (odrTurns c.odr + 4 * c.settleMs)

/-- T(n) of a list of entries. -/
def cycleUs (p : Plate) (l : List Nat) : Nat :=
  sumN (l.map (fun v => match p.scans.find? (·.value == v) with | some c => slotUs c | none => 0))

def partnerOf (p : Plate) (v : Nat) : Option Nat :=
  match p.pairs.find? (fun x => x.a == v || x.b == v) with
  | none => none
  | some x => some (if x.a == v then x.b else x.a)

/-- The list an entry goes to: the smallest cycle, the lowest number on a tie, not its partner's (R541). -/
def listFor (p : Plate) (ls : List (List Nat)) (v : Nat) : Option Nat :=
  let ok := (rangeFrom 0 ls.length).filter (fun n =>
    ls.length < 2 || (match partnerOf p v with | none => true | some w => !(ls.getD n []).contains w))
  ok.foldl (fun (b : Option Nat) (n : Nat) =>
    match b with
    | none => some n
    | some m => if cycleUs p (ls.getD n []) < cycleUs p (ls.getD m []) then some n else some m) none

def assignLists (p : Plate) : List ScanCfg → List (List Nat) → List (List Nat)
  | [], ls => ls
  | c :: cs, ls =>
    match listFor p ls c.value with
    | none => assignLists p cs ls
    | some n => assignLists p cs (listSet ls n (ls.getD n [] ++ [c.value]))

/-- The lists of a plate on `n` active slices, each in ascending order of value. -/
def scanLists (p : Plate) (n : Nat) : List (List Nat) :=
  let es := sortBy (fun a b => decide (slotUs a > slotUs b) || (slotUs a == slotUs b && decide (a.value ≤ b.value))) p.scans
  (assignLists p es (List.replicate n [])).map (sortBy (fun a b => decide (a ≤ b)))

/-- Half the smallest STALE_MS of a list, in µs (R543). -/
def halfStale (p : Plate) (l : List Nat) : Nat :=
  (leastOf (l.filterMap (fun v => (p.vals.find? (·.index == v)).map (·.staleMs)))) * 500
where
  leastOf : List Nat → Nat
    | [] => 0
    | [x] => x
    | x :: y :: t => min x (leastOf (y :: t))

/-! Bus budgets (R545 to R547). -/

/-- Period in ms at which a frame is counted: the fastest task, at least 1/s, at most 20/s (Table 14-3). -/
def ratePeriod (p : Plate) (f : TaskCfg → Bool) : Nat :=
  max 50 ((p.tasks.filter f).foldl (fun b t => min b (periodMs t.period)) 1000)

def remotePeriod (p : Plate) (r : RemoteCfg) : Nat :=
  if r.kind == 4 then ratePeriod p (fun t => (taskReads p t).contains r.logical)
  else ratePeriod p (fun t => (taskOuts p t).contains (r.kind + 1, r.logical))

/-- Foreground bus time of a controller per second, times NODE_MS, in quarter ns. -/
def busForeground (p : Plate) (c : CanCfg) : Nat :=
  let s := supOf p
  let f8 := frameQ c 8
  let beats := (1 + (p.nodes.filter (·.bus == c.ctrl)).length) * 4000 * f8
  let maps := sumN ((p.remotes.filter (·.bus == c.ctrl)).map (fun r => 1000 * f8 / remotePeriod p r))
  let host := if s.hostS != 0 && s.hostBus == c.ctrl then 10 * frameQ c 64 else 0
  beats + (maps + host) * s.nodeMs

/-- The foreground in ‰, rounded up. -/
def busPm (p : Plate) (c : CanCfg) : Nat :=
  let d := (supOf p).nodeMs * secondQ
  (busForeground p c * 1000 + d - 1) / d

/-! Chains (R548 to R554). -/

/-- The remote map entry of a channel or value. -/
def remoteFor (p : Plate) (kind logical : Nat) : Option RemoteCfg :=
  p.remotes.find? (fun r => r.kind == kind && r.logical == logical)
/-- The remote channel of effect KIND 5: the map entry of KIND 0 to 3 for that channel number, the first one where several kinds
share the number (DESIGN CHOICE, assumption 50: the effect names no kind). -/
def remoteCh (p : Plate) (ch : Nat) : Option RemoteCfg := p.remotes.find? (fun r => r.kind < 4 && r.logical == ch)

/-- A DOWN chain from a motor reaches the target. -/
def downReaches (p : Plate) (target : Nat) : Nat → Nat → Bool
  | 0, _ => false
  | k + 1, m =>
    match p.motors.find? (·.ch == m) with
    | none => false
    | some c => c.down != 255 && (c.down == target || downReaches p target k c.down)

/-- Table 14-7. -/
def directPath (p : Plate) (ck ci ek ec : Nat) : Bool :=
  if ck == 0 && ek == 3 then p.heats.any (fun h => h.ch == ec && h.plenum == ci)
  else if ck < 2 && ek == 4 then p.sws.any (fun w => w.sw == ec && w.source == ci)
  else if ck == 3 && ek < 4 then p.reacts.any (fun r => r.src == ci && r.kind == ek && r.ch == ec)
  else if ck == 3 && ek == 5 then p.reacts.any (fun r => r.src == ci && r.ch == ec && (remoteFor p r.kind ec).isSome)
  else if ck == 4 && ek == 1 then ec == ci || downReaches p ci 256 ec
  else if ck == 5 && ek == 3 then
    p.heats.any (fun h => h.ch == ec && p.fans.any (fun f => f.ch == ci && f.group == h.dryer))
  else false

/-- The cause exists: a scan entry, a remote value, a motor that publishes a rate, a declared fan. A local value that no scan entry
produces, or a motor without a rate, is broken link 0 (DESIGN CHOICE, assumption 50: no rule says what such a cause gives). -/
def causeExists (p : Plate) (ck ci : Nat) : Bool :=
  if ck == 0 then p.scans.any (·.value == ci)
  else if ck == 1 then (remoteFor p 4 ci).isSome
  else if ck == 4 then p.motors.any (fun m => m.ch == ci && m.nomMov != 0)
  else if ck == 5 then p.fans.any (·.ch == ci)
  else true

/-- The first task reads the cause's value (Table 14-6). A motion rate is no logical value, so the link from a motion
input holds, as chain 3 of the example requires. -/
def causeRead (p : Plate) (ck ci : Nat) (t : TaskCfg) : Bool :=
  if ck == 4 then true
  else if ck == 5 then
    (match p.fans.find? (·.ch == ci) with | some f => f.speed != 0xFFF && (taskReads p t).contains f.speed | none => false)
  else (taskReads p t).contains ci

/-- The last task drives the effect (Table 14-6). A TSW pin has no output KIND: its switch's SOURCE is written. -/
def effectDriven (p : Plate) (ek ec : Nat) (t : TaskCfg) : Bool :=
  if ek == 4 then p.sws.any (fun w => w.sw == ec && (taskProds p t).contains w.source)
  else if ek == 5 then (taskOuts p t).any (fun o => o.1 != 0 && o.2 == ec && (remoteFor p (o.1 - 1) ec).isSome)
  else (taskOuts p t).contains (ek + 1, ec)

/-- The first broken link from position i on. -/
def brokenLink (p : Plate) (ek ec : Nat) : Nat → List TaskCfg → Option Nat
  | _, [] => none
  | i, [t] => if effectDriven p ek ec t then none else some i
  | i, t :: u :: ts =>
    if (taskProds p t).any (fun v => (taskReads p u).contains v) then brokenLink p ek ec (i + 1) (u :: ts) else some i

def chainTasks (p : Plate) (c : ChainCfg) : List TaskCfg := c.tasks.filterMap (fun n => p.tasks.find? (·.task == n))

/-- The position of the link of a chain that fails (R549), the cause being 0. -/
def chainBroken (p : Plate) (c : ChainCfg) : Option Nat :=
  let ts := chainTasks p c
  if !causeExists p c.causeKind c.causeIndex then some 0
  else
    match ts with
    | [] => if directPath p c.causeKind c.causeIndex c.effKind c.effCh then none else some 0
    | t :: _ =>
      if c.causeKind == 3 then some 0
      else if !causeRead p c.causeKind c.causeIndex t then some 0
      else brokenLink p c.effKind c.effCh 1 ts

def nsInt (n : Nat) : Frac := ⟨(n : Int), 1⟩
def frMax (a b : Frac) : Frac := if frLe a b then b else a

/-- The passage through the keeper, K (Table 14-5). -/
def keeperNs : Nat := 4351000

/-- 6 × T64 + Tf on the controller of a remote entry. -/
def busTerm (p : Plate) (r : RemoteCfg) : Frac :=
  match p.cans.find? (·.ctrl == r.bus) with
  | none => nsInt 0
  | some c => ⟨((6 * frameQ c 64 + frameQ c 8 : Nat) : Int), 4⟩

/-- The term of a local value's scan entry (Table 14-4). -/
def localNs (p : Plate) (ls : List (List Nat)) (v : Nat) : Nat :=
  match p.scans.find? (·.value == v), ls.find? (·.contains v) with
  | some c, some l =>
    (cycleUs p l + slotUs c + 250 * l.length) * 1000 + 2000000 + (if c.blankMask != 0 then c.blankMs * 1000000 else 0)
  | _, _ => 0

/-- The cause term (Table 14-4). -/
def causeNs (p : Plate) (ls : List (List Nat)) (ck ci : Nat) : Frac :=
  match ck with
  | 0 =>
    let w := match partnerOf p ci with | none => 0 | some v => localNs p ls v
    nsInt (max (localNs p ls ci) w)
  | 1 =>
    match remoteFor p 4 ci with
    | none => nsInt 0
    | some r => frAdd (nsInt (remotePeriod p r * 1000000 + 110 + keeperNs)) (busTerm p r)
  | 2 => nsInt 401000000
  | 3 => nsInt 20000000
  | 4 =>
    match p.motors.find? (·.ch == ci) with
    | none => nsInt 0
    | some m => frAdd (frMax (nsInt 100000000) ⟨20000000000, max 1 m.nomMov⟩) (nsInt 100000110)
  | _ =>
    match p.fans.find? (·.ch == ci) with
    | none => nsInt 0
    | some f =>
      let w : Frac := if f.stall > 0 && f.ppr > 0 then frMax (nsInt 100000000) ⟨120000000000 * 1048576, f.stall.toNat * f.ppr⟩
        else nsInt 1000000000
      frAdd w (nsInt 100000110)

/-- The effect term (Table 14-5). -/
def effectNs (p : Plate) (ek ec : Nat) : Frac :=
  match ek with
  | 0 =>
    match p.fans.find? (·.ch == ec) with
    | none => nsInt 10110
    | some f => frAdd (nsInt 10110) ⟨1000000000, max 1 f.pwmHz⟩
  | 1 => nsInt 10110
  | 2 => nsInt 10110
  | 3 => nsInt 1010110
  | 4 =>
    match p.sws.find? (·.sw == ec) with
    | none => nsInt 15000
    | some w => nsInt (15000 + max w.onMs w.offMs * 1000000)
  | _ =>
    match remoteCh p ec with
    | none => nsInt keeperNs
    | some r => frAdd (nsInt keeperNs) (busTerm p r)

/-- A chain's bound in whole µs, rounded up (R548). -/
def chainUs (p : Plate) (ls : List (List Nat)) (c : ChainCfg) : Nat :=
  let ts := sumN ((chainTasks p c).map (fun t => (2 * periodMs t.period + 50) * 1000000))
  let f := frAdd (frAdd (causeNs p ls c.causeKind c.causeIndex) (nsInt ts)) (effectNs p c.effKind c.effCh)
  (f.num.toNat + f.den * 1000 - 1) / (f.den * 1000)

/-! The checks (Table 14-1). -/

/-- Check 1. -/
def admSize (p : Plate) : Option AdmFail :=
  if p.tasks.length > 2048 then some ⟨1, 0, 0, p.tasks.length, 2048⟩
  else if p.insts.length > 8192 then some ⟨1, 0, 0, p.insts.length, 8192⟩
  else if p.chains.length > 512 then some ⟨1, 0, 0, p.chains.length, 512⟩
  else
    match p.chains.find? (fun c => decide (c.tasks.length > 32)) with
    | some c => some ⟨1, 0, 0, c.tasks.length, 32⟩
    | none => if p.scans.length > 512 then some ⟨1, 0, 0, p.scans.length, 512⟩ else none

def tasksAsc (p : Plate) : List TaskCfg := sortBy (fun a b => decide (a.task ≤ b.task)) p.tasks

/-- Check 2. -/
def admTiles (p : Plate) (tiles : Nat) : Option AdmFail :=
  match (tasksAsc p).find? (fun t => if t.tile < 127 then decide (t.tile ≥ tiles) else tiles == 0) with
  | some t => some ⟨2, 1, t.task, t.tile, tiles⟩
  | none => none

/-- Check 3. -/
def admLong (p : Plate) : Option AdmFail :=
  match (tasksAsc p).find? (fun t => decide (taskCost p t > capHalf)) with
  | some t => some ⟨3, 1, t.task, halfUp (taskCost p t), 35000⟩
  | none => none

/-- Check 5 (R539): words needed on the tiles present. -/
def sramNeed (p : Plate) (tiles : Nat) : Nat := 65536 + 64 * tiles + sumN (p.tasks.map (fun t => 4 + taskState p t))
def admSram (p : Plate) (tiles rowsOut : Nat) : Option AdmFail :=
  let lim := 262144 - 256 * rowsOut
  if sramNeed p tiles > lim then some ⟨6, 7, 0, sramNeed p tiles, lim⟩ else none

/-- Check 6 (R544). -/
def admExc (p : Plate) : Option AdmFail :=
  let pins := p.excs.flatMap (fun e => [e.pinP, e.pinN]) ++ p.biases.map (·.pin)
  match (rangeFrom 0 128).find? (fun k => decide ((pins.filter (· == k)).length > 1)) with
  | some k => some ⟨7, 6, k, (pins.filter (· == k)).length, 1⟩
  | none => none

/-- Check 7 (R542, R543). -/
def admScan (p : Plate) (ls : List (List Nat)) : Option AdmFail :=
  if !p.scans.isEmpty && ls.isEmpty then some ⟨8, 4, 0, 1, 0⟩
  else
    match (rangeFrom 0 ls.length).find? (fun n =>
      let l := ls.getD n []
      !l.isEmpty && decide (cycleUs p l > halfStale p l)) with
    | some n => some ⟨8, 4, n, cycleUs p (ls.getD n []), halfStale p (ls.getD n [])⟩
    | none => none

def cansAsc (p : Plate) : List CanCfg := sortBy (fun a b => decide (a.ctrl ≤ b.ctrl)) p.cans

/-- Check 8 (R547). -/
def admBus (p : Plate) : Option AdmFail :=
  let tp := 10 * (supOf p).telemPct
  match (cansAsc p).find? (fun c => decide (busPm p c > 600) || decide (busPm p c + tp > 800)) with
  | some c => if busPm p c > 600 then some ⟨9, 5, c.ctrl, busPm p c, 600⟩ else some ⟨9, 5, c.ctrl, busPm p c + tp, 800⟩
  | none => none

def chainsAsc (p : Plate) : List ChainCfg := sortBy (fun a b => decide (a.chain ≤ b.chain)) p.chains

/-- Check 9 (R549). -/
def admPaths (p : Plate) : List ChainCfg → Option AdmFail
  | [] => none
  | c :: cs =>
    match chainBroken p c with
    | some k => some ⟨10, 3, c.chain, k, c.tasks.length + 1⟩
    | none => admPaths p cs

/-- Check 10 (R548, R554). -/
def admBounds (p : Plate) (ls : List (List Nat)) : List ChainCfg → Option AdmFail
  | [] => none
  | c :: cs =>
    let b := chainUs p ls c
    if c.deadlineMs == 0 || b > 4294967295 || b > c.deadlineMs * 1000 then some ⟨11, 3, c.chain, b, c.deadlineMs * 1000⟩
    else admBounds p ls cs

/-- The chain of smallest margin and that margin in ms, rounded down. -/
def worstChain (p : Plate) (ls : List (List Nat)) : Nat × Nat :=
  ((chainsAsc p).foldl (fun (b : Option (Nat × Nat)) c =>
    let m := c.deadlineMs * 1000 - chainUs p ls c
    match b with
    | none => some (c.chain, m)
    | some x => if m < x.2 then some (c.chain, m) else b) none).elim (0, 0) (fun x => (x.1, x.2 / 1000))

/-- What one run of admission computes. -/
structure AdmRun where
  places : List Place := []
  lists : List (List Nat) := []
  fail : Option AdmFail := none
  deriving DecidableEq, Repr

/-- The first failure of a list of checks. -/
def firstSome : List (Option AdmFail) → Option AdmFail
  | [] => none
  | some f :: _ => some f
  | none :: xs => firstSome xs

/-- One run (R534) on `tiles` logical tiles, `slices` slices in service and `rowsOut` shared SRAM rows left out; `full`
is false for the run from check 2 of R557. -/
def admitRun (p : Plate) (tiles slices rowsOut : Nat) (full : Bool) : AdmRun :=
  match firstSome [if full then admSize p else none, admTiles p tiles, admLong p] with
  | some f => { fail := some f }
  | none =>
    match placeAll p tiles (placeOrder p) [] with
    | .inr f => { fail := some f }
    | .inl ps =>
      let ls := scanLists p (min 5 slices)
      { places := ps
        lists := ls
        fail := firstSome [admSram p tiles rowsOut, admExc p, admScan p ls, admBus p, admPaths p (chainsAsc p),
          admBounds p ls (chainsAsc p)] }

end Sys2Proof.Machine
end

