-- ==== Sys2Proof/Machine/UnitsFabric.lean ====
section
/-! DEFINITION. State of the spine and its arbiters (05), the islands and crossings (06), proof and spares (12) and
admission (14). -/

namespace Sys2Proof.Machine

open Sys2Proof

/-- An arbiter instance (R185). Requesters are numbers. `next` is a raised grant of a phase-separated instance, or
the decision for the next turn of a one-ahead one; `deadDue` says that the next turn is a dead cycle, `dead` that one
is in progress. The instances 12 to 17 and 22 keep their queue with their own units (chapters 15 and 17), 18 to 21 in
the mailboxes (chapter 23). -/
structure Arb where
  owner : Option Nat := none
  next : Option Nat := none
  fg : List Nat := []
  bg : List Nat := []
  fgRun : Nat := 0
  lastFg : Option Nat := none
  lastBg : Option Nat := none
  frozen : Bool := false
  deadDue : Bool := false
  dead : Bool := false
  grants : Nat := 0
  deads : Nat := 0
  deriving DecidableEq, Repr

/-- A link direction (Table 5-8), with the instants of its corrections by lane for R208. -/
structure Link where
  corr : Nat := 0
  dead : Bool := false
  bad0 : Nat := 63
  bad1 : Nat := 63
  hits : List (Nat × Nat) := []
  deriving DecidableEq, Repr

/-- A packet on its way over a link direction (R177, R178): what its header word names (destination and source port, payload
length, background), its number among the packets of its route over that link, and the payload words still to cross. -/
structure Cross where
  src : Nat
  dst : Nat
  len : Nat
  back : Bool := false
  num : Nat := 0
  left : Nat := 0
  deriving DecidableEq, Repr

/-- The spine and its arbiters (chapter 05). Arbiters are keyed by the index of Table 5-3, the output port p of router
r by 256 + 5 r + p; link directions by 2k + d, edge links by 256 + 2e + d (the offsets of SPN_LINK and SPN_EDGE). -/
structure Spn where
  arbs : Tab Arb := (rangeFrom 12 10).map (fun n => (n, { frozen := true }))
  links : Tab Link := []
  maxLinks : Nat := 0
  spareLeft : Nat := 0
  deadLinks : Nat := 0
  detour : Bool := false
  stall : Bool := false
  uncorr : Bool := false
  lane : Bool := false
  /-- The route tables: none until the proof loads them, then the dead link directions that they go round (R179, R212). -/
  tables : Option (List Nat) := none
  /-- Packets on their way over a link direction; packets of a route that have begun to cross it, by 65 536 × direction +
  route. A route is numbered 256 × source port + destination port. -/
  cross : Tab (Option Cross) := []
  begun : Tab Nat := []
  /-- Packets that hold a poisoned word: route, number (R173). -/
  bad : List (Nat × Nat) := []
  /-- Transfers of a route that its source has still to send once more (R209). -/
  resend : Tab Nat := []
  /-- Last poisoned transfer of a route (R209). -/
  poison : Tab (Option Nat) := []
  /-- Lane swaps that wait for their ports to drain: link direction, lane (R208). -/
  swaps : List (Nat × Nat) := []
  deriving DecidableEq, Repr

/-! Islands (chapter 06). -/

/-- A toggle wire (R222): its level, equal to its acknowledge between events, and the island's counted events. -/
structure Toggle where
  level : Bool := false
  counted : Nat := 0
  deriving DecidableEq, Repr

/-- An island (Table 6-13): STATE 1 DEFAULT, 2 CONFIGURED, 3 STOPPED, 4 RESYNC. -/
structure IslSt where
  st : Nat := 1
  timeouts : Nat := 0
  overflows : Nat := 0
  resets : Nat := 0
  ovf : Bool := false
  tmo : Bool := false
  /-- A hold-and-flag transfer awaits its taken flag. -/
  cfgPend : Bool := false
  deriving DecidableEq, Repr

/-- The islands, MAIN and its monitor. XT_OK and RC_OK hold what the monitor measures: both oscillators run at reset (DESIGN
CHOICE, assumption 7: Table 6-11 has them measured). Toggles, queues and working registers are keyed by island × 4 096 + number;
`late` holds entries whose fabric writer waits at a full queue (R224). -/
structure Isl where
  isls : List IslSt := List.replicate 10 {}
  toggles : Tab Toggle := []
  queues : Tab (List Word) := []
  late : Tab (List Word) := []
  work : Tab Word := []
  xtStops : Nat := 0
  switched : Bool := false
  rcOk : Bool := true
  xtOk : Bool := true
  /-- MAIN runs on the RC oscillator. -/
  onRc : Bool := false
  trimmed : Bool := false
  tmoNs : Nat := 240000
  /-- The last probe (R231). -/
  probeAt : Option Nat := none
  deriving DecidableEq, Repr

/-! Proof and spares (chapter 12). -/

/-- A load of a spare tile (Table 12-9): logical tile, tile retired, spare, minor frame in which the check failed. -/
structure MigLoad where
  logical : Nat
  retired : Nat
  spare : Nat
  minor : Nat
  deriving DecidableEq, Repr

/-- Proof, repair map and migration. -/
structure Prf where
  done : Bool := false
  durMs : Nat := 0
  newN : Nat := 0
  mapA : Bool := false
  mapB : Bool := false
  nvmSet : Nat := 0
  /-- Map indices in use: entries whose units have started. -/
  indices : Nat := 0
  tiles : Tab Tile := []
  /-- Slices: retired, passed Table 12-3 at this start. -/
  retired : List Nat := []
  passed : List Nat := []
  /-- Tiles retired by the factory, and at earlier starts. -/
  factory : Nat := 0
  /-- Shared SRAM spare rows used, by bank. -/
  sramUsed : List Nat := List.replicate 8 0
  /-- Shared SRAM rows without a spare: bank × 128 + row. -/
  sramOut : List Nat := []
  /-- Shared SRAM rows mapped to a spare: bank × 128 + row. -/
  sramMapped : List Nat := []
  /-- Shared SRAM rows whose failure the scrub has entered at this start, for the next one (R489). -/
  sramNoted : List Nat := []
  /-- Scrub packets that wait at a shared SRAM bank or own it: bank, rows that the packet finds uncorrectable. -/
  sramTurns : List (Nat × List Nat) := []
  /-- Local SRAM rows mapped to a spare row: tile × 64 + row. -/
  rowsOut : List Nat := []
  /-- New entries of this start beyond the 128 that the proof stores (R487). -/
  lateMap : List Word := []
  /-- The shared SRAM scrub (R489): packets of 16 words scrubbed in every bank, and instant of the last one. -/
  sramScrub : Nat := 0
  sramScrubAt : Option Nat := none
  migCount : Nat := 0
  migLogical : Nat := 0
  migFrom : Nat := 0
  migTo : Nat := 0
  migMinor : Nat := 0
  /-- The load in progress and those that wait for it, in ascending logical order (R490). -/
  loads : List MigLoad := []
  /-- Both MAGIC words unreadable: no entry is stored at this start (R480). -/
  noMap : Bool := false
  deriving DecidableEq, Repr

/-! Admission (chapter 14). -/

structure Adm where
  result : Nat := 0
  plate : Nat := 3
  code : Nat := 0
  durMs : Nat := 0
  subjKind : Nat := 0
  subjPlate : Nat := 0
  subjIdx : Nat := 0
  need : Nat := 0
  limit : Nat := 0
  tasks : Nat := 0
  chains : Nat := 0
  entries : Nat := 0
  worstChain : Nat := 0
  worstMargin : Nat := 0
  /-- Scan lists: value indices of the entries in ascending order. -/
  lists : List (List Nat) := []
  /-- The placement: the cycle tables of the logical tiles (R538). -/
  places : List Place := []
  /-- The CRC-32 of each logical tile's table in the master copy (R538). -/
  crcs : Tab Nat := []
  /-- A tile or slice was retired while admission ran (R557); the run from check 2 has been made. -/
  rerun : Bool := false
  reran : Bool := false
  /-- Logical tiles that failed in step 8 after the second run had begun, for the arming (R557). -/
  late : List Nat := []
  deriving DecidableEq, Repr

end Sys2Proof.Machine
end

