-- ==== Sys2Proof/Machine/UnitsFe.lean ====
section
/-! DEFINITION. State of the front end (15), of values, pairs and switches (16), and of the mains watch (17). -/

namespace Sys2Proof.Machine

open Sys2Proof

/-! The front end up to samples (chapter 15). -/

/-- A sample of the CONV queue (Table 15-4). -/
structure Sample where
  value : Nat
  slice : Nat
  list : Nat
  code : Int
  ovr : Bool
  pinLo : Bool
  pinHi : Bool
  exc : Bool
  ref : Bool
  ampLo : Bool
  endT : Nat
  deriving DecidableEq, Repr

/-- A slice (Table 15-13): STATE, list served (7 none), end of its last calibration, calibrations, corrections of
each gain, and the kind of the calibration in progress (0 start, 1 rotation). -/
structure SliceSt where
  st : Nat := 0
  list : Nat := 7
  calAt : Option Nat := none
  cals : Nat := 0
  off : List Int := List.replicate 8 0
  gain : List Int := List.replicate 8 0
  /-- The gain that the sequencer has set on the slice, as an exponent of 2 (Table 15-3 step 1). -/
  pga : Nat := 0
  calKind : Option Nat := none
  /-- VREF_FAULT has held during the calibration in progress (R602). -/
  calBad : Bool := false
  deriving DecidableEq, Repr

/-- The position of a list (R577): entry in its turn, its last turn, whether it is aborted, a dead turn, and the
entry chosen for the next turn. Entries are named by their value index. -/
structure LSeq where
  cur : Option Nat := none
  lastTurn : Nat := 0
  aborted : Bool := false
  dead : Bool := false
  next : Option Nat := none
  /-- The entry last served, from which the cyclic choice goes on. -/
  pos : Nat := 0
  delivered : Bool := false
  /-- The entry chosen for the next turn has been withdrawn after its grant (R580). -/
  wd : Bool := false
  /-- A source or reference fault that ended within the window of the entry in its turn (Table 15-4). -/
  exc : Bool := false
  ref : Bool := false
  deriving DecidableEq, Repr

/-- What a crosspoint switch joins a pin to (R563, R573): an input of a slice, a side of an excitation source, a bias
source, a burn-out current of a slice's entry out of the pin's ball or into it, by its BURNOUT code. -/
inductive XPort where
  | sliceP (slice : Nat)
  | sliceN (slice : Nat)
  | excP (src : Nat)
  | excN (src : Nat)
  | bias (bias : Nat)
  | burnOut (slice code : Nat)
  | burnIn (slice code : Nat)
  deriving DecidableEq, Repr

/-- A closed crosspoint switch. -/
structure Conn where
  pin : Nat
  port : XPort
  deriving DecidableEq, Repr

/-- An overlap (Table 15-6): outgoing and incoming slice, entries compared, the largest difference and its entry,
whether any entry failed, cycles of the list ended. -/
structure Overlap where
  out : Nat
  inc : Nat
  /-- S has joined O at the boundary where the entry `first` began. -/
  joined : Bool := false
  first : Nat := 0
  compared : List Nat := []
  worst : Nat := 0
  worstVal : Nat := 0
  failed : Bool := false
  cycles : Nat := 0
  ready : Bool := false
  deriving DecidableEq, Repr

/-- The plant outputs as the front end last saw them (Table 15-8): local motors whose RUN is active, gate outputs that sink
(2n open, 2n + 1 close), heat enables that sink, duties of the demand pins. -/
structure OutSeen where
  runs : List Nat := []
  drives : List Nat := []
  enables : List Nat := []
  duties : List Nat := List.replicate 8 0
  deriving DecidableEq, Repr

/-- The front end (chapter 15). -/
structure Fe where
  grid : Bool := false
  gridAt : Nat := 0
  slices : List SliceSt := List.replicate 6 {}
  lists : Tab LSeq := []
  /-- The crosspoint switches that are closed, in the order in which they closed (R563 to R565). -/
  conns : List Conn := []
  conv : List Sample := []
  /-- The seven blanking triggers in the order of BLANK_MASK bits 20 to 26: asserted, and end of an internal
  trigger's time. -/
  trig : List Bool := List.replicate 7 false
  trigEnd : List Nat := List.replicate 7 0
  seen : OutSeen := {}
  /-- First assertion since the entry's last sample, by value index (R591). -/
  blankSince : Tab (Option Nat) := []
  /-- Values turned STALE by blanking. -/
  blankStale : List Nat := []
  rotAt : Nat := 0
  rotOn : Bool := false
  overlap : Option Overlap := none
  handovers : Nat := 0
  lastOut : Nat := 0
  lastIn : Nat := 0
  drift : Bool := false
  suspended : Bool := false
  /-- Sources out of compliance, and their measured excitation. -/
  excBad : List Nat := []
  excMeas : Tab Nat := []
  refBad : Bool := false
  deriving DecidableEq, Repr

/-! Values, pairs and switches (chapter 16). -/

/-- What the front end keeps of a value: its own word and quality after stage 6, last GOOD word, whether it is
substituted, consecutive usable samples, and the classes it counts under (bit 0 open, 1 shorted, 2 out of range). -/
structure FeVal where
  own : Int := 0
  ownQ : Quality := .stale
  lastGood : Option Int := none
  sub : Bool := false
  usable : Nat := 0
  counts : Nat := 0
  deriving DecidableEq, Repr

/-- A pair (R621 to R624): it disagrees, its timer's run (start, µs held before), the end-of-disagreement timer. -/
structure PairSt where
  dis : Bool := false
  since : Option Nat := none
  held : Nat := 0
  /-- The timer is running, be it held by a BLANKED or FORCED member. -/
  run : Bool := false
  below : Option Nat := none
  deriving DecidableEq, Repr

/-- A threshold switch (R626, R627): on, in its fault state, start of its delay timer. -/
structure SwSt where
  on : Bool := false
  fs : Bool := false
  since : Option Nat := none
  deriving DecidableEq, Repr

/-- Values and switches. -/
structure Sw where
  fev : Tab FeVal := []
  pairs : Tab PairSt := []
  sws : Tab SwSt := []
  /-- Values that the 10 ms check has found STALE (R620). -/
  seen : List Nat := []
  /-- TSW balls sinking since a fatal fault (R45), kept until the VCORE power-on reset. -/
  held : Option Nat := none
  lastKind : Nat := 0
  lastVal : Nat := 0
  lastCode : Int := 0
  deriving DecidableEq, Repr

/-! The mains watch (chapter 17). -/

/-- An entry of the event list (Table 17-5). -/
structure MnsEvt where
  kind : Nat
  isOpen : Bool
  phases : Nat
  extreme : Nat
  opSec : Nat
  durMs : Nat
  deriving DecidableEq, Repr

/-- An event in progress: its list entry, its start, its extreme in 0.01 % of nominal. -/
structure MnsOpen where
  slot : Nat
  start : Nat
  phases : Nat
  extreme : Nat
  deriving DecidableEq, Repr

/-- The mains watch. Voltages are value-format integers. -/
structure Mns where
  run : Bool := false
  windows : Nat := 0
  rms : List Int := [0, 0, 0, 0]
  low : Int := 0
  freq : Int := 0
  unbal : Int := 0
  seqOk : Bool := false
  /-- Start of the mains cycle in progress. -/
  cycleAt : Nat := 0
  /-- Instant of the last window's end. -/
  windowAt : Option Nat := none
  /-- Lowest half-cycle RMS in the window. -/
  halfMin : Option Int := none
  /-- Half-cycle RMS of A, B, C at the last refresh. -/
  half : List Int := [0, 0, 0]
  sag : Option MnsOpen := none
  swell : Option MnsOpen := none
  intr : Option MnsOpen := none
  events : Nat := 0
  evts : Tab (Option MnsEvt) := []
  seqN : Nat := 0
  unbalN : Nat := 0
  freqN : Nat := 0
  seqOkSince : Option Nat := none
  unbalOkSince : Option Nat := none
  freqOkSince : Option Nat := none
  /-- Consecutive refreshes below the power-fail threshold, and above it plus 5 %. -/
  lowN : Nat := 0
  highN : Nat := 0
  deriving DecidableEq, Repr

end Sys2Proof.Machine
end

