-- ==== Sys2Proof/Machine/UnitsPlant.lean ====
section
/-! DEFINITION. State of the start budget (17), fans and the hard trip (18), motors, gates and heat (19). -/

namespace Sys2Proof.Machine

open Sys2Proof

/-! The start budget (chapter 17). -/

/-- The watch of one start's dip (R659): lowest window RMS before it, deepest half-cycle RMS since, and whether
something of R660 spoils it. -/
structure DipWatch where
  ch : Nat
  start : Nat
  base : Int
  low : Option Int := none
  spoiled : Bool := false
  deriving DecidableEq, Repr

/-- The start budget. -/
structure Stb where
  /-- Requests pending, oldest first: motor, arrival. -/
  reqs : List (Nat × Nat) := []
  /-- Decision held for the next step; a chosen request that was withdrawn makes the step dead. -/
  next : Option Nat := none
  dead : Bool := false
  deadCount : Nat := 0
  grants : Nat := 0
  lastCh : Nat := 0
  lastAt : Option Nat := none
  stepAt : Nat := 0
  /-- Starts in progress: motor, grant. -/
  active : List (Nat × Nat) := []
  watches : List DipWatch := []
  /-- Learned dips; none: the declared dip is in use. -/
  learned : Tab (Option Int) := []
  starts : Tab Nat := []
  lastDrop : Tab Nat := []
  starved : List Nat := []
  arming : Bool := true
  host : Bool := false
  session : Bool := false
  deriving DecidableEq, Repr

/-! Fans (chapter 18). -/

/-- A fan channel: FAN_FIX in ‰, integrator (F40), the last loop result, since when the stall conditions hold,
stalled, speed and edges of the last publication, and the pin's working setting: none while the FAN_SAFE level
holds it, else the active MAIN periods H. -/
structure FanSt where
  fix : Nat := 0
  i : Word := 0#40
  loopOut : Int := 104857600
  heldI : Bool := false
  stallSince : Option Nat := none
  stalled : Bool := false
  rpm : Nat := 0
  edges : Nat := 0
  pin : Option Nat := none
  deriving DecidableEq, Repr

/-- Fans, fog mode and the hard trip. -/
structure Fan where
  trip : Bool := false
  /-- CAUSE of FAN_TRIP: 4 threshold, 2 open, 1 short; operating seconds at the setting, none until step 2 of the start
  has taken them. -/
  tripCause : Nat := 0
  tripT : Option Nat := none
  /-- Loaded by admission (R35): owning dryer (15 none), level FULL, its fan channels. -/
  dryer : Nat := 15
  full : Bool := false
  group : List Nat := []
  /-- The channels of the group whose active level is low (POL 1). -/
  groupLow : List Nat := []
  loaded : Bool := false
  /-- The latch was set already as admission loaded the group (R459). -/
  tripLoaded : Bool := false
  chs : Tab FanSt := []
  fog : Bool := false
  hb : Nat := 0
  lastHb : Option Nat := none
  /-- The supervision timer's start. -/
  supFrom : Nat := 0
  /-- Instant of the last speed publication. -/
  pubAt : Option Nat := none
  /-- Per dryer: fan-loss condition since; group runs; fan loss raised. -/
  lossSince : Tab (Option Nat) := []
  running : List Nat := []
  lossRaised : List Nat := []
  deriving DecidableEq, Repr

/-! Motors, gates, heat (chapter 19). -/

/-- A motor channel (Tables 19-1, 19-6). -/
structure MotSt where
  /-- STATE: 0 OFF, 1 STARTING, 2 RUNNING, 3 STOPPING, 4 TRIPPED. -/
  st : Nat := 0
  proved : Bool := false
  cause : Nat := 0
  /-- The interlock that latched TRIPPED. -/
  tcause : Nat := 0
  grantAt : Nat := 0
  stopAt : Option Nat := none
  fb : Bool := false
  fbSince : Nat := 0
  releasedAt : Option Nat := none
  /-- Supervised after the end of the start. -/
  superv : Bool := false
  plugSince : Option Nat := none
  slipSince : Option Nat := none
  ovlSince : Option Nat := none
  /-- Reference ratio of R728 as a fraction. -/
  slipRef : Option (Int × Nat) := none
  /-- Motion rate in Hz as a fraction, edges within W. -/
  rate : Int × Nat := (0, 1)
  edges : Nat := 0
  full : Bool := false
  welded : Bool := false
  deriving DecidableEq, Repr

structure Mot where
  chs : Tab MotSt := []
  /-- Instant of the last motion publication. -/
  pubAt : Option Nat := none
  /-- Motors whose proving or feedback fault has its cause present (Table 9-6). -/
  proveBad : List Nat := []
  fbBad : List Nat := []
  deriving DecidableEq, Repr

/-- A gate channel: target (%, value format; none before the first command), DRIVE, FAIL, first output change of the
move, the positions read in the present move with their instants, newest first, end of a reversal pause. -/
structure GatSt where
  target : Option Int := none
  drive : Nat := 0
  fail : Nat := 0
  moveAt : Option Nat := none
  track : List (Nat × Int) := []
  pauseEnd : Nat := 0
  /-- The output that sank last, and the instant of its release (R735). -/
  lastDir : Nat := 0
  relAt : Nat := 0
  /-- Node status bits 1 and 2 of a remote gate (Table 24-6). -/
  nodeTravel : Bool := false
  nodeStall : Bool := false
  deriving DecidableEq, Repr

structure Gat where
  chs : Tab GatSt := []
  /-- Channels whose GATE_TRAVEL or GATE_STALL cause is present. -/
  travelBad : List Nat := []
  stallBad : List Nat := []
  deriving DecidableEq, Repr

/-- A heat channel: permit, absent since, plenum limit set, permit fault counted, working demand of the pin. -/
structure HtdSt where
  pmt : Bool := false
  /-- Since when the permit is absent with block demand above 0. -/
  lackSince : Option Nat := none
  plen : Bool := false
  pmtBad : Bool := false
  pin : Nat := 0
  deriving DecidableEq, Repr

structure Htd where
  chs : Tab HtdSt := []
  deriving DecidableEq, Repr

end Sys2Proof.Machine
end

