-- ==== Sys2Proof/Machine/State.lean ====
section
/-! DEFINITION. The whole state of the GW64 (one structure for each unit), the reasons a step can stop, and the
state right after reset. -/

namespace Sys2Proof.Machine

open Sys2Proof

/-- The state: the clock in microseconds, the counter of free values taken (the model's own field), the units,
and the queue of waiting commands, first in, first out. -/
structure State where
  now : Nat := 0
  free : Nat := 0
  rst : Rst := {}
  straps : Straps := {}
  pwr : Pwr := {}
  nvm : Nvm := {}
  flt : Flt := {}
  recr : Recr := {}
  start : Start := {}
  prf : Prf := {}
  plt : Plt := {}
  adm : Adm := {}
  eng : Eng := {}
  spn : Spn := {}
  isl : Isl := {}
  fe : Fe := {}
  sw : Sw := {}
  mns : Mns := {}
  stb : Stb := {}
  fan : Fan := {}
  mot : Mot := {}
  gat : Gat := {}
  htd : Htd := {}
  cal : Cal := {}
  can : Can := {}
  syn : Syn := {}
  svc : Svc := {}
  pending : List Instr := []
  deriving DecidableEq, Repr

/-- The reasons a step can fault. -/
inductive Fault where
  /-- No command raises it: the manual gives every command of the block an outcome. Kept so that the type has a
  member; safe. -/
  | unreachable
  deriving DecidableEq, Repr

/-- The reasons a step can refuse a command. -/
inductive Refusal where
  /-- Raised by Dispatch for a command that has no meaning yet. Safe: nothing is claimed of it. -/
  | notModelled (mnemonic : String)
  deriving DecidableEq, Repr

/-- The machine right after reset: the internal chip reset has just been released after a power cycle
(R123: CAUSE 0 with POR 1), step 1 of the start timeline in progress, the queue empty. The array holds no power-cycle count, so
this start's is 1 (R97, R435). -/
def State.reset : State := { pwr := { powerCycles := 1 } }

end Sys2Proof.Machine
end

