-- ==== Sys2Proof/Machine/Ops.lean ====
section
/-! DEFINITION. Operations that every unit shares: free values, bank access, event records (R383 to R402), the
value table (R277 to R284), and the chip reset (R86, R117, R377, R422). -/

namespace Sys2Proof.Machine

open Sys2Proof

/-- The answer of every command that completes. -/
abbrev Res := Host.Outcome State Fault Refusal

/-- Milliseconds of the clock. -/
def msOf (us : Nat) : Nat := us / 1000

/-- Take the next free word: the value is Config's, the counter advances. -/
def takeFree (s : State) : Word × State := (Config.freeWord s.free, { s with free := s.free + 1 })

/-! Record creation. -/

/-- A fault-mirror code. -/
def isMirror (code : Nat) : Bool := code / 0x1000 == 1

/-- The bits of PARAM_B that are not running fields of a code (R400). -/
def fixedB (code : Nat) (b : Word) : Word :=
  if 0x1000 ≤ code ∧ code < 0x1100 then b &&& 0xFFFFF0000F#40 else b

/-- The newest record of the buffer takes a new one as a repeat (R400). -/
def isRepeat (r : Record) (code unit : Nat) (a b : Word) : Bool :=
  r.code == code && r.unit == unit && r.a == a && fixedB code r.b == fixedB code b

/-- A merged repeat (R401). -/
def mergeRecord (r : Record) (op : Nat) (b : Word) : Record :=
  { r with repeats := satAdd 65535 r.repeats 1, minutes := satTo 65535 ((op - r.opSec) / 60), b := b }

/-- Replace the last entry of a list. -/
def setLast {α : Type} : List α → α → List α
  | [], x => [x]
  | [_], x => [x]
  | y :: z :: t, x => y :: setLast (z :: t) x

/-- Remove the first entry that satisfies a predicate. -/
def removeFirst {α : Type} (p : α → Bool) : List α → List α
  | [] => []
  | x :: xs => if p x then xs else x :: removeFirst p xs

/-- Count a displaced or discarded record (R399). -/
def countDrop (r : Recr) (op : Nat) : Recr :=
  { r with dropped := satAdd 65535 r.dropped 1, dropSince := r.dropSince + 1,
           dropOpSec := if r.dropSince == 0 then op else r.dropOpSec }

/-- Put a record at the tail of the buffer, or by the rule of a full buffer (R394, R399); 192 records start a
flush (Table 10-4). -/
def pushRecord (r : Recr) (x : Record) : Recr :=
  if r.buf.length < 256 then
    { r with buf := r.buf ++ [x], flushing := r.flushing || r.buf.length + 1 ≥ 192 }
  else if isMirror x.code && r.buf.any (fun y => !isMirror y.code) then
    countDrop { r with buf := removeFirst (fun y => !isMirror y.code) r.buf ++ [x] } x.opSec
  else countDrop r x.opSec

/-- A record created now. -/
def newRecord (s : State) (code unit : Nat) (a b : Word) : Record :=
  { code := code, unit := unit, opSec := s.cal.opSec, pcc := s.pwr.powerCycles, a := a, b := b, at_ := s.now }

/-- The recorder after a record is created (R394): a repeat of the newest buffered record merges, any other
enters the buffer. -/
def recrAdd (r : Recr) (x : Record) : Recr :=
  match r.buf.getLast? with
  | some y =>
    if isRepeat y x.code x.unit x.a x.b then { r with buf := setLast r.buf (mergeRecord y x.opSec x.b) }
    else pushRecord r x
  | none => pushRecord r x

/-- Create a record. -/
def addRecord (s : State) (code unit : Nat) (a b : Word) : State :=
  { s with recr := recrAdd s.recr (newRecord s code unit a b) }

/-- Start a recorder flush (R395). -/
def startFlush (s : State) : State := { s with recr := { s.recr with flushing := true } }

/-- A number as a parameter word. -/
def pw (n : Nat) : Word := BitVec.ofNat 40 n

/-! The value table. -/

/-- A value as it reads: default of R295 where nothing wrote it. -/
def getVal (s : State) (i : Nat) : Val := tget {} s.eng.vals i

/-- Age in ms at this instant (R278, R282, R283). -/
def valAge (s : State) (v : Val) : Nat :=
  if v.forced then 0
  else match v.at_ with
    | none => 16777215
    | some t => satTo 16777215 (msOf (s.now - t))

/-- STALE_MS that the plate declares for a value. -/
def staleMsOf (s : State) (i : Nat) : Option Nat := (s.plt.plate.vals.find? (·.index == i)).map (·.staleMs)

/-- A quality that an expired age lowers to STALE (R620, Table 7-6). -/
def agesOut (q : Quality) : Bool := q == .good || q == .disagree

/-- The quality a value reads with (R620): STALE beyond its STALE_MS, where no higher quality stands and it is not
BLANKED. -/
def readQ (s : State) (i : Nat) : Quality :=
  let v := getVal s i
  match staleMsOf s i with
  | none => v.q
  | some m => if agesOut v.q && valAge s v > m then .stale else v.q

/-- The quality that the hardware units know: an expired age counts once the 10 ms check has found it (R620). -/
def seenQ (s : State) (i : Nat) : Quality :=
  let v := getVal s i
  if agesOut v.q && s.sw.seen.contains i then .stale else v.q

/-- The status word (Table 7-5). -/
def statusWord (s : State) (i : Nat) : Word :=
  let v := getVal s i
  packW [(39, 32, (readQ s i).code), (31, 8, valAge s v), (7, 0, v.unit)]

/-- A producer's write (R278, R282, R284): word and status together; a forced value ignores it. -/
def putVal (s : State) (i : Nat) (w : Word) (q : Quality) (unit : Nat) : State :=
  let v := getVal s i
  if v.forced then s
  else
    { s with
      eng := { s.eng with vals := tset {} s.eng.vals i ⟨w, q, unit, some s.now, false⟩ }
      sw := { s.sw with seen := s.sw.seen.filter (· != i) } }

/-- Change the quality of a value and leave word, unit and instant. -/
def setQuality (s : State) (i : Nat) (q : Quality) : State :=
  let v := getVal s i
  if v.forced then s else { s with eng := { s.eng with vals := tset {} s.eng.vals i { v with q := q } } }

/-- What a block or switch reads of a value. -/
def readVal (s : State) (i : Nat) : BIn := ⟨qOf (getVal s i).v, readQ s i⟩

/-- What a hardware unit sees of a value. -/
def seenVal (s : State) (i : Nat) : BIn := ⟨qOf (getVal s i).v, seenQ s i⟩

/-- Count one saturation and record VALUE_SATURATED once per source and start (R272). -/
def countSat (s : State) (src unit : Nat) (w : Word) : State :=
  let s1 := { s with eng := { s.eng with satLast := src, satCount := satAdd 8388607 s.eng.satCount 1, sat := true } }
  if s.eng.satOnce.contains src then s1
  else addRecord { s1 with eng := { s1.eng with satOnce := src :: s1.eng.satOnce } } 0x0009 unit (pw src) w

/-- Count a list of saturations of one source. -/
def countSats (s : State) (src unit : Nat) : List Word → State
  | [] => s
  | w :: ws => countSats (countSat s src unit w) src unit ws

/-! The array's words. -/

/-- The location of R411. -/
def locOf (bank row word : Nat) : Nat := (bank % 4) * 524288 + (row % 1024) * 512 + word % 512
def locBank (l : Nat) : Nat := l / 524288
def locRow (l : Nat) : Nat := (l / 512) % 1024
def locWord (l : Nat) : Nat := l % 512

/-- Bank b of the array. -/
def getBank (n : Nvm) (b : Nat) : Bank :=
  match b with | 0 => n.bank0 | 1 => n.bank1 | 2 => n.bank2 | _ => n.bank3
def setBank (n : Nvm) (b : Nat) (x : Bank) : Nvm :=
  match b with
  | 0 => { n with bank0 := x } | 1 => { n with bank1 := x } | 2 => { n with bank2 := x } | _ => { n with bank3 := x }

/-- A row whose erase sequence runs reads ERASING (R306). -/
def isErasing (n : Nvm) (bank row : Nat) : Bool :=
  match (getBank n bank).erase with | some e => e.row == row | none => false

/-- The data bits of a cell. -/
def NvCell.raw : NvCell → Word
  | .erased => 0xFFFFFFFFFF#40
  | .clean w => w
  | .corrected w => w
  | .uncorr w => w

/-- What a word reads as (Table 8-1); a word of a row whose erase runs has the consequence of UNCORR (R301). -/
def cellAt' (n : Nvm) (l : Nat) : NvCell :=
  let c := tget .erased n.cells l
  if isErasing n (locBank l) (locRow l) then .uncorr c.raw else c

/-- A word that reads CLEAN or CORRECTED (R301: every other word counts as never written). -/
def nvWord (n : Nvm) (l : Nat) : Option Word :=
  match cellAt' n l with
  | .clean w => some w
  | .corrected w => some w
  | _ => none

/-- The data a read returns (Table 8-1). -/
def nvRaw (n : Nvm) (l : Nat) : Word := (cellAt' n l).raw

/-- Program a word: every cell of it takes the new codeword (R304). -/
def nvPut (n : Nvm) (l : Nat) (w : Word) : Nvm := { n with cells := tset .erased n.cells l (.clean w) }

/-- The words of a row that the cells list. -/
def rowLocs (bank row : Nat) : List Nat := rangeFrom (locOf bank row 0) 512

/-- Erase a row: every word reads ERASED. -/
def nvErase (n : Nvm) (bank row : Nat) : Nvm :=
  { n with cells := n.cells.filter (fun c => c.1 / 512 != locOf bank row 0 / 512),
           torn := n.torn.filter (· != locOf bank row 0) }

/-- The newest word of a rotation set (R317): the highest value, the lower word number on a tie. -/
def newestRot (n : Nvm) (base : Nat) (f : Word → Nat) : Option (Nat × Nat) :=
  (rangeFrom 0 64).foldl (fun best k =>
    match nvWord n (locOf 2 162 (base + k)) with
    | none => best
    | some w => match best with
      | none => some (k, f w)
      | some b => if f w > b.2 then some (k, f w) else some b) none

/-- The next word of a rotation set. -/
def nextRot (n : Nvm) (base : Nat) (f : Word → Nat) : Nat :=
  match newestRot n base f with
  | none => locOf 2 162 base
  | some (k, _) => locOf 2 162 (base + (k + 1) % 64)

/-- Newest stored power-cycle count and operating seconds (R317). -/
def storedPcc (n : Nvm) : Nat := match newestRot n 64 (fun w => fld w 23 0) with | some (_, v) => v | none => 0
def storedOpSec (n : Nvm) : Nat := match newestRot n 0 (·.toNat) with | some (_, v) => v | none => 0

/-! The chip reset. -/

/-- One interrupted word program: it may read UNCORR, CLEAN with the old or the new value, or ERASED (R339); a
free value chooses. -/
def tearWord (s : State) (x : Nat × Word) : State :=
  let (f, s) := takeFree s
  let cells := s.nvm.cells
  let cells' := match f.toNat % 4 with
    | 0 => cells
    | 1 => tset .erased cells x.1 (.clean x.2)
    | 2 => tset .erased cells x.1 .erased
    | _ => tset .erased cells x.1 (.uncorr f)
  { s with nvm := { s.nvm with cells := cells' } }

def tearWords (s : State) : List (Nat × Word) → State
  | [] => s
  | x :: xs => tearWords (tearWord s x) xs

/-! What a turn does to its word. -/

/-- Rows whose words are written once (R312). -/
def writeOnceRow (bank row : Nat) : Bool := (bank == 0 || bank == 1) && 800 ≤ row && row ≤ 831

/-- Outcome of a program to write-once words (R312, R313): 0 OK, 1 OK_SAME, 2 WRITTEN_ONCE. -/
def onceOutcome (n : Nvm) (ws : List (Nat × Word)) : Nat :=
  let differs := ws.any (fun x => cellAt' n x.1 != .erased && nvRaw n x.1 != x.2)
  let fresh := ws.any (fun x => cellAt' n x.1 == .erased)
  if differs then 2 else if fresh then 0 else 1

/-- A rewrite of the scrubber is made only of a word that still reads CORRECTED with the same data (R326, R337). -/
def rewriteStale (n : Nvm) (t : Store) (x : Nat × Word) : Bool :=
  t.owner == .scrubRewrite && cellAt' n x.1 != .corrected x.2

/-- Write-once comparison applies to a store (R312, R315). -/
def onceStore (t : Store) : Bool :=
  t.owner != .scrubRewrite && t.owner != .retireCopy &&
    (match t.words with | [] => false | w :: _ => writeOnceRow (locBank w.1) (locRow w.1))

/-- What the end of a word's turn found: nothing was programmed since another value stands there, or since there is nothing
to program; else the program, with whether its verify differs. -/
inductive WordOut where
  | refused
  | skipped
  | programmed
  | differs
  deriving DecidableEq, Repr

/-- The outcome of a word's turn (R304, R312, R326). A second store of R304 repeats the program of the first; a program of
another owner in between drops the second store of a correction rewrite. -/
def wordOut (n : Nvm) (t : Store) (x : Nat × Word) (differs : Bool) : WordOut :=
  if t.second then (if differs then .differs else .programmed)
  else if onceStore t && onceOutcome n t.words == 2 then .refused
  else if rewriteStale n t x || (onceStore t && nvRaw n x.1 == x.2 && cellAt' n x.1 != .erased) then .skipped
  else if differs then .differs
  else .programmed

/-- The word whose program is in progress in a bank; a turn that programs nothing has none. The copy of a retirement goes to a
spare row, which holds nothing yet. -/
def wordInHand (n : Nvm) (x : Bank) : Option (Nat × Word) :=
  match x.hand with
  | none => none
  | some h =>
    match h.words with
    | [] => none
    | w :: _ => if h.owner == .retireCopy || wordOut n h w false != .programmed then none else some w

/-- The words whose program is in progress. -/
def turnsInHand (s : State) : List (Nat × Word) := (rangeFrom 0 4).filterMap (fun b => wordInHand s.nvm (getBank s.nvm b))

/-- The words of a stored record in the order in which R393 programs them. -/
def recordWords (l : Nat) (x : Record) : List (Nat × Word) :=
  [(l + 1, pw x.opSec), (l + 2, packW [(39, 16, x.pcc), (15, 0, x.minutes)]), (l + 3, x.a), (l + 4, x.b),
   (l, packW [(39, 24, x.code), (23, 16, x.unit), (15, 0, x.repeats)])]

/-- The words of a chunk, in order. -/
def chunkWords (c : Chunk) : List (Nat × Word) :=
  (match c.header with | none => [] | some h => [h]) ++ c.recs.flatMap (fun r => recordWords r.2.1 r.2.2)

/-- The erase sequence of a bank has begun a pulse. -/
def pulseBegun (x : Bank) (e : EraseSeq) : Bool :=
  decide (e.pulses > 0) || (match x.hand with | some t => t.kind == .erase | none => false)

/-- Rows whose erase sequence has begun. -/
def rowsErasing (n : Nvm) : List Nat :=
  (rangeFrom 0 4).filterMap (fun b =>
    let x := getBank n b
    match x.erase with | some e => if pulseBegun x e then some (locOf b e.row 0) else none | none => none)

/-- The listed words of rows whose erase a reset cuts off: each may hold any pattern (R338). -/
def cellsErasing (n : Nvm) : List (Nat × Word) :=
  let rows := rowsErasing n
  (n.cells.filter (fun c => rows.contains (c.1 / 512 * 512))).map (fun c => (c.1, c.2.raw))

/-- What the array keeps through a chip reset: its words, the redirection with the counts that it rests on, the shipment
counts, and the place of the last calibration entry. -/
def nvmKept (n : Nvm) : Nvm :=
  { cells := n.cells, redirect := n.redirect, spareCells := n.spareCells, oldCells := n.oldCells, wearBase := n.wearBase, calLast := n.calLast,
    torn := rowsErasing n ++ n.torn,
    bank0 := { factory := n.bank0.factory, spares := n.bank0.spares },
    bank1 := { factory := n.bank1.factory, spares := n.bank1.spares },
    bank2 := { factory := n.bank2.factory, spares := n.bank2.spares },
    bank3 := { factory := n.bank3.factory, spares := n.bank3.spares } }

/-- What the collector keeps: the fatal latch and the watchdog expiry count (R377), lost at the VCORE power-on
reset (R360, R365). -/
def fltKept (f : Flt) (por : Bool) : Flt :=
  if por then {}
  else { fatal := f.fatal, fatalSrc := f.fatalSrc, fatalParam := f.fatalParam, fatalUnit := f.fatalUnit, fatalRecorded := f.fatalRecorded,
         expiries := f.expiries, expiryTick := f.expiryTick, expiryDue := f.expiryDue }

end Sys2Proof.Machine
end

