-- ==== Sys2Proof/Machine/MapOps.lean ====
section
/-! DEFINITION. Reading the repair map (R476 to R478), and the lane steering that it gives from reset (R212). -/

namespace Sys2Proof.Machine

open Sys2Proof

/-- Location of copy word i of copy 0 (A) or 1 (B). -/
def mapLoc (copy i : Nat) : Nat := locOf copy (816 + i / 512) (i % 512)

/-- MAGIC of a copy reads (R476). -/
def magicOk (n : Nvm) (copy : Nat) : Bool := nvWord n (mapLoc copy 0) == some 0x4D50525747#40

/-- Indices in use: up to the first at which both copies read ERASED. -/
def mapEnd (n : Nvm) : Nat → Nat → Nat
  | 0, i => i
  | k + 1, i =>
    if cellAt' n (mapLoc 0 (2 + i)) == .erased && cellAt' n (mapLoc 1 (2 + i)) == .erased then i else mapEnd n k (i + 1)

/-- The entries that apply at an index (Table 12-7). -/
def mapAt (n : Nvm) (i : Nat) : List Word :=
  let a := nvWord n (mapLoc 0 (2 + i))
  let b := nvWord n (mapLoc 1 (2 + i))
  match a, b with
  | some x, some y => if x == y then [x] else [x, y]
  | some x, none => [x]
  | none, some y => [y]
  | none, none => []

def mapEntries (n : Nvm) (used : Nat) : List Word := (rangeFrom 0 used).flatMap (mapAt n)

def entKind (e : Word) : Nat := fld e 39 36
def entField (e : Word) : Bool := bitOf e 35

/-- A spine lane steered around, or a dead link direction (R174, R200). -/
def mapLane (t : Tab Link) (e : Word) : Tab Link :=
  let d := fld e 16 8
  let l := fld e 5 0
  let x := tget {} t d
  tset {} t d (if l == 63 then { x with dead := true }
    else if x.bad0 == l || x.bad1 == l then x
    else if x.bad0 == 63 then { x with bad0 := l }
    else if x.bad1 == 63 then { x with bad1 := l }
    else { x with dead := true })

/-- The lanes steered by a list of entries. -/
def mapLanes (t : Tab Link) : List Word → Tab Link
  | [] => t
  | e :: es => mapLanes (if entKind e == 5 then mapLane t e else t) es

/-- An entry as the boot ROM takes it: copy A's, or copy B's where copy A's fails its check (R212, R498). -/
def bootEntry (n : Nvm) (i : Nat) : List Word :=
  match (if magicOk n 0 then nvWord n (mapLoc 0 (2 + i)) else none), magicOk n 1 with
  | some w, _ => [w]
  | none, true => (nvWord n (mapLoc 1 (2 + i))).toList
  | none, false => []

/-- The entries that apply from reset (R212, R345). -/
def bootEntries (n : Nvm) : List Word :=
  if magicOk n 0 || magicOk n 1 then (rangeFrom 0 (mapEnd n 8190 0)).flatMap (bootEntry n) else []

/-- The links from reset to the proof (R212). -/
def bootLinks (n : Nvm) : Tab Link := mapLanes [] (bootEntries n)

/-! Row redirection (R345). -/

/-- The key of a spare row's word. -/
def spareKey (b k w : Nat) : Nat := b * 16384 + k * 512 + w

/-- The redirection of an entry of KIND 4 (Table 12-5): location of the row's word 0, 1 024 plus the spare's number. An entry
that marks a spare used redirects none. -/
def mapRedirect (t : Tab Nat) (e : Word) : Tab Nat :=
  let row := fld e 20 10
  if entKind e == 4 && row < 1024 then tset 0 t (locOf (fld e 22 21) row 0) (1024 + fld e 4 0) else t

/-- The form of a redirection table: canonical, its indexes first words of rows. -/
def redirectOk (t : Tab Nat) : Bool := tabWf 0 t && t.all (fun e => e.1 % 512 == 0)

/-- The words of a row take what a function gives for them. -/
def putRow (t : Tab NvCell) (base : Nat) (f : Nat → NvCell) : Tab NvCell :=
  (rangeFrom 0 512).foldl (fun (t : Tab NvCell) w => tset .erased t (base + w) (f w)) t

/-- A row is redirected to a spare row: its words are the spare's, and what it holds itself stands by. -/
def enterSpare (n : Nvm) (b row k : Nat) : Nvm :=
  let base := locOf b row 0
  { n with
    cells := putRow n.cells base (fun w => tget .erased n.spareCells (spareKey b k w))
    oldCells := putRow n.oldCells base (fun w => tget .erased n.cells (base + w))
    spareCells := putRow n.spareCells (spareKey b k 0) (fun _ => .erased)
    redirect := tset 0 n.redirect base (1024 + k) }

/-- A row is no longer redirected to its spare row: its words are its own again, and those of the spare stand by. -/
def leaveSpare (n : Nvm) (base : Nat) : Nvm :=
  let k := tget 0 n.redirect base - 1024
  { n with
    cells := putRow n.cells base (fun w => tget .erased n.oldCells (base + w))
    oldCells := putRow n.oldCells base (fun _ => .erased)
    spareCells := putRow n.spareCells (spareKey (locBank base) k 0) (fun w => tget .erased n.cells (base + w))
    redirect := tset 0 n.redirect base 0 }

/-- The array under a redirection: rows leave their spares, then others take theirs. -/
def redirectTo (n : Nvm) (t : Tab Nat) : Nvm :=
  let n := n.redirect.foldl (fun (n : Nvm) e => if tget 0 t e.1 == e.2 then n else leaveSpare n e.1) n
  t.foldl (fun (n : Nvm) e =>
    if tget 0 n.redirect e.1 == e.2 then n else enterSpare n (locBank e.1) (locRow e.1) (e.2 - 1024)) n

/-- The redirection that the bank controllers apply from reset (R345). -/
def bootNvm (n : Nvm) : Nvm := redirectTo n ((bootEntries n).foldl mapRedirect [])

end Sys2Proof.Machine
end

