-- ==== Sys2Proof/Machine/FaultOps.lean ====
section
/-! DEFINITION. The fault collector's operations: the source table (Table 9-6), raising (R355), repeats (R356),
reactions (R353, R354), the fatal sequence (R360), acknowledging and clearing (R357, R358), and the stop of plant
sections by a fault reaction (R448). -/

namespace Sys2Proof.Machine

open Sys2Proof

/-- One row of Table 9-6: name index, default class, allowed and default reactions. Reaction bits, as in Table 9-10:
4 I, 3 N, 2 B, 1 C, 0 P. -/
structure SrcRow where
  cls : FClass
  allowed : Nat
  react : Nat
  /-- The unit of the source, where Table 9-6 names one unit (Table 10-2 code). -/
  unit : Nat
  deriving DecidableEq, Repr

def rIP : Nat := 0x11
def rI : Nat := 0x10
def rP : Nat := 0x01
def rIBP : Nat := 0x15
def rINP : Nat := 0x19

/-- Sources 0x00 to 0x1F. -/
def srcRowsA : List SrcRow :=
  [⟨.degraded, rIP, rIP, 2⟩, ⟨.fatal, rP, rP, 2⟩, ⟨.fatal, rP, rP, 1⟩, ⟨.fatal, rP, rP, 8⟩,
   ⟨.fatal, rP, rP, 6⟩, ⟨.fatal, rP, rP, 2⟩, ⟨.severe, rINP, rIP, 5⟩, ⟨.severe, rINP, rIP, 5⟩,
   ⟨.severe, rIP, rIP, 5⟩, ⟨.severe, rIP, rIP, 9⟩, ⟨.severe, rIBP, rIBP, 9⟩, ⟨.severe, rIP, rIP, 9⟩,
   ⟨.severe, rIP, rIP, 0x1A⟩, ⟨.severe, rIP, rIP, 6⟩, ⟨.degraded, rIP, rIP, 1⟩, ⟨.advisory, rIP, rI, 1⟩] ++
  [⟨.degraded, rIP, rIP, 0x18⟩, ⟨.degraded, rIP, rIP, 9⟩, ⟨.severe, rIBP, rIP, 8⟩, ⟨.degraded, rIBP, rIP, 8⟩,
   ⟨.advisory, rIP, rI, 8⟩, ⟨.advisory, rIP, rI, 9⟩, ⟨.degraded, rIP, rIP, 0x0E⟩, ⟨.degraded, rIP, rIP, 6⟩,
   ⟨.advisory, rIP, rI, 6⟩, ⟨.advisory, rIP, rI, 6⟩, ⟨.degraded, rIP, rIP, 6⟩, ⟨.degraded, rIP, rIP, 0x19⟩,
   ⟨.degraded, rIP, rIP, 7⟩, ⟨.severe, rIP, rIP, 7⟩, ⟨.severe, 0x0B, 0x0B, 4⟩, ⟨.degraded, rIP, rIP, 4⟩]

/-- Sources 0x20 to 0x3F. -/
def srcRowsB : List SrcRow :=
  [⟨.advisory, rIP, rI, 4⟩, ⟨.severe, 0x1F, rIBP, 4⟩, ⟨.advisory, rIP, rI, 4⟩, ⟨.advisory, rIP, rI, 4⟩,
   ⟨.degraded, rIP, rIP, 4⟩, ⟨.advisory, rIP, rI, 4⟩, ⟨.degraded, rIP, rIP, 5⟩, ⟨.advisory, rIP, rI, 5⟩,
   ⟨.degraded, rIP, rIP, 0x0A⟩, ⟨.degraded, rIP, rIP, 0x0A⟩, ⟨.advisory, rIP, rI, 0x0A⟩, ⟨.degraded, rIP, rIP, 0x0A⟩,
   ⟨.advisory, rIP, rI, 0x0A⟩, ⟨.degraded, rIBP, rIP, 0x0A⟩, ⟨.degraded, rIBP, rIP, 0x0A⟩, ⟨.degraded, rIP, rIP, 0x0A⟩] ++
  [⟨.degraded, rIBP, rIP, 0x0A⟩, ⟨.severe, rIBP, rIP, 0x0A⟩, ⟨.advisory, rIP, rI, 0x0B⟩, ⟨.advisory, rIP, rI, 0x0B⟩,
   ⟨.degraded, rIP, rIP, 0x0B⟩, ⟨.degraded, rIP, rIP, 0x0B⟩, ⟨.advisory, rIP, rI, 0x0B⟩, ⟨.advisory, rIP, rI, 0x0B⟩,
   ⟨.advisory, rIP, rI, 0x0C⟩, ⟨.degraded, rIP, rIP, 0x0D⟩, ⟨.severe, rIP, rIP, 0x0D⟩, ⟨.severe, rIP, rIP, 0x0D⟩,
   ⟨.severe, rIP, rIP, 0x0D⟩, ⟨.degraded, rIP, rIP, 1⟩, ⟨.degraded, rIP, rIP, 0x0E⟩, ⟨.degraded, rIP, rIP, 0x0E⟩]

/-- Sources 0x40 to 0x5F. -/
def srcRowsC : List SrcRow :=
  [⟨.degraded, rIP, rIP, 0x0E⟩, ⟨.degraded, rIP, rIP, 0x0E⟩, ⟨.degraded, rIP, rIP, 0x0E⟩, ⟨.advisory, rIP, rI, 0x0E⟩,
   ⟨.degraded, rIP, rIP, 0x0F⟩, ⟨.degraded, rIP, rIP, 0x0F⟩, ⟨.degraded, rIP, rIP, 0x10⟩, ⟨.degraded, rIBP, rIP, 0x12⟩,
   ⟨.advisory, rIP, rI, 0x12⟩, ⟨.degraded, rIP, rIP, 0x12⟩, ⟨.degraded, rIP, rIP, 1⟩, ⟨.degraded, rIP, rIP, 1⟩,
   ⟨.advisory, rIP, rI, 1⟩, ⟨.advisory, rIP, rI, 0x16⟩, ⟨.advisory, rIP, rI, 0x11⟩, ⟨.advisory, rIP, rI, 0x11⟩] ++
  List.replicate 16 ⟨.advisory, rIP, rIP, 0x40⟩

def srcRows : List SrcRow := srcRowsA ++ srcRowsB ++ srcRowsC

/-- The row of a source; reserved numbers answer a row without reactions. -/
def srcRow (n : Nat) : SrcRow := srcRows.getD n ⟨.advisory, 0, 0, 2⟩

/-- A source number of Table 9-6. -/
def isSrc (n : Nat) : Bool := n < 0x60

/-- A unit that Table 9-6 names for a source (R386): that of a ball for OUT_SHORT, a logical tile for a plant alarm, one of the
four controllers for a CAN source. -/
def srcUnit (n unit : Nat) : Bool :=
  let u := (srcRow n).unit
  if n == 0x16 then [0x02, 0x0A, 0x0D, 0x0E, 0x0F, 0x10].contains unit
  else if u == 0x40 then decide (0x40 ≤ unit ∧ unit ≤ 0x7F)
  else if u == 0x12 then decide (0x12 ≤ unit ∧ unit ≤ 0x15)
  else unit == u

/-- Configured class and reaction set: the plate's where its FAULTS section gives them, else Table 9-6's. -/
def cfgOf (f : Flt) (n : Nat) : FClass × Nat :=
  match tget none f.cfg n with
  | some c => c
  | none => ((srcRow n).cls, (srcRow n).react)

def reactHas (r bit : Nat) : Bool := bitsN r bit bit == 1

def getSrc (f : Flt) (n : Nat) : Src := tget {} f.src n
def setSrc (f : Flt) (n : Nat) (x : Src) : Flt := { f with src := tset {} f.src n x }

/-- PARAM_B of a fault mirror (R367). -/
def mirrorB (cfg eff : FClass) (repeats : Nat) : Word := packW [(1, 0, cfg.code), (3, 2, eff.code), (19, 4, repeats)]

/-- Record a fault mirror of a source in its present state; `base` is 0x1000, 0x1100 or 0x1200. -/
def mirror (s : State) (base n : Nat) (eff : FClass) (repeats : Nat) : State :=
  let x := getSrc s.flt n
  addRecord s (base + n) x.unit x.param (mirrorB (cfgOf s.flt n).1 eff repeats)

/-- Another source is uncleared and unacknowledged with the same configured class (R355). -/
def escalates (f : Flt) (n : Nat) (c : FClass) : Bool :=
  c != .fatal && f.src.any (fun e => e.1 != n && e.2.uncleared && !e.2.acked && (cfgOf f e.1).1 == c)

/-- Push an entry into the history queue (R366). -/
def histPush (f : Flt) (e : HistEnt) : Flt :=
  { f with raises := (f.raises + 1) % 65536, order := f.order + 1,
           hist := tset none f.hist ((f.raises % 65536) % 16) (some e) }

/-! Sections. -/

def sectCfg (s : State) (n : Nat) : Option SectCfg :=
  if s.plt.admitted then s.plt.plate.sects.find? (·.sect == n) else none
def getSect (s : State) (n : Nat) : Sect := tget {} s.start.sects n
def setSect (s : State) (n : Nat) (x : Sect) : State :=
  { s with start := { s.start with sects := tset {} s.start.sects n x } }

/-- Write a section's run request (R445): the RUN value, with unit code 0x04. -/
def writeRun (s : State) (n : Nat) (b : Bool) : State :=
  let s1 := setSect s n { getSect s n with run := b }
  match sectCfg s n with
  | none => s1
  | some c => putVal s1 c.run (qWord (qBool b)) .good 0x04

/-- The section's blocks have written the phase since its last stop, so that it tells how far the stop has come (R447, R461;
DEDUCED, assumption 52). -/
def phaseFresh (x : Sect) (v : Val) : Bool :=
  match x.stopAt with
  | none => true
  | some t => match v.at_ with | none => false | some a => decide (t < a)

/-- The state of a section from its phase (Table 11-5); a phase value that is not GOOD, or no phase 0 to 3, holds
it, and HELD lasts until an operator restart. Run request 1 with phase 3, which no row of Table 11-5 has, holds the state last
derived (DESIGN CHOICE, assumption 52). -/
def deriveSect (s : State) (n : Nat) : State :=
  match sectCfg s n with
  | none => s
  | some c =>
    let v := getVal s c.phase
    let x := getSect s n
    let z := qOf v.v
    if readQ s c.phase != .good || x.st == 5 || z < 0 || z % qOne != 0 || z > 3 * qOne || !phaseFresh x v then s
    else
      let ph := (z / qOne).toNat
      let st := if ph == 0 then (if x.faultStop then 5 else if x.run then 2 else 1)
        else if x.run then (if ph == 1 then 2 else if ph == 2 then 3 else x.st)
        else 4
      setSect s n { x with st := st, phase := ph }

/-- Stop one section: run request 0 and SECTION_STOP with the reason of Table 10-7 (R447, R448). -/
def stopSect (s : State) (n reason : Nat) : State :=
  let x := getSect s n
  let s := setSect s n { x with st := 4, lastStop := reason, stopAt := some s.now }
  addRecord (writeRun s n false) 0x2003 1 (pw n) (pw reason)

/-- A plant fault reaction stops a section that starts, runs or stops (R448, R462). -/
def faultStopSect (s : State) (src n : Nat) : State :=
  let x := getSect s n
  if x.st == 2 || x.st == 3 || x.st == 4 then
    let s := setSect s n { x with stoppedBy := src, faultStop := true }
    stopSect s n 1
  else s

def faultStopSects (s : State) (src : Nat) : List Nat → State
  | [] => s
  | n :: ns => faultStopSects (faultStopSect s src n) src ns

/-- The sections that the plate stops for a source (FAULTS table 2). -/
def stopList (s : State) (src : Nat) : List Nat :=
  if !s.plt.admitted then []
  else match s.plt.plate.faults.find? (·.src == src) with
    | none => []
    | some f => if f.stop then (rangeFrom 0 32).filter (fun n => bitsN f.mask n n == 1) else []

/-! Chip reset. -/

/-- The holders with one more. -/
def addHolder (hs : List Nat) (code : Nat) : List Nat := if hs.contains code then hs else code :: hs

/-- The reset unit while the internal chip reset is held (R86, R56, R123). -/
def rstIn (r : Rst) (code : Nat) : Rst :=
  { held := true
    holders := if r.held then addHolder r.holders code else [code]
    por := code == 2 || (r.held && r.por)
    cause := r.cause
    t0 := r.t0
    latchTrip := code == 0 || code == 4 || (r.held && r.latchTrip)
    sessCut := if code == 2 then none else r.sessCut
    extest := r.extest }

/-- The supplies in a chip reset: what is measured stays, everything else restarts. -/
def pwrKept (p : Pwr) : Pwr :=
  { vcoreMv := p.vcoreMv, vioMv := p.vioMv, vanaMv := p.vanaMv, vbkupMv := p.vbkupMv, vanaLow := p.vanaLow
    vbkupLow := p.vbkupLow, snsPin := p.snsPin, snsCode := p.snsCode, energyUj := p.energyUj, pfwPin := p.pfwPin }

/-- The straps in a chip reset: what was latched governs until the next sampling (R56, R53), the check of R74 restarts. -/
def strapsKept (t : Straps) : Straps := { latched := t.latched, isOpen := t.isOpen, present := t.present, tripN := t.tripN }

/-- The trip unit in a chip reset (R57, R35): RESET_N and the VANA power-on reset clear the latch; the fan group and
level stay while the fatal latch is set, unless the reset clears a latch that was set. -/
def fanKept (f : Fan) (clear fatal : Bool) : Fan :=
  let k : Fan := if f.trip && !clear then { trip := true, tripCause := f.tripCause, tripT := f.tripT } else {}
  if fatal && !(f.trip && clear) then { k with dryer := f.dryer, full := f.full, group := f.group, groupLow := f.groupLow, loaded := f.loaded }
  else k

/-- The switches that keep their fault states while the fatal latch is set (R45): those whose pin the plate enabled; after
the first chip reset no others are left. -/
def swsKept (s : State) : Tab SwSt :=
  if s.plt.admitted then s.sw.sws.filter (fun e => s.plt.plate.sws.any (fun c => c.sw == e.1 && c.pinEn)) else s.sw.sws

/-- The bytes of a 4 KiB sector erased. -/
def flashErase (f : Tab Byte) (addr : Nat) : Tab Byte := f.filter (fun e => e.1 < addr || addr + 4096 ≤ e.1)

/-- The flash at a chip reset, which aborts the access (R73): an erase begun has removed its sector and a program begun has
programmed nothing, so that a slot under write holds no MAGIC (R523). -/
def flashKept (p : Plt) : Tab Byte :=
  match p.write.op with
  | some ⟨_, addr, none, _⟩ => flashErase p.flash addr
  | _ => p.flash

/-- What a reset cuts off: the role of the session in progress and the number of its overrides (R39, R960). -/
def cutNow (s : State) : Option (Nat × Nat) :=
  match s.svc.sess with | some x => some (x.role, s.svc.ovr.length) | none => s.rst.sessCut

/-- The state in a chip reset (R117, R377, R422 and the units' own rules): every unit as at reset, less what its
chapter keeps; the links steer as the repair map says (R212). `code` is the holder in the order of CAUSE (R123). -/
def chipReset (s : State) (code : Nat) : State :=
  let s := tearWords (tearWords s (turnsInHand s)) (cellsErasing s.nvm)
  { now := s.now
    free := s.free
    pending := s.pending
    rst := rstIn { s.rst with sessCut := cutNow s } code
    straps := strapsKept s.straps
    pwr := pwrKept s.pwr
    nvm := bootNvm (nvmKept s.nvm)
    spn := { links := bootLinks (nvmKept s.nvm) }
    flt := fltKept s.flt (code == 2)
    plt := { flash := flashKept s.plt }
    cal := { s.cal with sets := 0, now1 := 0#40, evalDue := none }
    fan := fanKept s.fan (code == 0 || code == 4) (s.flt.fatal && code != 2)
    sw := if code == 2 || s.sw.held.isNone then {} else { held := s.sw.held, sws := swsKept s } }

/-! The fatal sequence. -/

/-- KEEPER_SPLIT, WDOG_FATAL and COLLECTOR_SELF reset the chip at once (Table 9-4 step 3). -/
def fatalAtOnce (n : Nat) : Bool := n == 0x01 || n == 0x02 || n == 0x05

/-- A switch as a fatal fault leaves it (R45): ON on, OFF off, HOLD unchanged. -/
def fatalSw (c : SwCfg) (on : Bool) : Bool := if c.fstate == 1 then true else if c.fstate == 0 then false else on

/-- Each switch whose pin the plate enabled takes its fault state (R45). -/
def fatalSws (ws : Tab SwSt) : List SwCfg → Tab SwSt
  | [] => ws
  | c :: cs =>
    fatalSws (if c.pinEn then tset {} ws c.sw { on := fatalSw c (tget {} ws c.sw).on, fs := true, since := none } else ws) cs

/-- The TSW balls that sink at a fatal fault, from the switches as they stand then (R45, R628). -/
def fatalSink (ws : Tab SwSt) (cs : List SwCfg) : Nat :=
  maskOf ((rangeFrom 0 32).map (fun n =>
    match cs.find? (fun c => c.sw == n && c.pinEn) with
    | none => false
    | some c => (tget {} ws n).on != c.pinPol))

/-- Steps 1 to 3 of Table 9-4: the latch, the stop of tiles and watchdog, the safe levels (which follow from the
latch), and the flush. The sources that reset the chip at once do so through `latchReset`. -/
def fatalLatch (s : State) (n : Nat) (param : Word) : State :=
  if s.flt.fatal then s
  else
    let f := { s.flt with
      fatal := true
      fatalSrc := n
      fatalParam := param
      fatalUnit := (getSrc s.flt n).unit
      fatalRecorded := false }
    let ws := fatalSws s.sw.sws s.plt.plate.sws
    let s := { s with
      flt := { f with fatalAt := some s.now, wdogOn := false, beacon := false }
      sw := { s.sw with sws := ws, held := some (fatalSink ws s.plt.plate.sws) } }
    if fatalAtOnce n then s else startFlush s

/-! Raising. -/

/-- The keeper is hung, as an expiry of the watchdog has found (R365). -/
def isHung (s : State) : Bool := s.flt.hungAt.isSome

/-- The keeper has missed a kick of the watchdog (R364): it hangs, though no expiry has found it yet (DEDUCED, assumption 49). -/
def kickMissed (f : Flt) (now : Nat) : Bool := f.wdogOn && decide (f.wdogKick + 100000 < now)

/-- The keeper takes no interrupt: it is hung (R380). -/
def keeperDeaf (s : State) : Bool := isHung s || kickMissed s.flt s.now

/-- The plant response of INT or NMI (R353): the sections the plate names stop. It waits while the keeper is hung (R380). -/
def plantResponse (s : State) (n : Nat) : State :=
  if isHung s then s
  else if kickMissed s.flt s.now then { s with flt := setSrc s.flt n { getSrc s.flt n with waits := true, plant := false } }
  else faultStopSects s n (stopList s n)

/-- A plant response that has waited is given once the keeper is heard of again. -/
def lateResponse (s : State) (n : Nat) : State :=
  let x := getSrc s.flt n
  if !x.waits then s
  else
    let s := { s with flt := setSrc s.flt n { x with waits := false, plant := x.uncleared && s.plt.admitted } }
    if x.uncleared then faultStopSects s n (stopList s n) else s

def lateResponses (s : State) : List Nat → State
  | [] => s
  | n :: ns => lateResponses (lateResponse s n) ns

/-- The island that BLOCK_RESET of a source flushes: CONV for the front end, a CAN island for CAN_BUS_OFF. -/
def blockIsland (n : Nat) (param : Word) : Option Nat :=
  if (srcRow n).unit == 0x0A then some 6 else if n == 0x47 then some (1 + param.toNat % 4) else none

/-- The spine's reset: the packets on their way are lost, and the arbiters of the router ports are idle, less the freezes that the
keeper has set. -/
def spineReset (x : Spn) : Spn :=
  { x with
    cross := []
    bad := []
    arbs := (x.arbs.filter (fun e => decide (e.1 < 256) || e.2.frozen)).map (fun e =>
      (e.1, if e.1 < 256 then e.2 else { frozen := true })) }

/-- BLOCK_RESET (Table 9-2): the reset of the reporting unit; for an island the flush of Table 6-8 follows, which RESET_FLUSH
completes. A STOPPED island takes that flush as its clock returns, so ISLAND_CLOCK_STOP asks for no other. The turn of a bank
that NVM_TIMEOUT names ends with R343 in any case. -/
def blockReset (s : State) (n : Nat) (param : Word) : State :=
  if n == 0x12 || n == 0x13 then { s with spn := spineReset s.spn }
  else match blockIsland n param with
  | none => s
  | some i =>
    let x := s.isl.isls.getD i {}
    if x.st == 1 || x.st == 2 then { s with isl := { s.isl with isls := listSet s.isl.isls i { x with st := 4 } } } else s

/-- Actions bound to the effective class and reactions of the source (Tables 9-1 and 9-2, order of R354), while
no fatal latch was set before. -/
def reactTo (s : State) (n : Nat) (param : Word) (c : FClass) : State :=
  let r := (cfgOf s.flt n).2
  let s := if c == .advisory then s else startFlush s
  let s := if reactHas r 2 then blockReset s n param else s
  let s := if reactHas r 4 || reactHas r 3 || c == .severe || c == .fatal then plantResponse s n else s
  let s := if reactHas r 1 then startFlush { s with flt := { s.flt with resetAt := some s.now, resetFor := n, resetOk := false } } else s
  if c == .fatal then fatalLatch s n param else s

/-- The state of a source after a fresh raise. -/
def raisedSrc (f : Flt) (x : Src) (n : Nat) (param : Word) (unit : Nat) (c : FClass) (plant : Bool) : Src :=
  { x with uncleared := true, acked := false, cause := true, own := true, waits := false, escalated := c != (cfgOf f n).1, eff := c, repeats := 0,
           param := param, unit := unit, seq := f.order + 1, plant := plant }

/-- raise(s, param) of R355, with the unit of the instance concerned (R386), as the collector takes it from the rails: a repeat
while the source is unacknowledged, no raise while its cause stays present after an acknowledgment (R350, R374), else a fresh
raise. The plate's channel reactions hold from now until the source clears (R1009). -/
def raiseNow (s : State) (n : Nat) (param : Word) (unit : Nat) : State :=
  let x := getSrc s.flt n
  if x.uncleared && !x.acked then
    let r := satAdd 65535 x.repeats 1
    let s := { s with flt := setSrc s.flt n { x with repeats := r, param := param, unit := unit, cause := true, own := true } }
    mirror s 0x1000 n x.eff r
  else if x.uncleared && x.cause then { s with flt := setSrc s.flt n { x with own := true } }
  else
    let cfg := cfgOf s.flt n
    let c := if escalates s.flt n cfg.1 then cfg.1.up else cfg.1
    let plant := s.plt.admitted && !s.flt.fatal && !isHung s
    let f := histPush (setSrc s.flt n (raisedSrc s.flt x n param unit c plant))
      ⟨n, c, c != cfg.1, s.cal.opSec, param⟩
    let was := s.flt.fatal
    let s := mirror { s with flt := f } 0x1000 n c 0
    if was then s else reactTo s n param c

/-- An injection replaces the rails of the source (R368). -/
def injected (f : Flt) (n : Nat) : Bool := f.injEnable && f.injSrc == n

/-- What the unit of an injected source reports, which the collector does not see. -/
def injHold (s : State) (x : Option (Word × Nat)) : State := { s with flt := { s.flt with injUnder := x } }

/-- A unit raises a source: its rails carry it to the collector unless an injection replaces them. -/
def raise (s : State) (n : Nat) (param : Word) (unit : Nat) : State :=
  if injected s.flt n then injHold s (some (param, unit)) else raiseNow s n param unit

/-- The chip reset at once of Table 9-4 step 3, where the fatal latch has just been set by a source that calls for it; `was`
tells whether the latch stood before. -/
def latchReset (was : Bool) (s : State) : State :=
  if !was && s.flt.fatal && fatalAtOnce s.flt.fatalSrc then chipReset s (if s.flt.fatalSrc == 0x01 then 5 else 6) else s

/-- Raise with the unit that Table 9-6 gives the source. -/
def raiseU (s : State) (n : Nat) (param : Word) : State := raise s n param (srcRow n).unit

/-- Raise a source that resets the chip at once. -/
def raiseFatal (s : State) (n : Nat) (param : Word) : State := latchReset s.flt.fatal (raiseU s n param)

/-- The cause of a source appears: a raise, unless it is present already (R350). -/
def causeOn (s : State) (n : Nat) (param : Word) : State :=
  if (getSrc s.flt n).cause && !injected s.flt n then s else raiseU s n param

/-! Clearing. -/

/-- A source whose cause is gone, which is acknowledged and not Fatal clears (R358). -/
def tryClear (s : State) (n : Nat) : State :=
  let x := getSrc s.flt n
  if x.uncleared && x.acked && !x.cause && x.eff != .fatal then
    let s := mirror s 0x1200 n x.eff x.repeats
    let y := { x with uncleared := false, eff := .advisory, repeats := 0 }
    { s with flt := setSrc s.flt n { y with escalated := false, plant := false } }
  else s

/-- The cause of a source disappears, as the collector takes it from the rails. -/
def causeOffNow (s : State) (n : Nat) : State :=
  let x := { getSrc s.flt n with own := false }
  if !x.cause then s
  else if x.broken then { s with flt := setSrc s.flt n x }
  else tryClear { s with flt := setSrc s.flt n { x with cause := false } } n

/-- A unit reports the cause of a source gone. -/
def causeOff (s : State) (n : Nat) : State := if injected s.flt n then injHold s none else causeOffNow s n

/-- Raise a source whose cause is gone as soon as the raise is taken (Table 9-6, "At raise"). -/
def pulse (s : State) (n : Nat) (param : Word) : State := causeOff (raiseU s n param) n

/-- Acknowledge one source (R357): recorded where it changes state. -/
def ackSrc (s : State) (n : Nat) : State :=
  let x := getSrc s.flt n
  if x.uncleared && !x.acked then
    let s := { s with flt := setSrc s.flt n { x with acked := true } }
    tryClear (mirror s 0x1100 n x.eff x.repeats) n
  else s

def ackSrcs (s : State) : List Nat → State
  | [] => s
  | n :: ns => ackSrcs (ackSrc s n) ns

/-- Acknowledge a source number, or all with 0xFF. -/
def ackFault (s : State) (n : Nat) : State :=
  if n == 0xFF then ackSrcs s (rangeFrom 0 0x60) else ackSrc s n

/-! What the collector drives. -/

/-- Sources uncleared with an effective class. -/
def countEff (f : Flt) (c : FClass) : Nat := (f.src.filter (fun e => e.2.uncleared && e.2.eff == c)).length

/-- A source holds FAULT_N low (R362). -/
def holdsFaultN (f : Flt) (e : Nat × Src) : Bool :=
  e.2.uncleared && (e.2.eff == .severe || e.2.eff == .fatal ||
    (reactHas (cfgOf f e.1).2 0 && e.2.eff.code ≥ f.faultNClass.code))

/-- FAULT_N is low. -/
def faultNLow (f : Flt) : Bool := f.fatal || f.src.any (holdsFaultN f)

/-- A Severe or Fatal source is uncleared (R363). -/
def severeUp (f : Flt) : Bool := f.fatal || f.src.any (fun e => e.2.uncleared && (e.2.eff == .severe || e.2.eff == .fatal))

/-- An uncleared Severe source names a section (R359). -/
def sectBlocked (s : State) (n : Nat) : Bool :=
  s.flt.src.any (fun e => e.2.uncleared && e.2.eff == .severe && (stopList s e.1).contains n)

/-- The keeper runs: from step 6 in every state but boot-ROM service, fatal service and reset, while it is not hung. -/
def keeperRuns (s : State) : Bool :=
  !s.rst.held && !s.flt.fatal && !isHung s && s.start.step ≥ 6 && s.start.state != .bootService && s.start.state != .fatalService

/-- BEACON is toggling (R363). -/
def beaconRuns (s : State) : Bool := keeperRuns s && !severeUp s.flt

/-- The level of BEACON: low too once the keeper has missed an inversion, since it hangs then (R363; DEDUCED, assumption 49). -/
def beaconLevel (s : State) : Bool := s.flt.beacon && beaconRuns s && decide (s.now ≤ s.flt.beaconAt + 250000)

/-- The plant is armed, and neither a fatal fault nor a hung keeper has stopped it. -/
def isArmed (s : State) : Bool := s.start.state == .armed && !s.flt.fatal && !s.rst.held && !isHung s

/-- Outputs are held by their safe rank (R46, R21, R54). -/
def safeRank (s : State) : Bool := !isArmed s

end Sys2Proof.Machine
end

