-- ==== Sys2Proof/Machine/PlantOps.lean ====
section
/-! DEFINITION. Output ownership (Tables 1-5 to 1-8, R32 to R38, R1009) and the operations on motors that every
family shares: permissive, kinds of stop, release, route stop (R720 to R725). -/

namespace Sys2Proof.Machine

open Sys2Proof

/-! Declarations and demands. -/

def fanCfg (s : State) (ch : Nat) : Option FanCfg := s.plt.plate.fans.find? (·.ch == ch)
def motorCfg (s : State) (ch : Nat) : Option MotorCfg := s.plt.plate.motors.find? (·.ch == ch)
def gateCfg (s : State) (ch : Nat) : Option GateCfg := s.plt.plate.gates.find? (·.ch == ch)
def heatCfg (s : State) (ch : Nat) : Option HeatCfg := s.plt.plate.heats.find? (·.ch == ch)

def getFan (s : State) (ch : Nat) : FanSt := tget {} s.fan.chs ch
def setFan (s : State) (ch : Nat) (x : FanSt) : State := { s with fan := { s.fan with chs := tset {} s.fan.chs ch x } }
def getMot (s : State) (ch : Nat) : MotSt := tget {} s.mot.chs ch
def setMot (s : State) (ch : Nat) (x : MotSt) : State := { s with mot := { s.mot with chs := tset {} s.mot.chs ch x } }
def getGat (s : State) (ch : Nat) : GatSt := tget {} s.gat.chs ch
def setGat (s : State) (ch : Nat) (x : GatSt) : State := { s with gat := { s.gat with chs := tset {} s.gat.chs ch x } }
def getHtd (s : State) (ch : Nat) : HtdSt := tget {} s.htd.chs ch
def setHtd (s : State) (ch : Nat) (x : HtdSt) : State := { s with htd := { s.htd with chs := tset {} s.htd.chs ch x } }

/-- The value a block output last delivered to a channel; KIND of Table 20-1. -/
def demOf (s : State) (kind ch : Nat) : Option BIn := tget none s.eng.dem (kind * 256 + ch)

/-- The session's override of a channel; kind 0 fan, 1 motor, 2 gate, 3 heat. -/
def ovrOf (s : State) (kind ch : Nat) : Option Int :=
  (s.svc.ovr.find? (fun o => o.kind == kind && o.ch == ch)).map (·.value)

/-- 100 % in the value format. -/
def pct100 : Int := 100 * qOne

/-- A level limited to 0 % to 100 %. -/
def clampPct (z : Int) : Int := max 0 (min pct100 z)

/-- The better of two channel reactions: higher effective class, then the later raise (R1009). -/
def reactWins (f : Flt) (a b : ReactCfg) : ReactCfg :=
  let x := getSrc f a.src
  let y := getSrc f b.src
  if y.eff.code > x.eff.code || (y.eff.code == x.eff.code && y.seq > x.seq) then b else a

/-- The plant fault reaction that holds a channel (R1009). -/
def reactOf (s : State) (kind ch : Nat) : Option Int :=
  let rs := s.plt.plate.reacts.filter (fun r => r.kind == kind && r.ch == ch &&
    (getSrc s.flt r.src).uncleared && (getSrc s.flt r.src).plant)
  match rs with
  | [] => none
  | r :: t => some (t.foldl (reactWins s.flt) r).level

/-! Fans (Table 1-5). -/

/-- FAN_FIXn as a duty. -/
def fixDuty (s : State) (ch : Nat) : Int := divRoundEven ((getFan s ch).fix * qOne) 10

/-- The duty of block control (Table 18-1). -/
def blockDuty (s : State) (c : FanCfg) : Int :=
  match c.mode with
  | 0 => 0
  | 1 => fixDuty s c.ch
  | 2 => (getFan s c.ch).loopOut
  | _ =>
    match demOf s 1 c.ch with
    | none => fixDuty s c.ch
    | some x => if isBad x then fixDuty s c.ch else clampPct x.v

/-- The hard-trip reaction holds a fan channel (R35, R694). -/
def tripFan (s : State) (ch : Nat) : Bool := s.fan.trip && s.fan.loaded && s.fan.group.contains ch

/-- The lower owners of a declared channel: session, fog mode, plant fault reaction, block control. -/
def fanLower (s : State) (c : FanCfg) : Nat × Int :=
  match ovrOf s 0 c.ch with
  | some v => (3, clampPct v)
  | none =>
    if s.fan.fog then (4, pct100)
    else
      match reactOf s 0 c.ch with
      | some v => (5, clampPct v)
      | none => (6, blockDuty s c)

/-- Owner rank and effective duty D of a fan channel (R34, R676). -/
def fanRes (s : State) (ch : Nat) : Nat × Int :=
  if tripFan s ch then (1, if s.fan.full then pct100 else 0)
  else if ch < 32 && safeRank s then (2, 0)
  else
    match fanCfg s ch with
    | none => (0, 0)
    | some c => fanLower s c

/-- The PWM period N in MAIN periods (R677). -/
def fanN (s : State) (ch : Nat) : Nat :=
  match fanCfg s ch with
  | none => 1
  | some c => (divRoundEven 40000000 c.pwmHz).toNat

/-- The pin setting that a channel's owner asks for: none is the FAN_SAFE level, else H (R677). -/
def fanWant (s : State) (ch : Nat) : Option Nat :=
  let r := fanRes s ch
  if r.1 == 0 || r.1 == 2 then none
  else some (divRoundEven ((fanN s ch : Int) * r.2) (100 * 1048576)).toNat

/-! Heat (Table 1-7). -/

/-- Block demand of a heat channel (Table 20-1). -/
def heatAsk (s : State) (ch : Nat) : Int :=
  match demOf s 4 ch with
  | none => 0
  | some x => if isBad x then 0 else clampPct x.v

/-- The hard trip forces a dryer's heat: the owning dryer's, or every dryer's where none owns it (R694, R695). -/
def tripHeat (s : State) (dryer : Nat) : Bool :=
  s.fan.trip && s.fan.loaded && (s.fan.dryer == 15 || s.fan.dryer == dryer)

/-- The zero-forcing conditions in the order of WHY, bit 7 the hard trip (Table 19-10). -/
def heatWhy (s : State) (c : HeatCfg) : Nat :=
  let x := getHtd s c.ch
  maskOf [false, (reactOf s 3 c.ch).isSome, !x.pmt, x.plen, (tget none s.fan.lossSince c.dryer).isSome, s.fan.fog,
    decide (c.ch < 8) && safeRank s, tripHeat s c.dryer]

/-- Effective demand (R37). -/
def heatDem (s : State) (c : HeatCfg) : Int :=
  if heatWhy s c != 0 then 0
  else match ovrOf s 3 c.ch with
    | none => heatAsk s c.ch
    | some l => min (heatAsk s c.ch) (clampPct l)

/-- HEATn_EN is requested (R740): bit 2 of WHY is the permit. -/
def heatEn (s : State) (c : HeatCfg) : Bool := decide (heatAsk s c.ch > 0) && (heatWhy s c == 0 || heatWhy s c == 4)

/-- The demand in units of 1/40 000 (R739). -/
def heatWant (s : State) (c : HeatCfg) : Nat := (divRoundEven (40000 * heatDem s c) (100 * 1048576)).toNat

/-! Gates (Table 1-8). -/

/-- Owner rank of a gate (Table 1-8). -/
def gateOwner (s : State) (ch : Nat) : Nat :=
  if ch < 16 && safeRank s then 1
  else if (ovrOf s 2 ch).isSome then 2
  else if (reactOf s 2 ch).isSome then 3
  else 4

/-- The target that the gate's owner asks for now (R33); none: no command, which leaves the present target (Table 20-1). -/
def gateAsk (s : State) (ch : Nat) : Option Int :=
  match gateOwner s ch with
  | 1 => none
  | 2 => (ovrOf s 2 ch).map clampPct
  | 3 => (reactOf s 2 ch).map clampPct
  | _ => match demOf s 3 ch with
    | none => none
    | some x => if isBad x then none else some (clampPct x.v)

/-- A command with a different target starts a new move (R736). -/
def gateTarget (s : State) (ch : Nat) (t : Int) : State :=
  let g := getGat s ch
  if g.target == some t then s
  else
    let at_ := if g.drive == 1 || g.drive == 2 then some s.now else none
    setGat s ch { g with target := some t, fail := 0, moveAt := at_, track := (g.track.take 1).map (fun e => (s.now, e.2)) }

/-- The gate takes the present request of the owner that holds it (R32, R33, R38). -/
def gateTake (s : State) (ch : Nat) : State :=
  match gateAsk s ch with
  | some t => if isArmed s then gateTarget s ch t else s
  | none => s

/-! Motors (Table 1-6). -/

/-- MOTn_RUN sinks. -/
def sinks (st : Nat) : Bool := st == 1 || st == 2 || st == 3

/-- The LEVEL value counts as full (R727). -/
def levelFull (s : State) (c : MotorCfg) : Bool :=
  c.level != 0xFFF && (let x := seenVal s c.level; isBad x || isTrue x)

/-- The node key of a remote channel. -/
def nodeOfCh (s : State) (kind ch : Nat) : Option Nat :=
  (s.plt.plate.remotes.find? (fun r => r.kind == kind && r.logical == ch)).map (fun r => r.bus * 128 + r.node)

/-- The node of a remote channel is not present (R42, R43, R759). -/
def chLost (s : State) (kind ch : Nat) : Bool :=
  match nodeOfCh s kind ch with
  | none => false
  | some k => let st := (tget {} s.syn.nodes k).st; st == 3 || st == 4

/-- The run permissive (R722, R730, R759). -/
def permit (s : State) (c : MotorCfg) : Bool :=
  if c.down == 255 then true
  else
    let d := getMot s c.down
    if chLost s 1 c.down then false
    else d.st == 2 || (d.st == 1 && d.proved) || d.welded || (d.st == 3 && sinks (getMot s c.ch).st)

/-- The block asks the motor to run (Table 20-1). -/
def blockAsk (s : State) (ch : Nat) : Bool :=
  match demOf s 2 ch with
  | none => false
  | some x => isTrue x && !isBad x

/-- Rank 1 holds a motor (R46). -/
def motSafe (s : State) (ch : Nat) : Bool := decide (ch < 24) && safeRank s

/-- The hard trip stops a motor (Table 19-3). -/
def tripMot (s : State) (c : MotorCfg) : Bool :=
  s.fan.trip && s.fan.loaded && (c.role == 1 || c.role == 2) && c.dryer == s.fan.dryer

/-- An immediate stop is in force (Table 19-3): rank 1, bin full, permissive, STOP_NOW. -/
def stopsNow (s : State) (c : MotorCfg) : Bool :=
  motSafe s c.ch || levelFull s c || !permit s c || ovrOf s 1 c.ch == some 2

/-- A route stop of ranks 2 to 6 is in force; an override RUN holds the channel above ranks 5 and 6 (R32). -/
def routeHold (s : State) (c : MotorCfg) : Bool :=
  tripMot s c || ovrOf s 1 c.ch == some 0 ||
    (ovrOf s 1 c.ch != some 1 && ((s.fan.fog && (c.role == 1 || c.role == 2)) || (reactOf s 1 c.ch).isSome))

/-- Rank 4 or rank 7 asks the motor to run (R651, R671). -/
def runAsk (s : State) (ch : Nat) : Bool :=
  match ovrOf s 1 ch with
  | some v => v == 1
  | none => blockAsk s ch

/-- A route stop is due: a stopping rank, or nothing asks any more. -/
def routeDue (s : State) (c : MotorCfg) : Bool := routeHold s c || !runAsk s c.ch

/-- A start request may stand (R651). Rank 1 holds local motors until the plant is armed; a remote one may ask before. -/
def mayAsk (s : State) (c : MotorCfg) : Bool :=
  (getMot s c.ch).st == 0 && runAsk s c.ch && !stopsNow s c && !routeHold s c && !s.flt.fatal && !s.rst.held

/-- The owner rank of a motor (OWNER of Table 19-6). -/
def motOwner (s : State) (c : MotorCfg) : Nat :=
  if motSafe s c.ch then 1
  else if tripMot s c then 2
  else if (getMot s c.ch).st == 4 || levelFull s c || (!permit s c && runAsk s c.ch) then 3
  else if (ovrOf s 1 c.ch).isSome then 4
  else if s.fan.fog && (c.role == 1 || c.role == 2) then 5
  else if (reactOf s 1 c.ch).isSome then 6
  else 7

/-- The channels whose DOWN names a motor. -/
def feedersOf (s : State) (ch : Nat) : List Nat := (s.plt.plate.motors.filter (·.down == ch)).map (·.ch)

/-- A motor's DOWN chain reaches `target` within `k` links. -/
def reaches (s : State) (target : Nat) : Nat → Nat → Bool
  | 0, _ => false
  | k + 1, m =>
    match motorCfg s m with
    | none => false
    | some c => c.down == target || reaches s target k c.down

def runningNow (s : State) (ch : Nat) : Bool := sinks (getMot s ch).st

/-- The start of a motor ends because it stops (R655, R660). -/
def endStart (s : State) (ch : Nat) : State :=
  { s with stb := { s.stb with
      active := s.stb.active.filter (·.1 != ch),
      watches := s.stb.watches.map (fun w => if w.ch == ch then { w with spoiled := true } else w) } }

/-- The stop instant of a STOPPING motor becomes known once its last running feeder has stopped (R723). -/
def purgeFrom (s : State) (ch : Nat) : State :=
  match motorCfg s ch with
  | none => s
  | some c =>
    let m := getMot s ch
    if m.st == 3 && m.stopAt.isNone && !(feedersOf s ch).any (runningNow s) then
      setMot s ch { m with stopAt := some (s.now + c.purge * 100000) }
    else s

/-- What a motor keeps when it is released into OFF or TRIPPED. -/
def releasedMot (m : MotSt) (now st : Nat) : MotSt :=
  { st := st
    cause := m.cause
    tcause := m.tcause
    fb := m.fb
    fbSince := m.fbSince
    releasedAt := some now
    rate := m.rate
    edges := m.edges
    full := m.full
    welded := m.welded }

/-- Remove a channel from a list of present causes; the cause of the source is gone with the last one. -/
def causeDrop (s : State) (src : Nat) (left : List Nat) : State := if left.isEmpty then causeOff s src else s

/-- MOT_FEEDBACK's cause for a motor is gone when MOTn_FB agrees with MOTn_RUN (Table 9-6). -/
def fbAgree (s : State) (ch : Nat) : State :=
  let m := getMot s ch
  if s.mot.fbBad.contains ch && m.fb == sinks m.st then
    let left := s.mot.fbBad.filter (· != ch)
    let s := setMot { s with mot := { s.mot with fbBad := left } } ch { m with welded := false }
    causeDrop s 0x42 left
  else s

/-- Release MOTn_RUN at once (R724), into OFF or TRIPPED. -/
def motRelease (s : State) (ch st : Nat) : State :=
  let s := endStart (setMot s ch (releasedMot (getMot s ch) s.now st)) ch
  let s := match motorCfg s ch with
    | none => s
    | some c => if c.down == 255 then s else purgeFrom s c.down
  fbAgree s ch

/-- A route stop of a running motor (R723): it and every running motor whose DOWN chain reaches it enter STOPPING;
those without a running feeder are released at that moment, the others wait. -/
def stoppingAll (s : State) : List Nat → State
  | [] => s
  | m :: ms =>
    let x := getMot s m
    stoppingAll (setMot s m { x with st := 3, stopAt := none }) ms

def releaseLeaves (s : State) : List Nat → State
  | [] => s
  | m :: ms => releaseLeaves (motRelease s m 0) ms

/-- Motors that a route stop of `ch` puts into STOPPING. -/
def routeSet (s : State) (ch : Nat) : List Nat :=
  (s.plt.plate.motors.map (·.ch)).filter (fun m =>
    ((getMot s m).st == 1 || (getMot s m).st == 2) && (m == ch || reaches s ch 256 m))

def routeStop (s : State) (ch : Nat) : State :=
  let m := getMot s ch
  if m.st == 1 || m.st == 2 then
    let set := routeSet s ch
    let leaves := set.filter (fun x => !(feedersOf s x).any (runningNow s))
    releaseLeaves (stoppingAll s set) leaves
  else s

/-- Every route stop that is due begins at once (R36, Table 19-3). -/
def routeStops (s : State) : List Nat → State
  | [] => s
  | m :: ms =>
    let s := match motorCfg s m with
      | none => s
      | some c => if routeDue s c then routeStop s m else s
    routeStops s ms

def routeHolds (s : State) : State := routeStops s (s.plt.plate.motors.map (·.ch))

/-! Start requests (R651). -/

/-- The request stands: its motor may still be asked to start. -/
def reqStands (s : State) (ch : Nat) : Bool :=
  match motorCfg s ch with
  | none => false
  | some c => mayAsk s c

/-- A request leaves the queue. -/
def dropReq (s : State) (ch : Nat) : State :=
  let b := { s.stb with reqs := s.stb.reqs.filter (·.1 != ch), starved := s.stb.starved.filter (· != ch) }
  let s := { s with stb := b }
  if b.starved.isEmpty then causeOff s 0x38 else s

/-- A motor that is asked to run, stands, and may start places its request. -/
def startAsk (s : State) (ch : Nat) : State :=
  if reqStands s ch && !s.stb.reqs.any (·.1 == ch) then { s with stb := { s.stb with reqs := s.stb.reqs ++ [(ch, s.now)] } }
  else s

/-- A request is withdrawn as its ask ends, or as a rank stops the motor; chosen for the next step, it makes that step dead
(R657). -/
def startDrop (s : State) (ch : Nat) : State :=
  if s.stb.reqs.any (·.1 == ch) && !reqStands s ch then
    dropReq (if s.stb.next == some ch then { s with stb := { s.stb with next := none, dead := true } } else s) ch
  else s

/-- Every motor looks at its request. -/
def startAsks (s : State) : List MotorCfg → State
  | [] => s
  | c :: cs => startAsks (startAsk (startDrop s c.ch) c.ch) cs

def startSettle (s : State) : State := startAsks s s.plt.plate.motors

end Sys2Proof.Machine
end

