-- ==== Sys2Proof/Machine/SectOps.lean ====
section
/-! DEFINITION. Plant sections (chapter 11): start and stop of Tables 11-5 and 11-6, and the firing of auto-start
rules (R449). -/

namespace Sys2Proof.Machine

open Sys2Proof

/-- Sections that hold a discharge-metering, heat or dryer in-feed channel (Tables 11-6 and 18-3). -/
def fogSects (s : State) : List Nat :=
  let p := s.plt.plate
  let m := (p.motors.filter (fun c => c.role == 1 || c.role == 2)).map (·.sect)
  let h := p.heats.filterMap (fun h => (p.dryers.find? (·.dryer == h.dryer)).map (·.sect))
  (p.sects.map (·.sect)).filter (fun n => m.contains n || h.contains n)

/-- Fog mode keeps a section from starting. -/
def fogHolds (s : State) (n : Nat) : Bool := s.fan.fog && (fogSects s).contains n

/-- The latching condition of a motor is absent (R731, R733): for proving and feedback, MOTn_FB inactive. -/
def tripGone (m : MotSt) : Bool := !((m.tcause == 1 || m.tcause == 5) && m.fb)

/-- A TRIPPED motor whose condition is absent is cleared into OFF. -/
def clearMot (s : State) (ch : Nat) : State :=
  let m := getMot s ch
  if m.st == 4 && tripGone m then setMot s ch { m with st := 0, tcause := 0 } else s

def clearMots (s : State) : List Nat → State
  | [] => s
  | c :: cs => clearMots (clearMot s c) cs

/-- The motors of a section. -/
def motorsOf (s : State) (n : Nat) : List Nat := (s.plt.plate.motors.filter (·.sect == n)).map (·.ch)

/-- An accepted start (R445, R446): run request 1, SECTION_START with its origin: 0 session, 1 host, 2 auto-start
rule. -/
def sectStarts (s : State) (n origin : Nat) : State :=
  let x := getSect s n
  let s := setSect s n { x with st := 2, lastStart := origin, faultStop := false, stopAt := none }
  addRecord (writeRun s n true) 0x2002 1 (pw n) (pw origin)

/-- The section holds the dryer whose hard trip stood already as admission loaded its fan group: it leaves neither HELD nor IDLE
until a chip reset (R459, R559). -/
def tripBars (s : State) (n : Nat) : Bool :=
  s.fan.tripLoaded && s.plt.plate.dryers.any (fun d => d.dryer == s.fan.dryer && d.sect == n)

/-- A start command (Table 11-6): true for OK, false for BUSY. -/
def startSect (s : State) (n origin : Nat) : Bool × State :=
  let x := getSect s n
  if !isArmed s then (false, s)
  else if x.st == 2 || x.st == 3 then (true, s)
  else if x.st == 4 || fogHolds s n || tripBars s n then (false, s)
  else if x.st == 5 then
    if sectBlocked s n then (false, s)
    else (true, clearMots (sectStarts s n origin) (motorsOf s n))
  else (true, sectStarts s n origin)

/-- A stop command (R447). -/
def opStopSect (s : State) (n : Nat) : State :=
  let x := getSect s n
  if x.st == 2 || x.st == 3 then stopSect s n 2 else s

def opStopSects (s : State) : List Nat → State
  | [] => s
  | n :: ns => opStopSects (opStopSect s n) ns

/-- A stop command that names one section, or all with 0xFF. -/
def stopCommand (s : State) (n : Nat) : State :=
  if n == 0xFF then opStopSects s (s.plt.plate.sects.map (·.sect)) else opStopSect s n

/-- A firing of an auto-start rule (R449): dropped unless the plant is armed, the section IDLE and fog mode inactive. -/
def fireRule (s : State) (n : Nat) : State :=
  if isArmed s && (getSect s n).st == 1 && !s.fan.fog && !tripBars s n then sectStarts s n 2 else s

/-- The CONDITION rule (Table 11-7): the named value changes from below 0.5 to 0.5 or above, GOOD or FORCED. -/
def condRule (s : State) (c : SectCfg) : State :=
  let x := getSect s c.sect
  let v := readVal s c.cond
  let up := isTrue v
  if c.auto != 3 || up == x.cond then s
  else
    let s := setSect s c.sect { x with cond := up }
    if up && (v.q == .good || v.q == .forced) then fireRule s c.sect else s

/-- Every section follows its phase and its rule. -/
def sectEvals (s : State) : List SectCfg → State
  | [] => s
  | c :: cs => sectEvals (condRule (deriveSect s c.sect) c) cs

/-- Sections exist from arming on (R450). -/
def sectSettle (s : State) : State := if isArmed s then sectEvals s s.plt.plate.sects else s

end Sys2Proof.Machine
end

