-- ==== Sys2Proof/Machine/Blank.lean ====
section
/-! DEFINITION. Blanking (R580, R589 to R591): what a trigger does to the entries that name it, and the internal triggers, which
assert where the plant outputs change (Table 15-8). -/

namespace Sys2Proof.Machine

open Sys2Proof

/-- The front end runs: from step 9, and neither moored nor in a service or fatal state (R640, R641). -/
def frontOn (s : State) : Bool :=
  s.fe.grid && !s.flt.fatal && !s.rst.held && (s.start.state == .starting || s.start.state == .armed)

def getIsl (s : State) (i : Nat) : IslSt := s.isl.isls.getD i {}

def scanCfg (s : State) (i : Nat) : Option ScanCfg := s.plt.plate.scans.find? (·.value == i)

def getList (s : State) (l : Nat) : LSeq := tget {} s.fe.lists l
def setList (s : State) (l : Nat) (x : LSeq) : State := { s with fe := { s.fe with lists := tset {} s.fe.lists l x } }

/-- The CONV island samples: the grid runs and the island is configured. -/
def convOn (s : State) : Bool := frontOn s && (getIsl s 6).st == 2

/-- An entry is blanked while any trigger of its BLANK_MASK is asserted. -/
def entryBlanked (s : State) (c : ScanCfg) : Bool :=
  (rangeFrom 0 7).any (fun k => s.fe.trig.getD k false && bitsN c.blankMask k k == 1)

def valueBlanked (s : State) (i : Nat) : Bool :=
  match scanCfg s i with
  | none => false
  | some c => entryBlanked s c

/-- One entry whose blanking begins (R590 step 2, R591). -/
def blankEntry (s : State) (c : ScanCfg) : State :=
  let i := c.value
  let q0 := tget none s.fe.blankSince i
  let s := { s with fe := { s.fe with blankSince := tset none s.fe.blankSince i (some (q0.getD s.now)) } }
  if readQ s i == .good then setQuality s i .blanked else s

def blankEntries (s : State) : List ScanCfg → State
  | [] => s
  | c :: cs => blankEntries (blankEntry s c) cs

/-- Blanking asserts: the list's conversion in flight is aborted, and the entry chosen for the next turn withdrawn, where they are
blanked (R580, R194). -/
def abortList (s : State) (l : Nat) : State :=
  let q := getList s l
  let cut := fun (e : Option Nat) => e.elim false (valueBlanked s)
  let q := if cut q.cur then { q with aborted := true } else q
  let q := if cut q.next then { q with next := none, wd := true } else q
  if q == getList s l then s else setList s l q

def abortLists (s : State) : List Nat → State
  | [] => s
  | l :: ls => abortLists (abortList s l) ls

/-- Time of an internal trigger in µs (Table 15-8). -/
def trigUs (k : Nat) : Nat := if k == 4 then 300000 else if k == 5 then 50000 else 100000

/-! Internal triggers. -/

/-- Trigger `k` in the order of BLANK_MASK bits 20 to 26 asserts, and its time begins or begins again (Table 15-8). It blanks while
the grid samples (R606); a grid that starts finds it asserted. -/
def trigAssert (s : State) (k : Nat) : State :=
  let f := { s.fe with trig := listSet s.fe.trig k true, trigEnd := listSet s.fe.trigEnd k (s.now + trigUs k) }
  let s := { s with fe := f }
  let cs := s.plt.plate.scans.filter (fun c => bitsN c.blankMask k k == 1)
  if convOn s then abortLists (blankEntries s cs) (rangeFrom 0 5) else s

/-- The local motors whose MOTn_RUN is active. -/
def runsNow (s : State) : List Nat :=
  if safeRank s then [] else (rangeFrom 0 24).filter (fun n => sinks (getMot s n).st)

/-- The local gate outputs that sink: 2n for GATEn_OPN, 2n + 1 for GATEn_CLS. -/
def drivesNow (s : State) : List Nat :=
  if safeRank s then []
  else (rangeFrom 0 32).filter (fun k => decide ((getGat s (k / 2)).drive = k % 2 + 1))

/-- HEATn_EN sinks (R740). -/
def heatEnSinks (s : State) (n : Nat) : Bool :=
  match heatCfg s n with
  | none => false
  | some c => !safeRank s && heatEn s c

def enablesNow (s : State) : List Nat := (rangeFrom 0 8).filter (heatEnSinks s)

/-- The duties of the HEATn_DEM pins in units of 1/40 000 (R739). -/
def dutiesNow (s : State) : List Nat := (rangeFrom 0 8).map (fun n => (getHtd s n).pin)

/-- A duty changes by 5 percentage points or more at one update. -/
def dutyStep (a b : List Nat) : Bool :=
  (rangeFrom 0 8).any (fun n => decide (max (a.getD n 0) (b.getD n 0) ≥ min (a.getD n 0) (b.getD n 0) + 2000))

/-- A motor start, a change of a gate output and a heat-demand step assert triggers 4, 5 and 6 (Table 15-8); the front end keeps
the outputs that it has seen. -/
def trigSettle (s : State) : State :=
  let was := s.fe.seen
  let now : OutSeen := { runs := runsNow s, drives := drivesNow s, enables := enablesNow s, duties := dutiesNow s }
  if now == was then s
  else
    let s := { s with fe := { s.fe with seen := now } }
    let s := if now.runs.all was.runs.contains then s else trigAssert s 4
    let s := if now.drives == was.drives then s else trigAssert s 5
    if now.enables == was.enables && !dutyStep was.duties now.duties then s else trigAssert s 6

end Sys2Proof.Machine
end

