-- ==== Sys2Proof/Machine/PlantFx.lean ====
section
/-! DEFINITION. What the hardware units make of the values and owners as they stand: threshold switches (R625 to
R629), plenum limits (R742), interlocks and permissives (R724, R726), gates (R734 to R737), pins that ranks 1 and 2
take at once (R678, R743). `settle` runs them all; each re-evaluation of an unchanged input changes nothing. -/

namespace Sys2Proof.Machine

open Sys2Proof

/-! Threshold switches. -/

def swCfg (s : State) (n : Nat) : Option SwCfg := s.plt.plate.sws.find? (·.sw == n)
def getSw (s : State) (n : Nat) : SwSt := tget {} s.sw.sws n
def setSw (s : State) (n : Nat) (x : SwSt) : State := { s with sw := { s.sw with sws := tset {} s.sw.sws n x } }

/-- The condition of R625 that would change a switch: on-condition while off, off-condition while on. -/
def swCond (c : SwCfg) (on : Bool) (v : Int) : Bool :=
  if on then (if c.dir then decide (v ≥ c.reset) else decide (v ≤ c.reset))
  else if c.dir then decide (v ≤ c.set) else decide (v ≥ c.set)

/-- The delay of a change in µs. -/
def swDelay (c : SwCfg) (on : Bool) : Nat := 1000 * (if on then c.offMs else c.onMs)

/-- A publication of the PWM island is due: at every second tachometer-update event, which comes each 50 ms (R265, R686, R718);
98 ms allow for the RC oscillator's error (DESIGN CHOICE, assumption 47). -/
def pubDue (s : State) (last : Option Nat) : Bool := match last with | none => true | some t => decide (t + 98000 ≤ s.now)

/-- One evaluation of a switch (R625 to R627). -/
def swStep (now : Nat) (c : SwCfg) (x : SwSt) (src : BIn) : SwSt :=
  if src.q == .subst || isBad src then
    { on := if c.fstate == 1 then true else if c.fstate == 0 then false else x.on, fs := true, since := none }
  else if swCond c x.on src.v then
    let t := x.since.getD now
    if now - t ≥ swDelay c x.on then { on := !x.on, fs := false, since := none }
    else { on := x.on, fs := false, since := some t }
  else { on := x.on, fs := false, since := none }

def swEval (s : State) (c : SwCfg) : State := setSw s c.sw (swStep s.now c (getSw s c.sw) (seenVal s c.source))

def swEvals (s : State) : List SwCfg → State
  | [] => s
  | c :: cs => swEvals (swEval s c) cs

/-- Every switch evaluates its source (R629). -/
def swSettle (s : State) : State := if frontOn s then swEvals s s.plt.plate.sws else s

/-- OUT_SHORT has released an open-drain ball, by its row (A 0 to AC 21) and column (R163). -/
def shortAt (s : State) (row col : Nat) : Bool := s.pwr.shorts.any (·.1 == row * 32 + col)

/-- TSWn sinks (R628, R45, R641), unless its overload has released it (R163). Its ball lies in the row of index n div 7 from H
on, at column n mod 7 + 1 (R51). -/
def tswSinks (s : State) (n : Nat) : Bool :=
  !shortAt s (7 + n / 7) (n % 7 + 1) &&
  match s.sw.held with
  | some m => bitsN m n n == 1
  | none =>
    frontOn s && (match s.plt.plate.sws.find? (fun c => c.sw == n && c.pinEn) with
      | none => false
      | some c => (getSw s n).on != c.pinPol)

/-! Plenum limits. -/

/-- The plenum limit of one channel after a look at its value (R742). -/
def plenNext (c : HeatCfg) (was : Bool) (x : BIn) : Bool :=
  if isBad x || x.v ≥ c.high then true else if x.v ≤ c.reset then false else was

def plenEval (s : State) (c : HeatCfg) : State :=
  let h := getHtd s c.ch
  let now := c.plenum != 0xFFF && plenNext c h.plen (seenVal s c.plenum)
  let s' := setHtd s c.ch { h with plen := now }
  if now && !h.plen then raiseU s' 0x3B (pw c.ch) else s'

def plenEvals (s : State) : List HeatCfg → State
  | [] => s
  | c :: cs => plenEvals (plenEval s c) cs

def plenSettle (s : State) : State :=
  if isArmed s then
    let s := plenEvals s s.plt.plate.heats
    if s.plt.plate.heats.any (fun c => (getHtd s c.ch).plen) then s else causeOff s 0x3B
  else s

/-! Motors. -/

/-- An interlock acts (R726): fault raised, immediate stop, TRIPPED. -/
def motTrip (s : State) (ch cause src : Nat) (param : Word) : State :=
  let s := raiseU s src param
  let m := getMot s ch
  motRelease (setMot s ch { m with cause := cause, tcause := cause }) ch 4

/-- Plug, slip and overload: their causes are gone once the motor has stopped (R729). -/
def motTripRun (s : State) (ch cause src : Nat) : State := causeOff (motTrip s ch cause src (pw ch)) src

/-- The overload condition, while the motor runs, STOPPING included (R727, R729). -/
def overloaded (s : State) (c : MotorCfg) : Bool :=
  c.ct != 0xFFF && (getMot s c.ch).superv && sinks (getMot s c.ch).st &&
    (let x := seenVal s c.ct; !isBad x && decide (x.v > c.overload))

/-- The slip condition (R727, R728): SLIP value over rate below SLIP_PCT % of the reference. -/
def slipping (s : State) (c : MotorCfg) : Bool :=
  let m := getMot s c.ch
  c.slip != 0xFFF && m.superv && sinks m.st && decide (m.rate.1 > 0) &&
    (let x := seenVal s c.slip
     match m.slipRef with
     | none => false
     | some r => !isBad x && decide (x.v * m.rate.2 * 100 * r.2 < (c.slipPct : Int) * r.1 * m.rate.1))

/-- Since when a condition holds. -/
def sinceIf (now : Nat) (b : Bool) (t : Option Nat) : Option Nat := if b then some (t.getD now) else none

/-- A condition has held for so many µs. -/
def heldFor (now : Nat) (t : Option Nat) (us : Nat) : Bool :=
  match t with
  | none => false
  | some a => decide (now - a ≥ us)

/-- BIN_FULL at its becoming present. -/
def fullEval (s : State) (c : MotorCfg) : State :=
  let m := getMot s c.ch
  let f := levelFull s c
  let s' := setMot s c.ch { m with full := f, cause := if f && !m.full then 6 else m.cause }
  if f && !m.full then raiseU s' 0x43 (pw c.ch) else s'

/-- The rate is at least PLUG_PCT % of NOM_MOV × 0.1 Hz. -/
def rateEnough (c : MotorCfg) (r : Int × Nat) : Bool := decide (r.1 * 1000 ≥ ((c.plugPct * c.nomMov * r.2 : Nat) : Int))

/-- A starting motor proves (R721). -/
def proves (s : State) (c : MotorCfg) : Bool :=
  let m := getMot s c.ch
  m.st == 1 && m.fb && (if c.nomMov > 0 then rateEnough c m.rate else decide (s.now - m.fbSince ≥ 500000))

/-- MOTOR_PROVED: RUNNING; the cause of MOT_PROVE for this motor is gone. -/
def motorProved (s : State) (ch : Nat) : State :=
  let m := getMot s ch
  let s := setMot s ch { m with st := 2, proved := true }
  if s.mot.proveBad.contains ch then
    let left := s.mot.proveBad.filter (· != ch)
    causeDrop { s with mot := { s.mot with proveBad := left } } 0x3E left
  else s

/-- One look at one motor: bin full, immediate stops, overload, slip; a motor without motion input proves once its feedback has
stood (R721). -/
def motEval (s : State) (c : MotorCfg) : State :=
  let s := fullEval s c
  let s := if c.nomMov == 0 && proves s c then motorProved s c.ch else s
  let m := getMot s c.ch
  if sinks m.st && stopsNow s c then motRelease s c.ch 0
  else
    let m := { m with ovlSince := sinceIf s.now (overloaded s c) m.ovlSince }
    let m := { m with slipSince := sinceIf s.now (slipping s c) m.slipSince }
    let s := setMot s c.ch m
    if heldFor s.now m.ovlSince 2000000 then motTripRun s c.ch 4 0x41
    else if heldFor s.now m.slipSince 1000000 then motTripRun s c.ch 3 0x40
    else s

def motEvals (s : State) : List MotorCfg → State
  | [] => s
  | c :: cs => motEvals (motEval s c) cs

/-- Immediate stops only, repeated so that a stop reaches every motor above it (R724). -/
def permEval (s : State) (c : MotorCfg) : State :=
  if sinks (getMot s c.ch).st && stopsNow s c then motRelease s c.ch 0 else s

def permEvals (s : State) : List MotorCfg → State
  | [] => s
  | c :: cs => permEvals (permEval s c) cs

def permLoop : Nat → State → State
  | 0, s => s
  | k + 1, s => permLoop k (permEvals s s.plt.plate.motors)

/-- Interlocks, route stops (R36), immediate stops, and the release of local motors by rank 1 (R21,
R46). -/
def motSettle (s : State) : State :=
  let ms := s.plt.plate.motors
  let s := if isArmed s then routeHolds (motEvals s ms) else s
  let s := permLoop ms.length s
  if isArmed s && !ms.any (fun c => (getMot s c.ch).full) then causeOff s 0x43 else s

/-! Gates. -/

def absI (z : Int) : Int := if z < 0 then -z else z

/-- The gate's POS target (R734), times 100 %: closed × 100 + target × span, in units of 2^-20 × 2^-20. -/
def gateAim (c : GateCfg) (t : Int) : Int := c.closedPos * pct100 + t * (c.openPos - c.closedPos)

/-- The POS value lies within 1 % of the span of the target. -/
def gateAt (c : GateCfg) (t pos : Int) : Bool :=
  decide (absI (pos * pct100 - gateAim c t) * 100 ≤ absI (c.openPos - c.closedPos) * pct100)

/-- The drive towards the target: 1 opening, 2 closing. -/
def gateDir (c : GateCfg) (t pos : Int) : Nat :=
  if decide (gateAim c t > pos * pct100) == decide (c.openPos > c.closedPos) then 1 else 2

/-- Two positions lie at least 0.5 % of the span apart. -/
def gateMoved (c : GateCfg) (a b : Int) : Bool := decide (absI (a - b) * 200 ≥ absI (c.openPos - c.closedPos))

/-- The positions read since an instant, and the one that stood at it. -/
def trackSince (from_ : Nat) : List (Nat × Int) → List (Nat × Int)
  | [] => []
  | e :: es => if e.1 ≤ from_ then [e] else e :: trackSince from_ es

/-- The position of a move as it is now; what no interval of STALL_MS can reach any more is left out. -/
def trackPos (now : Nat) (c : GateCfg) (pos : Int) (xs : List (Nat × Int)) : List (Nat × Int) :=
  trackSince (now - c.stallMs * 1000) (if (xs.head?.map (·.2)) == some pos then xs else (now, pos) :: xs)

/-- POS has changed by less than 0.5 % of |S| in the last STALL_MS of a move (R736): no two positions of that interval lie so far
apart (DEDUCED, assumption 42). -/
def gateStill (now : Nat) (c : GateCfg) (xs : List (Nat × Int)) : Bool :=
  let w := trackSince (now - c.stallMs * 1000) xs
  w.any (fun e => decide (e.1 + c.stallMs * 1000 ≤ now)) && !w.any (fun a => w.any (fun b => gateMoved c a.2 b.2))

/-- Both outputs released (R735 counts from here). -/
def gateRelease (now : Nat) (g : GatSt) : GatSt :=
  if g.drive == 1 || g.drive == 2 then { g with drive := 0, lastDir := g.drive, relAt := now } else { g with drive := 0 }

/-- The output towards the target sinks, or the pause of R735 runs first. -/
def gateStart (now d : Nat) (pos : Int) (g : GatSt) : GatSt :=
  let g := { g with moveAt := some (g.moveAt.getD now), track := if g.moveAt.isNone then [(now, pos)] else g.track }
  if g.lastDir != 0 && g.lastDir != d && now < g.relAt + 200000 then { g with drive := 3, pauseEnd := g.relAt + 200000 }
  else { g with drive := d }

/-- A gate's drive after a look at its position, for a gate that may move (R734 to R737). -/
def gateStep (now : Nat) (c : GateCfg) (g : GatSt) (t : Int) (x : BIn) : GatSt :=
  if isBad x || g.fail != 0 || gateAt c t x.v then { gateRelease now g with moveAt := none }
  else
    let d := gateDir c t x.v
    let g := { g with track := trackPos now c x.v g.track }
    if g.drive == d || (g.drive == 3 && decide (now < g.pauseEnd)) then g
    else gateStart now d x.v (gateRelease now g)

/-- One look at one gate; the node of a remote one moves it. -/
def gateEval (s : State) (c : GateCfg) : State :=
  let s := gateTake s c.ch
  let g := getGat s c.ch
  if c.ch ≥ 16 then s
  else if safeRank s then
    let y : GatSt := { nodeTravel := g.nodeTravel, nodeStall := g.nodeStall }
    setGat s c.ch y
  else
    match g.target with
    | none => s
    | some t =>
      let x := seenVal s c.pos
      let g' := gateStep s.now c g t x
      let reached := !isBad x && g.fail == 0 && gateAt c t x.v
      let moved := g.drive != 0 && g.track.any (fun e => gateMoved c x.v e.2)
      let s := setGat s c.ch g'
      let s := if reached && s.gat.travelBad.contains c.ch then
          let left := s.gat.travelBad.filter (· != c.ch)
          causeDrop { s with gat := { s.gat with travelBad := left } } 0x44 left
        else s
      if moved && s.gat.stallBad.contains c.ch then
        let left := s.gat.stallBad.filter (· != c.ch)
        causeDrop { s with gat := { s.gat with stallBad := left } } 0x45 left
      else s

def gateEvals (s : State) : List GateCfg → State
  | [] => s
  | c :: cs => gateEvals (gateEval s c) cs

def gateSettle (s : State) : State := gateEvals s s.plt.plate.gates

/-! Heat permits. -/

/-- Since when the permit of a heat channel has been absent with block demand above 0 (R741). -/
def heatTrack (s : State) (c : HeatCfg) : State :=
  let h := getHtd s c.ch
  setHtd s c.ch { h with lackSince := sinceIf s.now (isArmed s && !h.pmt && decide (heatAsk s c.ch > 0)) h.lackSince }

def heatTracks (s : State) : List HeatCfg → State
  | [] => s
  | c :: cs => heatTracks (heatTrack s c) cs

/-! Pins taken at once. -/

/-- Ranks 1 and 2 take a local fan pin at once (R678); a STOPPED PWM island leaves it at the FAN_SAFE level (R242). -/
def fanPinEval (s : State) (ch : Nat) : State :=
  let r := (fanRes s ch).1
  if (s.isl.isls.getD 5 {}).st == 3 then setFan s ch { getFan s ch with pin := none }
  else if r == 0 || r == 1 || r == 2 then setFan s ch { getFan s ch with pin := fanWant s ch }
  else s

/-- Rank 1 of heat drives the demand pin low at once (R743), and so does a STOPPED PWM island (R242). -/
def heatPinEval (s : State) (ch : Nat) : State :=
  if safeRank s || (s.isl.isls.getD 5 {}).st == 3 then setHtd s ch { getHtd s ch with pin := 0 } else s

def fanPins (s : State) : List Nat → State
  | [] => s
  | n :: ns => fanPins (fanPinEval s n) ns

def heatPins (s : State) : List Nat → State
  | [] => s
  | n :: ns => heatPins (heatPinEval s n) ns

/-- Local channels whose pin can differ from the safe level: those the fan unit lists or the trip owns. -/
def pinSettle (s : State) : State :=
  heatPins (fanPins s ((s.fan.chs.map (·.1)).filter (· < 32) ++ s.fan.group.filter (· < 32)))
    ((s.htd.chs.map (·.1)).filter (· < 8))

/-! Redundant pairs: which members take no part, and the timers that hold meanwhile (R624). -/

def getPair (s : State) (k : Nat) : PairSt := tget {} s.sw.pairs k
def setPair (s : State) (k : Nat) (x : PairSt) : State := { s with sw := { s.sw with pairs := tset {} s.sw.pairs k x } }

/-- The value is blanked: from step 2 of Table 15-9 until its next sample (R590, R591). -/
def blankHeld (s : State) (i : Nat) : Bool := (tget none s.fe.blankSince i).isSome

/-- BLANKED or FORCED members take no part (R624); a member whose entry is blanked is BLANKED under whatever higher quality
it keeps (DEDUCED). -/
def pairOut (s : State) (i : Nat) : Bool := (getVal s i).forced || blankHeld s i

/-- The timer runs on or holds (R624). -/
def timerHold (now : Nat) (x : PairSt) : PairSt :=
  match x.since with
  | some t => { x with held := x.held + (now - t), since := none }
  | none => x
def timerGo (now : Nat) (x : PairSt) : PairSt := if x.run && x.since.isNone then { x with since := some now } else x

/-- A pair's timer holds its count while a member is out and runs on when both are back. -/
def pairTimer (s : State) (k : Nat) (p : PairCfg) : State :=
  let x := getPair s k
  if !x.run then s
  else setPair s k (if pairOut s p.a || pairOut s p.b then timerHold s.now x else timerGo s.now x)

def pairTimers (s : State) : Nat → List PairCfg → State
  | _, [] => s
  | k, p :: ps => pairTimers (pairTimer s k p) (k + 1) ps

/-- Every unit looks at the values and owners as they stand. -/
def settle (s : State) : State :=
  let s := gateSettle (startSettle (motSettle (plenSettle (swSettle (sectSettle s)))))
  trigSettle (pairTimers (pinSettle (heatTracks s s.plt.plate.heats)) 0 s.plt.plate.pairs)

/-- A command that completes. -/
def fin (s : State) : Res := .next (settle s)

end Sys2Proof.Machine
end

