-- ==== Sys2Proof/Machine/ArbCalc.lean ====
section
/-! DEFINITION. The arbiters (R185 to R204): the choice of R186, both styles, withdrawal, freeze and drain. Each operation
maps one instance; the units that keep their queue themselves pass the candidates in. -/

namespace Sys2Proof.Machine

open Sys2Proof

/-- The least of a list. -/
def leastN : List Nat → Option Nat
  | [] => none
  | x :: xs => match leastN xs with | none => some x | some y => some (min x y)

/-- The next requester in round-robin order after the last one served: upwards by number, and from the lowest number after
reset (DESIGN CHOICE, assumption 48: R186 names no order and no start). -/
def rrNext (qs : List Nat) (last : Option Nat) : Option Nat :=
  match last with
  | none => leastN qs
  | some l => match leastN (qs.filter (fun q => decide (q > l))) with | some q => some q | none => leastN qs

/-- choose() of R186 with the best candidate of each half: the one chosen, whether it is background, fg_run. -/
def pick (fgRun : Nat) (fg bg : Option Nat) : Option (Nat × Bool) × Nat :=
  match bg, fg with
  | some b, none => (some (b, true), 0)
  | some b, some f => if fgRun == 7 then (some (b, true), 0) else (some (f, false), fgRun + 1)
  | none, some f => (some (f, false), 0)
  | none, none => (none, fgRun)

/-- A grant is counted (Table 5-10). -/
def countGrant (a : Arb) : Arb := { a with grants := (a.grants + 1) % 16777216 }
/-- A dead cycle is counted (R196). -/
def countDead (a : Arb) : Arb := { a with deads := satAdd 65535 a.deads 1 }

/-- The arbitration phase of a phase-separated instance: a grant is raised for the requester chosen by R186. -/
def phaseChoose (a : Arb) : Arb :=
  if a.frozen || a.deadDue || a.next.isSome then a
  else
    match pick a.fgRun (rrNext a.fg a.lastFg) (rrNext a.bg a.lastBg) with
    | (none, k) => { a with fgRun := k }
    | (some (r, true), k) => { a with fgRun := k, next := some r, bg := a.bg.filter (· != r), lastBg := some r }
    | (some (r, false), k) => { a with fgRun := k, next := some r, fg := a.fg.filter (· != r), lastFg := some r }

/-- A raised grant becomes the owner as soon as the resource is free (R189). GRANTS counts it here, so that a grant withdrawn
before its turn counts under DEAD alone (DESIGN CHOICE, assumption 48: Table 5-10 does not say which). -/
def phaseServe (a : Arb) : Arb :=
  if a.owner.isNone && !a.dead && a.next.isSome then countGrant { a with owner := a.next, next := none } else a

/-- Grant, serve, and grant again for the turn after. -/
def phaseSettle (a : Arb) : Arb := phaseChoose (phaseServe (phaseChoose a))

/-- A requester is in the queue, granted or owner. -/
def arbHas (a : Arb) (r : Nat) : Bool := a.fg.contains r || a.bg.contains r || a.next == some r || a.owner == some r

/-- A request of a phase-separated instance. -/
def phaseRequest (a : Arb) (r : Nat) (back : Bool) : Arb :=
  if arbHas a r then a
  else phaseSettle (if back then { a with bg := a.bg ++ [r] } else { a with fg := a.fg ++ [r] })

/-- The owner's release (Table 5-4 step 3); a dead cycle follows where the raised grant was withdrawn (R195). -/
def phaseRelease (a : Arb) : Arb :=
  if a.owner.isNone then a
  else if a.deadDue then phaseSettle (countDead { a with owner := none, deadDue := false, dead := true })
  else phaseSettle { a with owner := none }

/-- A withdrawal (R194, R195). -/
def phaseWithdraw (a : Arb) (r : Nat) : Arb :=
  if a.next == some r then { a with next := none, deadDue := true }
  else if a.owner == some r then phaseSettle (countDead { a with owner := none, dead := true })
  else { a with fg := a.fg.filter (· != r), bg := a.bg.filter (· != r) }

/-- The dead cycle ends; one that is due follows at once (R206). -/
def phaseDeadEnd (a : Arb) : Arb :=
  if !a.dead then a
  else if a.deadDue then phaseSettle (countDead { a with deadDue := false })
  else phaseSettle { a with dead := false }

/-- DRAINED (Table 5-5): freeze is set and no turn, raised grant or dead cycle is left. -/
def drained (a : Arb) : Bool := a.frozen && a.owner.isNone && a.next.isNone && !a.dead && !a.deadDue

/-- The styles by index (Table 5-3): phase-separated below 12 and at router ports. -/
def phaseStyle (n : Nat) : Bool := decide (n < 12) || decide (256 ≤ n ∧ n < 616)

/-! One-ahead instances: `fg` and `bg` are the best candidates of each half at this instant. -/

/-- The decision for the next turn (R191). -/
def aheadChoose (a : Arb) (fg bg : Option Nat) : Arb :=
  if a.frozen then a
  else
    match pick a.fgRun fg bg with
    | (none, k) => { a with fgRun := k, next := none }
    | (some (r, true), k) => { a with fgRun := k, next := some r, lastBg := some r }
    | (some (r, false), k) => { a with fgRun := k, next := some r }

/-- A turn starts: the decision held is served; a dead cycle where it was withdrawn (R191, R195). -/
def aheadServe (a : Arb) : Arb :=
  if a.frozen || a.owner.isSome || a.dead then a
  else if a.deadDue then countDead { a with deadDue := false, dead := true, next := none }
  else if a.next.isSome then countGrant { a with owner := a.next, next := none }
  else a

/-! Freeze bits. -/

/-- The keeper sets a freeze bit (R197): a one-ahead instance discards its decision. -/
def arbFreeze (n : Nat) (a : Arb) : Arb :=
  if a.frozen then a else if phaseStyle n then { a with frozen := true } else { a with frozen := true, next := none }

/-- The keeper clears it: a phase-separated instance decides afresh at once. -/
def arbUnfreeze (n : Nat) (a : Arb) : Arb :=
  if !a.frozen then a else if phaseStyle n then phaseSettle { a with frozen := false } else { a with frozen := false }

end Sys2Proof.Machine
end

