-- ==== Sys2Proof/Machine/StoreOps.lean ====
section
/-! DEFINITION. Hold-up energy and stores (R90 to R104), the turns of the bank controllers (R304 to R309), wear
(R316 to R323), row retirement requests (R329, R335) and uncorrectable words (R342). -/

namespace Sys2Proof.Machine

open Sys2Proof

/-! Energy. -/

/-- An entry of Table 2-7: capacitance in µF, inverse divider ratio, Vmin in mV. -/
def huClass (i : Nat) : Nat × Nat × Nat :=
  [(4700, 16, 9000), (10000, 16, 9000), (22000, 16, 9000), (47000, 16, 9000),
   (2200, 32, 18000), (4700, 32, 18000), (1000000, 4, 2700), (3300000, 4, 2700)].getD i (4700, 16, 9000)

/-- The index HU_CLASS2 to HU_CLASS0 (R60). -/
def huIndex (s : State) : Nat := maskOf ((s.straps.latched.drop 4).take 3)

/-- An HU_CLASS ball was found open (Table 2-10). -/
def huOpen (s : State) : Bool := ((s.straps.isOpen.drop 4).take 3).any id

/-- Capacitor voltage of a converter code in mV, rounded down (R90, R91). -/
def vcapMv (s : State) (code : Nat) : Nat := code * 2500 * (huClass (huIndex s)).2.1 / 4095

/-- E of R90 in µJ, rounded down: ½ × C × (V² − Vmin²) × 0.8, 0 below Vmin and while VANA_LOW holds (R91). -/
def energyOf (s : State) (code : Nat) : Nat :=
  let c := huClass (huIndex s)
  let a := code * 2500 * c.2.1
  let b := c.2.2 * 4095
  if s.pwr.vanaLow || a ≤ b then 0 else 4 * c.1 * (a * a - b * b) / (10 * 4095 * 4095 * 1000000)

/-- What R119 makes of a code: 1 full scale, 2 below 2 % of full scale, 0 in range. -/
def snsKind (code : Nat) : Nat := if code ≥ 4095 then 1 else if code < 82 then 2 else 0

/-- VIO and VANA are in range (Table 3-1) as last measured; a rail that nothing has measured yet counts as in range, since its
supervisor holds no reset (R119; DEDUCED, assumption 43). -/
def railsIn (p : Pwr) : Bool :=
  !p.vanaLow && (p.vioMv == 0 || decide (2970 ≤ p.vioMv ∧ p.vioMv ≤ 3630)) &&
    (p.vanaMv == 0 || decide (4750 ≤ p.vanaMv ∧ p.vanaMv ≤ 5250))

/-- A reading of HOLDUP_SNS (R90), and since when it has stood where it stands (R119). -/
def readHoldup (s : State) (code : Nat) : State :=
  let c := satTo 4095 code
  let k := snsKind c
  let same := k == snsKind s.pwr.snsCode
  let bad := if k == 0 || !railsIn s.pwr then none else some (if same then s.pwr.snsBadSince.getD s.now else s.now)
  let good := if k == 0 then some (if same then s.pwr.snsGoodSince.getD s.now else s.now) else none
  { s with pwr := { s.pwr with snsCode := c, energyUj := energyOf s c, snsBadSince := bad, snsGoodSince := good } }

/-- The reading that precedes a store decision: of the level that the ball has now (R90). -/
def readPin (s : State) : State := readHoldup s s.pwr.snsPin

/-- A command that tells the level of HOLDUP_SNS, with its reading. -/
def senseHoldup (s : State) (code : Nat) : State := readPin { s with pwr := { s.pwr with snsPin := satTo 4095 code } }

def eWord : Nat := 900
def eChunk : Nat := 70000
def eErase : Nat := 2000
def eGate : Nat := 1190000

/-- The energy a store needs in hand: twice its worst energy (R94), a unit twice the sum of its words (R95). A second store of
R304 is one word. -/
def storeNeed (t : Store) : Nat :=
  if t.second then 2 * eWord
  else match t.kind with
  | .word => 2 * eWord
  | .chunk => 2 * eChunk
  | .erase => 2 * eErase
  | .unit => 2 * eWord * t.words.length
  | .read => 0

/-- The kind number of ENERGY_REFUSED (Table 10-7). -/
def storeKindNo (t : Store) : Nat :=
  if t.second then 0 else match t.kind with | .word => 0 | .chunk => 1 | .erase => 2 | .unit => 3 | .read => 0

/-- Table 3-7 lists the owner, so a warning does not drop its queued store (R109). -/
def listed37 (o : Owner) : Bool :=
  match o with
  | .powerCycle | .opSeconds | .authCount _ | .calHistory | .chunk | .mirror => true
  | .persistent _ k => k ≤ 3
  | _ => false

/-- A background turn of a bank (Table 8-3). The stores of the scrub progress, which the table does not list, are the
scrubber's, as its reads and rewrites are (DESIGN CHOICE, assumption 15). A second store of R304 goes ahead of every other
store of its bank, so it takes a foreground turn. -/
def background (t : Store) : Bool :=
  !t.second &&
    (match t.owner with
      | .scrubRead | .scrubRewrite | .scrubProgress | .retireCopy | .retireRead | .journal _ | .lateMap => true
      | _ => false)

/-- A store that a full queue refuses and its owner makes again in a later pass (R102). -/
def leftByQueue (t : Store) : Bool :=
  match t.owner with
  | .scrubRewrite | .scrubProgress | .retireCopy | .wear => true
  | .chunk => t.kind == .chunk && t.words.isEmpty
  | _ => false

/-- A store that a service request makes before its reply, which never enters the queue (R103). -/
def svcStore (t : Store) : Bool :=
  match t.owner with | .keyCell | .siteId | .preferred | .image => true | _ => false

/-- E allows the store at the reading just made. -/
def canStore (s : State) (t : Store) : Bool := s.pwr.energyUj ≥ storeNeed t

/-- The array may be written: the hold-up gate has passed (R120), or fatal service stores its mirror (R361); with an open
HU_CLASS ball nothing is stored (R77). -/
def mayStoreNow (s : State) : Bool := (s.pwr.gate || s.start.state == .fatalService) && !huOpen s

/-- A store refused for energy: REFUSED, and ENERGY_REFUSED at most once per minute and kind (R413). -/
def energyRefused (s : State) (t : Store) : State :=
  let k := storeKindNo t
  let s := { s with pwr := { s.pwr with refused := true } }
  let due := match s.pwr.refusedAt.getD k none with | none => true | some a => s.now - a ≥ 60000000
  if due then
    addRecord { s with pwr := { s.pwr with refusedAt := listSet s.pwr.refusedAt k (some s.now) } } 0x5004 5 (pw k)
      (pw s.pwr.energyUj)
  else s

/-- A store that carries a new value for its word: neither a correction rewrite (R326) nor the copy into a spare row. -/
def newValue (t : Store) : Bool := t.kind == .word && t.owner != .scrubRewrite && t.owner != .retireCopy

/-- Two stores give values to the same word (R101). -/
def sameWord (a b : Store) : Bool := newValue a && newValue b && (a.words.map (·.1)) == (b.words.map (·.1))

/-- Replace the value of a queued store to the same word, which becomes a first store of the new value. -/
def replaceStore (t : Store) : List Store → Option (List Store)
  | [] => none
  | x :: xs => if sameWord x t then some ({ x with words := t.words, flush := t.flush, second := false } :: xs)
    else (replaceStore t xs).map (x :: ·)

/-- Time in power-fail warnings so far. -/
def warnUs (s : State) : Nat := s.pwr.pfwUs + (if s.pwr.pfw then s.now - s.pwr.pfwSince else 0)

/-- Put a store into a list at its place in the order of arrival (R102). -/
def insertStore (t : Store) : List Store → List Store
  | [] => [t]
  | x :: xs => if t.arrived < x.arrived then t :: x :: xs else x :: insertStore t xs

/-- A store that the queue has passed to its bank and that has not started: a refusal at its turn start brings it back, so it
keeps its entry (R102, R103). -/
def passedOn (t : Store) : Bool := t.since.isSome && !t.started

/-- Entries of the queue in use. -/
def queueTaken (s : State) : Nat :=
  s.pwr.queue.length + (s.nvm.bank0.turns.filter passedOn).length + (s.nvm.bank1.turns.filter passedOn).length +
    (s.nvm.bank2.turns.filter passedOn).length + (s.nvm.bank3.turns.filter passedOn).length

/-- The queue takes a refused store, in order of arrival; when its 64 entries are in use, the stores wait with their owners,
also in order of arrival (R100, R102). -/
def queuePlace (s : State) (t : Store) : State :=
  let again := t.since.isSome
  let t := if again then t else { t with since := some s.now, warn := warnUs s, arrived := s.pwr.arrivals }
  let p := if again then s.pwr else { s.pwr with arrivals := s.pwr.arrivals + 1 }
  if queueTaken s < 64 && (again || p.waiting.isEmpty) then { s with pwr := { p with queue := insertStore t p.queue } }
  else if leftByQueue t then s
  else { s with pwr := { p with waiting := insertStore t p.waiting } }

/-- Put a refused or torn store into the queue, unless a later store to the same word waits there or for its turn of the bank:
that one stands in its place (R101). -/
def enqueue (s : State) (b : Nat) (t : Store) : State :=
  if (s.pwr.queue ++ s.pwr.waiting ++ (getBank s.nvm b).turns).any (fun x => sameWord x t) then s else queuePlace s t

/-- Waiting stores enter a queue with room, in order of arrival (R102). -/
def refillQueue (s : State) : State :=
  let k := 64 - queueTaken s
  { s with pwr := { s.pwr with queue := s.pwr.queue ++ s.pwr.waiting.take k, waiting := s.pwr.waiting.drop k } }

def getArb (s : State) (n : Nat) : Arb := tget {} s.spn.arbs n
def setArb (s : State) (n : Nat) (a : Arb) : State := { s with spn := { s.spn with arbs := tset {} s.spn.arbs n a } }
def modArb (s : State) (n : Nat) (f : Arb → Arb) : State := setArb s n (f (getArb s n))

/-- Requester numbers of the stores and read packets that State holds, on a bank's arbiter: one for the foreground turns of a
bank, one for the background ones. Other requesters, such as a keeper fetch, ask under the numbers of Table 5-2 (DESIGN
CHOICE, assumption 12). -/
def portFg : Nat := 200
def portBg : Nat := 201
/-- The port by which the shared SRAM scrub asks at its banks (R489; DESIGN CHOICE, assumption 12). -/
def portSram : Nat := 202

/-- A row waits for its erase, or its erase sequence runs. -/
def rowInErase (n : Nvm) (bank row : Nat) : Bool :=
  isErasing n bank row || (getBank n bank).eraseWait.any (fun e => e.1 == row)

/-- A turn that its row's erase sequence holds (R306), or a pulse that a power-fail warning holds (R109). -/
def heldStore (n : Nvm) (t : Store) : Bool :=
  match t.kind with
  | .read => false
  | .erase => match (getBank n t.bank).erase with | some e => e.paused | none => false
  | .chunk => match t.words with | [] => false | w :: _ => rowInErase n (locBank w.1) (locRow w.1)
  | _ => match t.words with | [] => false | w :: _ => isErasing n (locBank w.1) (locRow w.1)

/-- The stores that step 4 of a retirement makes behind the frozen arbiter of its bank (Table 8-5). -/
def behindFreeze (n : Nvm) (b : Nat) (t : Store) : Bool :=
  match n.retire with
  | some r => r.bank == b && r.step == 4 && (t.owner == .retireCopy || t.owner == .retireMap)
  | none => false

/-- The first of them, and the other turns. -/
def takeBehind (n : Nvm) (b : Nat) : List Store → Option (Store × List Store)
  | [] => none
  | t :: ts => if behindFreeze n b t then some (t, ts) else (takeBehind n b ts).map (fun x => (x.1, t :: x.2))

/-- The first turn of a class that nothing holds and that waits for a grant, and the others. -/
def takeReady (n : Nvm) (b : Nat) (back : Bool) : List Store → Option (Store × List Store)
  | [] => none
  | t :: ts =>
    if background t == back && !heldStore n t && !behindFreeze n b t then some (t, ts)
    else (takeReady n b back ts).map (fun x => (x.1, t :: x.2))

/-- The bank's turns request their classes' turns of its arbiter (R308). -/
def bankRequest (s : State) (b : Nat) : State :=
  let ts := (getBank s.nvm b).turns
  let ask := fun (back : Bool) (port : Nat) (a : Arb) =>
    if (takeReady s.nvm b back ts).isSome then phaseRequest a port back else a
  modArb s (8 + b) (fun a => ask true portBg (ask false portFg a))

/-! The repair-map entries take their indices as their units start (R466, R476), so that a unit that is dropped or lost
before its start leaves no index unused. -/

/-- An owner of repair-map entries. -/
def mapOwner (o : Owner) : Bool := o == .repairMap || o == .lateMap || o == .retireMap

/-- The words of an entry that has no index yet: it stands at the place of MAGIC. -/
def mapWords (i : Nat) (e : Word) : List (Nat × Word) := [(mapLoc 0 i, e), (mapLoc 1 i, e)]

/-- An entry without an index. -/
def unplaced (t : Store) : Bool := mapOwner t.owner && t.kind == .unit && (t.words.map (·.1)).head? == some (mapLoc 0 0)

/-- The unit of an entry takes the next index. -/
def mapPlace (s : State) (t : Store) : State × Store :=
  match t.words with
  | x :: _ =>
    if unplaced t then
      ({ s with prf := { s.prf with indices := s.prf.indices + 1 } }, { t with words := mapWords (2 + s.prf.indices) x.2 })
    else (s, t)
  | [] => (s, t)

/-- A store refused for energy when its turn starts (R94, R100, R103): one of a service request is dropped, and in a warning a
repair-map unit (R340, R492); another waits in the queue (R101). -/
def refuseTurn (s : State) (b : Nat) (t : Store) : State :=
  let s := energyRefused s t
  if svcStore t then { s with nvm := { s.nvm with svcRefused := true } }
  else if s.pwr.pfw && mapOwner t.owner && !t.second then s
  else enqueue s b t

/-- The turn of a store starts: its energy is checked at a reading of its own, unless it goes on with a unit or chunk that has
started (R90, R94, R95). The entry of the queue that it came from is free for a store that waits (R102). -/
def startTurn (s : State) (b : Nat) (t : Store) (rest : List Store) : State :=
  let take := fun (s : State) (h : Option Store) =>
    { s with nvm := setBank s.nvm b { getBank s.nvm b with hand := h, turns := rest } }
  if t.kind == .read || t.started then take s (some t)
  else
    let s := readPin s
    if !(mayStoreNow s && canStore s t) then refuseTurn (take s none) b t
    else if unplaced t && s.prf.indices ≥ 8190 then take s none
    else
      let (s, t) := mapPlace s t
      let s := take s (some { t with started := true })
      if t.since.isSome then refillQueue s else s

/-- The turn that the bank's owner may start now: of the class granted, or behind the frozen arbiter. -/
def nextTurn (s : State) (b : Nat) : Option (Store × List Store) :=
  let x := getBank s.nvm b
  let a := getArb s (8 + b)
  if x.hand.isSome then none
  else if a.owner == some portFg then takeReady s.nvm b false x.turns
  else if a.owner == some portBg then takeReady s.nvm b true x.turns
  else if drained a then takeBehind s.nvm b x.turns
  else none

/-- A class that has nothing to start withdraws its request (R194, R195). -/
def bankDrop (s : State) (b : Nat) : State :=
  let x := getBank s.nvm b
  let drop := fun (back : Bool) (port : Nat) (a : Arb) =>
    if (takeReady s.nvm b back x.turns).isSome || (a.owner == some port && x.hand.isSome) then a else phaseWithdraw a port
  modArb s (8 + b) (fun a => drop true portBg (drop false portFg a))

/-- The bank serves: turns start until one is in hand or none may start; the first argument bounds them. -/
def bankServe (b : Nat) : Nat → State → State
  | 0, s => s
  | k + 1, s =>
    match nextTurn s b with
    | some (t, rest) =>
      let s := startTurn s b t rest
      if (getBank s.nvm b).hand.isSome then s else bankServe b k (bankRequest (modArb s (8 + b) phaseRelease) b)
    | none => bankDrop s b

/-- The bank's turns ask, and one starts where the arbiter grants it. -/
def bankAsk (s : State) (b : Nat) : State :=
  let s := bankRequest s b
  bankServe b (2 * (getBank s.nvm b).turns.length + 2) s

/-- A turn of a bank is in hand. -/
def bankOwned (s : State) (b : Nat) : Bool := (getBank s.nvm b).hand.isSome

/-- The turn in hand ends. -/
def dropHand (s : State) (b : Nat) : State :=
  { s with nvm := setBank s.nvm b { getBank s.nvm b with hand := none } }

/-- The bank is released, and the next turn starts. -/
def bankRelease (s : State) (b : Nat) : State :=
  let o := (getArb s (8 + b)).owner
  bankAsk (if o == some portFg || o == some portBg then modArb s (8 + b) phaseRelease else s) b

/-- An arbiter that other requesters move too: where it is a bank's, a turn of that bank may start. -/
def arbMoved (s : State) (n : Nat) : State := if 8 ≤ n ∧ n < 12 then bankAsk s (n - 8) else s

/-- The bank of a store. -/
def storeBank (t : Store) : Nat :=
  match t.words with
  | [] => t.bank
  | w :: _ => locBank w.1

/-- Pass a store to its bank's arbiter: behind the others, a second store of R304 ahead of them. -/
def startStore (s : State) (t : Store) : State :=
  let b := storeBank t
  let x := getBank s.nvm b
  bankAsk { s with nvm := setBank s.nvm b { x with turns := if t.second then t :: x.turns else x.turns ++ [t] } } b

/-- Request an internal store: a queued store to the same word takes its value (R101); any other is passed to its bank, where
its energy is checked when its turn starts (R94, R100). -/
def requestStore (s : State) (t : Store) : State :=
  match replaceStore t s.pwr.queue, replaceStore t s.pwr.waiting with
  | some q, _ => { s with pwr := { s.pwr with queue := q } }
  | none, some w => { s with pwr := { s.pwr with waiting := w } }
  | none, none => startStore s t

/-- Request a store of one word. -/
def storeWord (s : State) (o : Owner) (l : Nat) (w : Word) : State :=
  requestStore s { kind := .word, owner := o, words := [(l, w)] }

def storeWords (s : State) (o : Owner) : List (Nat × Word) → State
  | [] => s
  | x :: xs => storeWords (storeWord s o x.1 x.2) o xs

/-- A row is under retirement, or waits for it: an erase of it waits (R332). -/
def retiring (n : Nvm) (bank row : Nat) : Bool :=
  n.retireWait.contains (bank, row) ||
    (match n.retire with | some r => r.bank == bank && r.row == row | none => false) ||
    n.journaled.any (fun r => r.bank == bank && r.row == row)

/-! Erase sequences. -/

/-- Request an erase of a row (R305 to R307): one sequence per bank, further requests wait; during a warning the first
pulse waits for its end (R109). -/
def requestErase (s : State) (bank row : Nat) (o : Owner) : State :=
  let x := getBank s.nvm bank
  if x.erase.isSome || retiring s.nvm bank row then
    { s with nvm := setBank s.nvm bank { x with eraseWait := x.eraseWait ++ [(row, o)] } }
  else
    let s := { s with nvm := setBank s.nvm bank { x with erase := some { row := row, owner := o, paused := s.pwr.pfw } } }
    if s.pwr.pfw then s else requestStore s { kind := .erase, owner := o, bank := bank, row := row }

/-- The next waiting erase of a bank whose row no retirement holds (R307, R332). -/
def nextErase (s : State) (bank : Nat) : State :=
  let x := getBank s.nvm bank
  if x.erase.isSome then s
  else
    match x.eraseWait.find? (fun e => !retiring s.nvm bank e.1) with
    | none => s
    | some e =>
      let wait := removeFirst (fun y => y == e) x.eraseWait
      requestErase { s with nvm := setBank s.nvm bank { x with eraseWait := wait } } bank e.1 e.2

/-! Wear. -/

/-- The wear word of a row of bank 3. -/
def wearLoc (row : Nat) : Nat := locOf 3 row 511

/-- The highest wear word of bank 3 that reads. -/
def wearTop (n : Nvm) : Nat :=
  (rangeFrom 0 144).foldl (fun m r => match nvWord n (wearLoc r) with | some w => max m w.toNat | none => m) 0

/-- The count of a wear word; one that reads UNCORR counts 1 000 more than the highest (Table 8-7; assumption 15). -/
def wearWord (n : Nvm) (row : Nat) : Nat :=
  match cellAt' n (wearLoc row) with
  | .erased => 0
  | .clean w => w.toNat
  | .corrected w => w.toNat
  | .uncorr _ => wearTop n + 1000

/-- A word of a row has been programmed. -/
def rowUsed (n : Nvm) (bank row : Nat) : Bool := n.cells.any (fun c => c.1 / 512 == locOf bank row 0 / 512)

/-- The cycles that Table 8-4 counts for a mapped row in life. -/
def rawCycles (s : State) (bank row : Nat) : Nat :=
  let n := s.nvm
  if bank == 3 && row ≤ 143 then wearWord n row
  else if bank == 2 && row == 162 then max ((n.opStores + 63) / 64) ((storedPcc n + 63) / 64)
  else if bank == 2 && row < 32 then b2n (rowUsed n bank row)
  else if bank == 2 && row ≤ 161 then s.recr.seq / 130 + 1
  else if bank == 3 && row == 1008 then n.scrubPass
  else if bank ≤ 1 && row ≤ 799 then
    let k := 10 + 2 * bank + (if row ≤ 767 then 0 else 1)
    match nvWord n (locOf 3 0 k) with | some w => satTo 1023 w.toNat | none => 0
  else if writeOnceRow bank row then
    b2n (rowUsed n bank row) +
      (n.rewrites.filter (fun e => e.1 / 512 == locOf bank row 0 / 512)).foldl (fun (m : Nat) e => max m e.2) 0
  else 0

/-- The counted cycles of the row in use: a spare row's count starts at 0 (R322). -/
def rowCycles (s : State) (bank row : Nat) : Nat := rawCycles s bank row - tget 0 s.nvm.wearBase (locOf bank row 0)

/-- Rows waiting for retirement, each once (R329); a bank without spares raises NVM_SPARES_OUT (R335). -/
def wantRetire (s : State) (bank row : Nat) : State :=
  let x := getBank s.nvm bank
  if retiring s.nvm bank row then s
  else if x.spares.length ≥ 32 then raiseU s 0x24 (pw (locOf bank row 0))
  else { s with nvm := { s.nvm with retireWait := s.nvm.retireWait ++ [(bank, row)] } }

/-- The wear limits of a row after a store or erase (R322). -/
def checkWear (s : State) (bank row : Nat) : State :=
  let c := rowCycles s bank row
  let l := locOf bank row 0
  let s := if c ≥ 900000 && !s.nvm.wearRaised.contains l then
      pulse { s with nvm := { s.nvm with wearRaised := l :: s.nvm.wearRaised } } 0x22 (pw l)
    else s
  if c ≥ 1000000 then wantRetire s bank row else s

/-! Uncorrectable words. -/

/-- The active keeper or engine slot's bank: bank 0 for pair A, bank 1 for pair B (R431). -/
def activeBank (s : State) : Nat := if s.start.running then 1 else 0

/-- NVM_UNCORR is Advisory in these regions (Table 8-7): rotation set, scrub progress, journal. -/
def uncorrAdvisory (l : Nat) : Bool :=
  (locBank l == 2 && locRow l == 162) || (locBank l == 3 && locRow l == 1008)

/-- A word read UNCORR (R342): flag, count, fault, retirement of the row. -/
def uncorrFound (s : State) (l : Nat) : State :=
  let b := locBank l
  let x := getBank s.nvm b
  let n := setBank { s.nvm with uncorrFlag := true } b { x with uncorr := satAdd 255 x.uncorr 1 }
  let s := pulse { s with nvm := n } (if uncorrAdvisory l then 0x20 else 0x1F) (pw l)
  wantRetire s b (locRow l)

/-- A word read CORRECTED: counted in CORR of its bank (R326). -/
def correctedFound (s : State) (l : Nat) : State :=
  let b := locBank l
  let x := getBank s.nvm b
  { s with nvm := setBank s.nvm b { x with corr := satAdd 65535 x.corr 1 } }

/-- A word that a read meets: UNCORR has its consequence (R342), CORRECTED is counted; ERASING is neither. -/
def wordFound (s : State) (l : Nat) : State :=
  if isErasing s.nvm (locBank l) (locRow l) then s
  else match cellAt' s.nvm l with
    | .uncorr _ => uncorrFound s l
    | .corrected _ => correctedFound s l
    | _ => s

/-- The words that a read meets, in its order. -/
def wordsFound (s : State) : List Nat → State
  | [] => s
  | l :: ls => wordsFound (wordFound s l) ls

/-! Write-once rows. -/

/-- The words of a unit still erased: those a repeated write programs (R314). -/
def onceMissing (n : Nvm) (ws : List (Nat × Word)) : List (Nat × Word) :=
  ws.filter (fun x => cellAt' n x.1 == .erased)

end Sys2Proof.Machine
end

