-- ==== Sys2Proof/Machine/FabricOps.lean ====
section
/-! DEFINITION. Operations on islands (chapter 06) and on the repair map (chapter 12) that several families share. -/

namespace Sys2Proof.Machine

open Sys2Proof

/-! Inputs. -/

/-- The moored state, or boot-ROM service. -/
def isMoored (s : State) : Bool := s.start.state == .moored || s.start.state == .bootService

/-- The input balls of Table 2-6 that some state ignores. -/
inductive InBall where
  | blank (n : Nat)
  | canRxd (n : Nat)
  | pfwN
  | svcRxd
  | heatPmt (n : Nat)
  | fanTach (n : Nat)
  | motFb (n : Nat)
  | motMov (n : Nat)
  deriving DecidableEq, Repr

/-- An input is acted on in the present state (Table 2-6, R75). -/
def ballHeard (s : State) : InBall → Bool
  | .blank _ => !s.flt.fatal && !s.rst.held && !isMoored s
  | .pfwN | .svcRxd => !s.rst.held
  | .canRxd _ | .heatPmt _ | .fanTach _ | .motFb _ | .motMov _ => !s.flt.fatal && !s.rst.held

/-! Islands. -/

def setIsl (s : State) (i : Nat) (x : IslSt) : State := { s with isl := { s.isl with isls := listSet s.isl.isls i x } }

/-- An island takes transfers: neither STOPPED nor in RESYNC. -/
def islRuns (s : State) (i : Nat) : Bool := let st := (getIsl s i).st; st == 1 || st == 2

/-- An island discards an entry at a full queue (R225); the parameter names the island in bits 7:0 and the queue in
bits 15:8 (DESIGN CHOICE, assumption 12). -/
def islOverflow (s : State) (i q : Nat) : State :=
  let x := getIsl s i
  let s := setIsl s i { x with overflows := satAdd 65535 x.overflows 1, ovf := true }
  pulse s 0x15 (packW [(7, 0, i), (15, 8, q)])

/-- A status-register counter's island is out of service: no island in STOPPED clears the source (R240). -/
def islCause (s : State) : State :=
  if s.isl.isls.any (fun x => x.st == 3 || x.st == 4) then s else causeOff s 0x0A

/-! The repair map (R476 to R478). -/

/-- Store one entry in both copies, as one unit (Table 3-4); it takes the next index as its unit starts. -/
def mapStoreAs (s : State) (o : Owner) (e : Word) : State :=
  if s.prf.noMap || s.prf.indices ≥ 8190 then s
  else requestStore s { kind := .unit, owner := o, words := [(mapLoc 0 0, e), (mapLoc 1 0, e)] }

/-- A new entry: stored at once, or kept for step 6 where the proof has stored its 128 (R487). -/
def mapStore (s : State) (e : Word) : State :=
  if s.start.step == 5 && s.prf.newN > 128 then { s with prf := { s.prf with lateMap := s.prf.lateMap ++ [e] } }
  else mapStoreAs s .repairMap e

/-- The keeper stores the entries that the proof has left to it, as background stores (R487). -/
def mapLates (s : State) : List Word → State
  | [] => { s with prf := { s.prf with lateMap := [] } }
  | e :: es => mapLates (mapStoreAs s .lateMap e) es

/-- A field entry of a KIND (Table 12-5). -/
def mapEntry (kind wher : Nat) : Word := packW [(39, 36, kind), (35, 35, 1), (22, 0, wher)]

/-- A new defect (R470): its entry stored, PROOF_NEW_DEFECT with the entry as parameter. -/
def newDefect (s : State) (e : Word) : State :=
  pulse (mapStore { s with prf := { s.prf with newN := satAdd 255 s.prf.newN 1 } } e) 0x19 e

/-- A slice passes the reference check: every measurement lies within its limit (R473, Table 12-3). The percentages are of the
nominal values (DESIGN CHOICE, assumption 54). -/
def refOk (x : SliceRef) : Bool :=
  decide (absI x.off1 ≤ 50000) && decide (absI x.off128 ≤ 50000) && decide (absI (x.vref - 2500000000) ≤ 2500000) &&
    decide (absI (x.div100 - 25000000) ≤ 25000) && decide (absI (x.div1000 - 2500000) ≤ 5000) &&
    decide (absI (x.path - 100000000) ≤ 1500000)

/-- A logical tile or a slice retired during step 8: admission runs once more (R557). -/
def rerunDue (s : State) : State :=
  if s.start.step == 8 && !s.adm.reran then { s with adm := { s.adm with rerun := true } } else s

/-- The mask of retired slices. -/
def retiredMask (s : State) : Nat := maskOf ((rangeFrom 0 6).map (fun n => s.prf.retired.contains n))

/-- Slices in service. -/
def slicesIn (s : State) : List Nat := (rangeFrom 0 6).filter (fun n => !s.prf.retired.contains n)

end Sys2Proof.Machine
end

