-- ==== Sys2Proof/Machine/Air.lean ====
section
/-! DEFINITION. Fans, air and the hard trip (chapter 18): SPEED_PUBLICATION, FAN_LOSS, HARD_TRIP, FOG_START,
PWM_PERIOD_BOUNDARY; the loop of R683 and the operations of fog mode. -/

namespace Sys2Proof.Machine

open Sys2Proof

/-! Speeds (R686). -/

/-- W in µs (R686). -/
def speedWindow (c : FanCfg) : Nat :=
  if c.stall ≤ 0 then 1000000
  else
    let d := c.stall.toNat * c.ppr
    if d == 0 then 1000000 else max 100000 (divRoundEven (120000000 * qOne) d).toNat

/-- The speed of k edges over `span` ticks of 25 ns, as a value (R686). -/
def speedOf (c : FanCfg) (k span : Nat) : QRes :=
  if k < 2 || span * c.ppr == 0 then ⟨0, false⟩
  else qFrac (60 * ((k - 1 : Nat) : Int) * 40000000) (c.ppr * span)

/-- The same speed in whole rpm (FAN_TACHn). -/
def rpmOf (c : FanCfg) (k span : Nat) : Nat :=
  if k < 2 || span * c.ppr == 0 then 0
  else satTo 1048575 (divRoundEven (60 * ((k - 1 : Nat) : Int) * 40000000) (c.ppr * span)).toNat

/-- A tachometer frequency above 10 kHz gives an undefined speed (R703). -/
def tachUndefined (k span : Nat) : Bool := decide (2 ≤ k ∧ (k - 1) * 4000 > span)

/-- Publish one local speed: UNIT 0x03, GOOD. A saturation of it counts under R272 with the channel's number of R683. -/
def publishSpeed (s : State) (t : Nat × Nat × Nat) : State :=
  match fanCfg s t.1 with
  | none => s
  | some c =>
    if t.1 ≥ 32 then s
    else
      let (v, rpm, s) := if tachUndefined t.2.1 t.2.2 then
          let (w, s) := takeFree s
          (qOf w, satTo 1048575 (divRoundEven (qOf w) 1048576).toNat, s)
        else
          let r := speedOf c t.2.1 t.2.2
          (r.val, rpmOf c t.2.1 t.2.2, countSats s (0xE000 + t.1) 0x0D (satQ r))
      let s := setFan s t.1 { getFan s t.1 with rpm := rpm, edges := satTo 65535 t.2.1 }
      if c.speed == 0xFFF then s else putVal s c.speed (qWord v) .good 0x03

def publishSpeeds (s : State) : List (Nat × Nat × Nat) → State
  | [] => s
  | t :: ts => publishSpeeds (publishSpeed s t) ts

/-! The loop (R683). -/

/-- One F40 step with the words that saturated before and in it. -/
def fStep (r : FRes) (sats : List Word) : Word × List Word := (r.word, if r.sat then sats ++ [r.word] else sats)

/-- 100 and 0.1 in F40. -/
def fHundred : Word := (fRound (frInt 100)).word
def fTenth : Word := (fRound ⟨1, 10⟩).word

/-- What the loop answers: duty, integrator, whether it was held, saturations. -/
structure LoopRes where
  duty : Int
  i : Word
  held : Bool
  sats : List Word
  deriving DecidableEq, Repr

/-- The procedure of R683; `running`: block control holds the channel. -/
def fanLoop (c : FanCfg) (i : Word) (t : BIn) (running : Bool) : LoopRes :=
  if isBad t then ⟨pct100, i, true, []⟩
  else
    let (e, z) := fStep (fSub (qToF t.v).word (qToF c.setpoint).word) []
    let (p, z) := fStep (fMul c.kp e) z
    let pos := decide ((fVal c.ti).num > 0)
    let (d, z) := if pos then
        let (a, z) := fStep (fMul p fTenth) z
        fStep (fDiv a c.ti) z
      else (0#40, z)
    let (iNew, z) := if pos then fStep (fAdd i d) z else (i, z)
    let (u, z) := fStep (fAdd p iNew) z
    let windup := (frLt (frInt 100) (fVal u) && decide ((fVal e).num > 0)) ||
      (decide ((fVal u).num < 0) && decide ((fVal e).num < 0))
    let take := !windup && running
    let i' := if take then iNew else i
    let (y, z) := fStep (fAdd p i') z
    let y := if frLt (frInt 100) (fVal y) then fHundred else if (fVal y).num < 0 then 0#40 else y
    let q := fToQ y
    ⟨clampPct q.val, i', !take, if q.sat then z ++ [qWord q.val] else z⟩

/-- Every LOOP channel (R683, R685). -/
def fanLoops (s : State) : List FanCfg → State
  | [] => s
  | c :: cs =>
    if c.mode != 2 then fanLoops s cs
    else
      let f := getFan s c.ch
      let r := fanLoop c f.i (readVal s c.source) (isArmed s && (fanRes s c.ch).1 == 6)
      let s := setFan s c.ch { f with i := r.i, loopOut := r.duty, heldI := r.held }
      fanLoops (countSats s (0xE000 + c.ch) 0x0D r.sats) cs

/-! Stall and fan loss (R688 to R691). -/

def fanSup (c : FanCfg) : Bool := c.speed != 0xFFF && decide (c.stall > 0)

/-- The SPEED value is below the stall speed or bad. -/
def slowFan (s : State) (c : FanCfg) : Bool := let x := readVal s c.speed; isBad x || decide (x.v < c.stall)

/-- Effective duty above 0. -/
def dutyOn (s : State) (ch : Nat) : Bool := decide ((fanRes s ch).2 > 0)

/-- The stall count of one channel (R688). -/
def stallEval (s : State) (c : FanCfg) : State :=
  if !fanSup c then s
  else
    let f := getFan s c.ch
    let t := sinceIf s.now (dutyOn s c.ch && slowFan s c) f.stallSince
    let st := heldFor s.now t (c.stallMs * 1000)
    let s := setFan s c.ch { f with stallSince := t, stalled := st }
    if st && !f.stalled then raiseU s 0x39 (pw c.ch) else s

def stallEvals (s : State) : List FanCfg → State
  | [] => s
  | c :: cs => stallEvals (stallEval s c) cs

/-- The fan group of a dryer (R689). -/
def fanGroup (s : State) (d : Nat) : List FanCfg := s.plt.plate.fans.filter (·.group == d)

/-- A supervised channel reads at or above its stall speed, GOOD or FORCED. -/
def fanTurns (s : State) (c : FanCfg) : Bool :=
  let x := readVal s c.speed
  (x.q == .good || x.q == .forced) && decide (x.v ≥ c.stall)

/-- The group runs (R689). -/
def groupRuns (s : State) (d : Nat) : Bool :=
  let g := (fanGroup s d).filter fanSup
  decide (2 * (g.filter (fanTurns s)).length ≥ g.length)

/-- The fan-loss condition (R690). -/
def lossCond (s : State) (d : Nat) : Bool :=
  !groupRuns s d && ((fanGroup s d).any (fun c => dutyOn s c.ch) ||
    s.plt.plate.heats.any (fun h => h.dryer == d && decide (heatAsk s h.ch > 0)))

/-- One dryer at a publication. -/
def lossEval (s : State) (d : Nat) : State :=
  let run := s.fan.running.filter (· != d)
  let l := sinceIf s.now (lossCond s d) (tget none s.fan.lossSince d)
  let f := { s.fan with running := if groupRuns s d then run ++ [d] else run }
  let f := { f with lossSince := tset none f.lossSince d l }
  { s with fan := if l.isNone then { f with lossRaised := f.lossRaised.filter (· != d) } else f }

def lossEvals (s : State) : List Nat → State
  | [] => s
  | d :: ds => lossEvals (lossEval s d) ds

/-- The dryers 0 to 3 that the plate declares or that a fan group names. -/
def fanDryers (s : State) : List Nat :=
  (rangeFrom 0 4).filter (fun d => s.plt.plate.dryers.any (·.dryer == d) || s.plt.plate.fans.any (·.group == d))

/-- SPEED_PUBLICATION (R686): per local channel the edges within W and the ticks of 25 ns from the first to the last.
Speeds are written from step 9 while the PWM island runs; loops, stall and fan loss are judged at each publication. -/
def execSpeedPublication (tach : List (Nat × Nat × Nat)) (s : State) : Res :=
  if !frontOn s || !pubDue s s.fan.pubAt then .next s
  else
    let s := { s with fan := { s.fan with pubAt := some s.now } }
    let s := if islRuns s 5 then publishSpeeds s tach else s
    let s := lossEvals (stallEvals (fanLoops s s.plt.plate.fans) s.plt.plate.fans) (fanDryers s)
    let s := if s.plt.plate.fans.any (fun c => (getFan s c.ch).stalled) then s else causeOff s 0x39
    fin (if s.fan.lossSince.isEmpty then causeOff s 0x3A else s)

/-- The longest STALL_MS of a group. -/
def groupStallMs (s : State) (d : Nat) : Nat := maxN ((fanGroup s d).map (·.stallMs))

/-- FAN_LOSS (R691): the condition has lasted longer than the longest STALL_MS of the group. -/
def execFanLoss (d : Nat) (s : State) : Res :=
  match tget none s.fan.lossSince d with
  | none => .next s
  | some t =>
    if !frontOn s || s.fan.lossRaised.contains d || decide (s.now - t ≤ groupStallMs s d * 1000) then .next s
    else fin (raiseU { s with fan := { s.fan with lossRaised := s.fan.lossRaised ++ [d] } } 0x3A (pw d))

/-! The hard trip (R693 to R695, R57, R72). -/

/-- RESET_N or the VANA power-on reset keeps the latch clear. -/
def tripBlocked (s : State) : Bool := s.rst.held && (s.rst.holders.contains 0 || s.rst.holders.contains 4)

/-- The operating seconds are known from step 2 of a start on (R436). -/
def opSecKnown (s : State) : Bool := !s.rst.held && decide (s.start.step ≥ 2)

/-- HARD_TRIP (R693): comparators that fire, bit 2 threshold, bit 1 open, bit 0 short; an open sensor reads above every
threshold. -/
def execHardTrip (cause : Nat) (s : State) : Res :=
  let m := if bitsN cause 1 1 == 1 then cause % 8 ||| 4 else cause % 8
  if m == 0 || tripBlocked s then .next s
  else if s.fan.trip then .next { s with fan := { s.fan with tripCause := s.fan.tripCause ||| m } }
  else
    let t := if opSecKnown s then some s.cal.opSec else none
    let s := { s with fan := { s.fan with trip := true, tripCause := m, tripT := t } }
    if s.rst.held then .next s
    else
      -- step 4 precedes step 5
      fin (raiseU (routeHolds (settle s)) 0x3C (pw 0x0D))

/-! Fog mode (R698 to R701). -/

def supCfg (s : State) : Option SupCfg := s.plt.plate.sup.head?

def fogStops (s : State) : List Nat → State
  | [] => s
  | n :: ns =>
    let st := (getSect s n).st
    fogStops (if st == 2 || st == 3 then stopSect s n 3 else s) ns

/-- FOG_START (Table 18-3). -/
def execFogStart (s : State) : Res :=
  match supCfg s with
  | none => .next s
  | some c =>
    if !isArmed s || s.fan.fog || c.hostS == 0 || decide (s.now < s.fan.supFrom + c.hostS * 1000000) then .next s
    else
      let s := { s with fan := { s.fan with fog := true, hb := 0 } }
      let s := addRecord (raiseU s 0x3D (pw c.hostBus)) 0x2008 1 (pw c.hostBus) (pw c.hostS)
      fin (fogStops (routeHolds (settle s)) (fogSects s))

/-- FOG_END (R700): rank 4 releases, supervision runs from the last heartbeat. -/
def fogEnd (s : State) (port : Word) : State :=
  let f := { s.fan with fog := false, hb := 0, supFrom := s.fan.lastHb.getD s.now }
  causeOff (addRecord { s with fan := f } 0x2009 1 port 0#40) 0x3D

/-- A host heartbeat of node 0xFE on the host bus (R698, R699). -/
def hostBeat (s : State) : State :=
  match supCfg s with
  | none => s
  | some c =>
    let late := match s.fan.lastHb with
      | none => true
      | some t => decide (s.now - t > c.hostS * 1000000)
    let hb := if !s.fan.fog then 0 else if late then 1 else satTo 3 (s.fan.hb + 1)
    { s with fan := { s.fan with hb := hb, lastHb := some s.now, supFrom := s.now } }

/-! PWM periods (R677, R678, R739). -/

/-- PWM_PERIOD_BOUNDARY (R678): a period of a fan (kind 0) or heat-demand (kind 1) pin ends and the working setting is
taken. -/
def execPwmPeriodBoundary (kind ch : Nat) (s : State) : Res :=
  if !islRuns s 5 || s.rst.held then .next s
  else if kind == 0 then
    if ch < 32 then .next (setFan s ch { getFan s ch with pin := fanWant s ch }) else .next s
  else if kind == 1 then
    match heatCfg s ch with
    | none => .next s
    | some c => if ch < 8 then .next (setHtd s ch { getHtd s ch with pin := heatWant s c }) else .next s
  else .next s

end Sys2Proof.Machine
end

