-- ==== Sys2Proof/Machine/CalCalc.lean ====
section
/-! DEFINITION. Calendar arithmetic (R837, R838, R844, R851): dates from seconds since 2000-01-01 00:00:00 and back, the
layout of Table 22-4, impossible settings and schedule matching. The range of R838 is one cycle of 400 years. -/

namespace Sys2Proof.Machine

open Sys2Proof

/-- A date and time; `wday` is 1 Monday to 7 Sunday. -/
structure CalDate where
  year : Nat
  month : Nat
  day : Nat
  hour : Nat
  minute : Nat
  second : Nat
  wday : Nat
  deriving DecidableEq, Repr

/-- Days of the range of R838. -/
def rangeDays : Nat := 146097
def rangeSecs : Nat := rangeDays * 86400

def leapYear (y : Nat) : Bool := y % 4 == 0 && (y % 100 != 0 || y % 400 == 0)

/-- Days of a month (Table 22-2). -/
def monthDays (y m : Nat) : Nat :=
  if m == 2 then (if leapYear y then 29 else 28) else if m == 4 || m == 6 || m == 9 || m == 11 then 30 else 31

/-- Days from 2000-01-01 to 1 January of the n-th year after 2000. -/
def yearStart (n : Nat) : Nat := 365 * n + (n + 3) / 4 + (n + 399) / 400 - (n + 99) / 100

/-- Days of a year before a month. -/
def monthStart (y m : Nat) : Nat := sumN ((rangeFrom 1 (m - 1)).map (monthDays y))

/-- The year after 2000 that holds a day of the range. -/
def yearOfDay (d : Nat) : Nat :=
  let e := d * 400 / rangeDays
  if yearStart (e + 1) ≤ d then e + 1 else if yearStart e ≤ d then e else e - 1

/-- The date of a second of the range. -/
def dateOf (t : Nat) : CalDate :=
  let d := t / 86400
  let n := yearOfDay d
  let y := 2000 + n
  let r := d - yearStart n
  let m := ((rangeFrom 1 12).filter (fun k => decide (monthStart y k ≤ r))).length
  { year := y
    month := m
    day := r - monthStart y m + 1
    hour := t % 86400 / 3600
    minute := t % 3600 / 60
    second := t % 60
    wday := (d + 5) % 7 + 1 }

/-- The second of a date that exists. -/
def secsOf (y m d hh mm ss : Nat) : Nat :=
  (yearStart (y - 2000) + monthStart y m + (d - 1)) * 86400 + hh * 3600 + mm * 60 + ss

/-- The layout of Table 22-4 without VALID and END. -/
def datePack (x : CalDate) : Word :=
  packW [(37, 26, x.year), (25, 22, x.month), (21, 17, x.day), (16, 12, x.hour), (11, 6, x.minute), (5, 0, x.second)]

/-- The date fields of CAL_SET0 exist (Table 22-2). -/
def dateExists (w : Word) : Bool :=
  let y := fld w 37 26
  let m := fld w 25 22
  let d := fld w 21 17
  decide (2000 ≤ y ∧ y ≤ 2399) && decide (1 ≤ m ∧ m ≤ 12) && decide (1 ≤ d ∧ d ≤ monthDays y m) &&
    decide (fld w 16 12 ≤ 23) && decide (fld w 11 6 ≤ 59) && decide (fld w 5 0 ≤ 59)

def dateSecs (w : Word) : Nat := secsOf (fld w 37 26) (fld w 25 22) (fld w 21 17) (fld w 16 12) (fld w 11 6) (fld w 5 0)

/-- OFFSET of CAL_SET1 in steps of 15 min. -/
def offsetOf (w : Word) : Int := signedOf 8 (fld w 7 0)

/-- Local time of a UTC second, in seconds, possibly outside the range. -/
def localSecs (utc : Nat) (steps : Int) : Int := (utc : Int) + steps * 900

/-- A second lies in the range of R838. -/
def inRange (t : Int) : Bool := decide (0 ≤ t ∧ t < (rangeSecs : Int))

/-- The day masks of a schedule entry match (R851). -/
def schedDay (e : SchedCfg) (x : CalDate) : Bool :=
  bitsN e.months (x.month - 1) (x.month - 1) == 1 &&
    (e.day == 0 || e.day == x.day || (e.day == 31 && x.day == monthDays x.year x.month)) &&
    bitsN e.wdays (x.wday - 1) (x.wday - 1) == 1

/-- The entry matches a local minute (R851). -/
def schedMatch (e : SchedCfg) (x : CalDate) : Bool := schedDay e x && e.hour == x.hour && e.minute == x.minute

/-- The calendar window from OPEN to CLOSE at a local second (R820): on a day that OPEN's masks match, the day being the
one on which the window began; closed at the close instant. -/
def windowOpen (o c : SchedCfg) (t : Nat) : Bool :=
  let m := t % 86400 / 60
  let a := o.hour * 60 + o.minute
  let z := c.hour * 60 + c.minute
  let today := schedDay o (dateOf t)
  let before := decide (t ≥ 86400) && schedDay o (dateOf (t - 86400))
  if a < z then decide (a ≤ m ∧ m < z) && today
  else if z < a then (decide (a ≤ m) && today) || (decide (m < z) && before)
  else false

end Sys2Proof.Machine
end

