-- ==== Sys2Proof/Machine/CalOps.lean ====
section
/-! DEFINITION. Operations on the calendar (chapter 22) that several families share: the readings of Table 22-4, the
check of Table 22-2, and the commit (R844 to R847) that sessions and the host both use. -/

namespace Sys2Proof.Machine

open Sys2Proof

/-- UTC with VALID and END, as CAL_NOW0 reads. -/
def calNow0 (c : Cal) : Word :=
  datePack (dateOf c.utc) ||| packW [(39, 39, b2n c.valid), (38, 38, b2n c.atEnd)]

/-- Local time in seconds; a start value within the range keeps it there. -/
def calLocal (c : Cal) : Nat := (localSecs c.utc c.offset).toNat

/-- Local time as CAL_NOW1 latches it. -/
def calNow1 (c : Cal) : Word := datePack (dateOf (calLocal c))

/-- CAL_STATUS (Table 22-5). -/
def calStatus (c : Cal) : Word :=
  packW [(31, 16, c.sets), (15, 13, if c.valid then (dateOf (calLocal c)).wday else 0), (12, 10, c.why),
    (2, 2, b2n c.xtRun), (1, 1, b2n c.atEnd), (0, 0, b2n c.valid)]

/-- The calendar serves schedules (R842). -/
def calUsable (c : Cal) : Bool := c.valid && !c.atEnd

/-- UTC after a set (R845, R846): KEEP keeps the present one. -/
def calTarget (c : Cal) (w0 : Word) : Nat := if w0 == 0#40 then c.utc else dateSecs w0

/-- Table 22-2: the staged pair is a possible setting (R844). -/
def calPossible (c : Cal) (w0 w1 : Word) : Bool :=
  let o := offsetOf w1
  let w0 := w0 &&& 0x3FFFFFFFFF#40
  (if w0 == 0#40 then c.valid else dateExists w0) && decide (-48 ≤ o ∧ o ≤ 56) && inRange (calTarget c w0) &&
    inRange (localSecs (calTarget c w0) o)

/-- The calendar island takes no set: STOPPED or RESYNC, or the VBKUP low supervisor holds (R843). -/
def calBusy (s : State) : Bool := !islRuns s 0 || s.pwr.vbkupLow

/-- The set applied at one clock edge (R846). -/
def calSetApply (s : State) (w0 w1 : Word) : State :=
  let c := s.cal
  let keep := w0 &&& 0x3FFFFFFFFF#40
  { s with cal := { c with
    utc := calTarget c keep
    offset := offsetOf w1
    secAt := if keep == 0#40 then c.secAt else s.now
    valid := true
    atEnd := false
    why := 0
    sets := (c.sets + 1) % 65536
    set0 := keep
    set1 := w1 &&& 0xFF#40 } }

/-- A commit of CAL_SET0 and CAL_SET1 (R844 to R848): the status of Table 25-3, and the state after it. -/
def calCommit (s : State) (w0 w1 : Word) : Nat × State :=
  if calBusy s then (0x32, s)
  else if calPossible s.cal w0 w1 then
    let s := addRecord (calSetApply s w0 w1) 0x4009 0x11 (w0 &&& 0x3FFFFFFFFF#40) (w1 &&& 0xFF#40)
    (0, causeOff (causeOff s 0x4E) 0x4F)
  else (0x30, addRecord s 0x400A 0x11 w0 w1)

/-- Validity is lost for the reason WHY (R840, R861). -/
def calLose (s : State) (why : Nat) : State :=
  let s := { s with cal := { s.cal with valid := false, why := why } }
  if keeperRuns s then causeOn s 0x4E (pw why) else s

/-- The SCHEDULE rules that name an entry (Table 11-7). -/
def schedSects (s : State) (e : Nat) : List Nat :=
  (s.plt.plate.sects.filter (fun c => c.auto == 2 && c.cond % 256 == e)).map (·.sect)

/-- Step 6 of the start: the keeper reads CAL_STATUS (R862). -/
def calAtStart (s : State) : State :=
  let s := if s.cal.valid then s else causeOn s 0x4E (pw s.cal.why)
  if s.cal.atEnd then causeOn s 0x4F (pw 0x11) else s

end Sys2Proof.Machine
end

