-- ==== Sys2Proof/Machine/Motion.lean ====
section
/-! DEFINITION. Motors, gates and heat (chapter 19): MOTION_PUBLICATION, PROVE_TIMEOUT, FEEDBACK_LOSS,
WELDED_CONTACTOR, ROUTE_STOP, PURGE_EXPIRY, GATE_COMMAND, REVERSAL_PAUSE_END, GATE_TRAVEL, GATE_STALL,
HEAT_PERMIT_CHANGE, HEAT_PERMIT. -/

namespace Sys2Proof.Machine

open Sys2Proof

/-! Motion (R718 to R721). -/

/-- MOTn_FB of a local motor as the publication finds it. -/
def feedback (s : State) (x : Nat × Bool) : State :=
  let m := getMot s x.1
  if x.1 ≥ 24 || m.fb == x.2 then s else fbAgree (setMot s x.1 { m with fb := x.2, fbSince := s.now }) x.1

def feedbacks (s : State) : List (Nat × Bool) → State
  | [] => s
  | x :: xs => feedbacks (feedback s x) xs

/-- The motion rate in Hz of k edges over `span` ticks of 25 ns (R718). -/
def rateOf (k span : Nat) : Int × Nat := if k < 2 || span == 0 then (0, 1) else (((k - 1 : Nat) : Int) * 40000000, span)

/-- The rate of a local motor: measured, or 0 Hz while the PWM island is STOPPED (R758). -/
def motionRate (s : State) (edges : List (Nat × Nat × Nat)) (c : MotorCfg) : State :=
  if c.ch ≥ 24 || c.nomMov == 0 then s
  else
    let m := getMot s c.ch
    let x := match edges.find? (·.1 == c.ch) with
      | some e => if islRuns s 5 then e.2 else (0, 0)
      | none => (0, 0)
    setMot s c.ch { m with rate := rateOf x.1 x.2, edges := satTo 65535 x.1 }

def motionRates (s : State) (edges : List (Nat × Nat × Nat)) : List MotorCfg → State
  | [] => s
  | c :: cs => motionRates (motionRate s edges c) edges cs

/-- The plug interlock (Table 19-2). -/
def plugEval (s : State) (c : MotorCfg) : State :=
  let m := getMot s c.ch
  let low := m.superv && sinks m.st && decide (c.nomMov > 0) && !rateEnough c m.rate
  let t := sinceIf s.now low m.plugSince
  let s := setMot s c.ch { m with plugSince := t }
  if heldFor s.now t (c.plugMs * 1000) then motTripRun s c.ch 2 0x3F else s

/-- One motor at a motion publication. -/
def motionEval (s : State) (c : MotorCfg) : State :=
  if proves s c then motorProved s c.ch else plugEval s c

def motionEvals (s : State) : List MotorCfg → State
  | [] => s
  | c :: cs => motionEvals (motionEval s c) cs

/-- MOTION_PUBLICATION (R718): per local motor the edges within W with their span in ticks of 25 ns, and MOTn_FB. -/
def execMotionPublication (edges : List (Nat × Nat × Nat)) (fb : List (Nat × Bool)) (s : State) : Res :=
  if !ballHeard s (.motFb 0) || !pubDue s s.mot.pubAt then .next s
  else
    let s := motionRates (feedbacks { s with mot := { s.mot with pubAt := some s.now } } fb) edges s.plt.plate.motors
    if isArmed s then fin (motionEvals s s.plt.plate.motors) else fin s

/-- PROVE_TIMEOUT (R721): PROVE has elapsed since the grant. -/
def execProveTimeout (ch : Nat) (s : State) : Res :=
  match motorCfg s ch with
  | none => .next s
  | some c =>
    let m := getMot s ch
    if !isArmed s || m.st != 1 || s.now < m.grantAt + c.prove * 100000 then .next s
    else if proves s c && c.nomMov == 0 then fin (motorProved s ch)
    else
      let bad := if s.mot.proveBad.contains ch then s.mot.proveBad else s.mot.proveBad ++ [ch]
      fin (motTrip { s with mot := { s.mot with proveBad := bad } } ch 1 0x3E (pw ch))

/-- A motor's feedback fault has its cause. -/
def fbFault (s : State) (ch : Nat) : State :=
  if s.mot.fbBad.contains ch then s else { s with mot := { s.mot with fbBad := s.mot.fbBad ++ [ch] } }

/-- FEEDBACK_LOSS (Table 19-2): MOTn_FB inactive for 1 s while MOTn_RUN sinks, from proving on. -/
def execFeedbackLoss (ch : Nat) (s : State) : Res :=
  let m := getMot s ch
  if (motorCfg s ch).isNone || !isArmed s || !sinks m.st || !m.proved || m.fb || s.now < m.fbSince + 1000000 then .next s
  else fin (motTrip (fbFault s ch) ch 5 0x42 (pw ch))

/-- WELDED_CONTACTOR (R730): MOTn_FB active for 2 s after MOTn_RUN was released. -/
def execWeldedContactor (ch : Nat) (s : State) : Res :=
  let m := getMot s ch
  match m.releasedAt with
  | none => .next s
  | some t =>
    if (motorCfg s ch).isNone || !ballHeard s (.motFb ch) || sinks m.st || !m.fb || m.welded || m.fbSince > t || s.now < t + 2000000 then
      .next s
    else fin (raiseU (fbFault (setMot s ch { m with welded := true }) ch) 0x42 (pw (ch + 256)))

/-- ROUTE_STOP (R723, Table 19-3): a rank that stops with a route stop holds the motor, or its ask has ended. -/
def execRouteStop (ch : Nat) (s : State) : Res :=
  match motorCfg s ch with
  | none => .next s
  | some c => if routeDue s c then fin (routeStop s ch) else .next s

/-- PURGE_EXPIRY (R723): the stop instant of a STOPPING motor. -/
def execPurgeExpiry (ch : Nat) (s : State) : Res :=
  let m := getMot s ch
  match m.stopAt with
  | none => .next s
  | some t => if m.st == 3 && s.now ≥ t then fin (motRelease s ch 0) else .next s

/-! Gates (R734 to R738, R754). -/

/-- GATE_COMMAND (R734): the command of the channel's owner reaches the GAT unit. -/
def execGateCommand (ch : Nat) (s : State) : Res := if (gateCfg s ch).isNone then .next s else fin (gateTake s ch)

/-- REVERSAL_PAUSE_END (R735, R754): the 200 ms have passed; the gate's own look decides which output sinks. -/
def execReversalPauseEnd (ch : Nat) (s : State) : Res :=
  let g := getGat s ch
  if g.drive == 3 && s.now ≥ g.pauseEnd then fin s else .next s

/-- A gate stops on its own protection. -/
def gateFail (s : State) (ch code : Nat) : State :=
  let g := getGat s ch
  setGat s ch { gateRelease s.now g with fail := code, moveAt := none }

/-- GATE_TRAVEL (R736): the move has not reached its target within TRAVEL_MS. -/
def execGateTravel (ch : Nat) (s : State) : Res :=
  match gateCfg s ch, (getGat s ch).moveAt with
  | some c, some t =>
    if ch ≥ 16 || !isArmed s || s.now < t + c.travelMs * 1000 then .next s
    else
      let bad := if s.gat.travelBad.contains ch then s.gat.travelBad else s.gat.travelBad ++ [ch]
      fin (raiseU (gateFail { s with gat := { s.gat with travelBad := bad } } ch 1) 0x44 (pw ch))
  | _, _ => .next s

/-- GATE_STALL (R736): POS has changed by less than 0.5 % of |S| in an interval of STALL_MS of the move. -/
def execGateStall (ch : Nat) (s : State) : Res :=
  let g := getGat s ch
  match gateCfg s ch with
  | none => .next s
  | some c =>
    if ch ≥ 16 || !isArmed s || g.moveAt.isNone || !gateStill s.now c g.track then .next s
    else
      let bad := if s.gat.stallBad.contains ch then s.gat.stallBad else s.gat.stallBad ++ [ch]
      fin (raiseU (gateFail { s with gat := { s.gat with stallBad := bad } } ch 2) 0x45 (pw ch))

/-! Heat (R741). -/

/-- No heat channel whose permit fault stands lacks its permit: the cause of HEAT_PERMIT is gone. -/
def permitGone (s : State) : State :=
  if s.plt.plate.heats.any (fun c => (getHtd s c.ch).pmtBad) then s else causeOff s 0x46

/-- The permit of a channel changes. -/
def setPermit (s : State) (ch : Nat) (p : Bool) : State :=
  let h := getHtd s ch
  let s := setHtd s ch { h with pmt := p, pmtBad := h.pmtBad && !p, lackSince := if p then none else h.lackSince }
  permitGone s

/-- HEAT_PERMIT_CHANGE (R741): HEATn_PMT after the glitch rejection of Table 4-9. -/
def execHeatPermitChange (ch : Nat) (present : Bool) (s : State) : Res :=
  if (heatCfg s ch).isNone || ch ≥ 8 || !ballHeard s (.heatPmt ch) then .next s else fin (setPermit s ch present)

/-- HEAT_PERMIT (R741): absent for 2 s while the block demand is above 0. -/
def execHeatPermit (ch : Nat) (s : State) : Res :=
  let h := getHtd s ch
  if (heatCfg s ch).isNone || !isArmed s || h.pmt || h.pmtBad || !heldFor s.now h.lackSince 2000000 then .next s
  else fin (raiseU (setHtd s ch { h with pmtBad := true }) 0x46 (pw ch))

end Sys2Proof.Machine
end

