-- ==== Sys2Proof/Machine/SvcReply.lean ====
section
/-! DEFINITION. Replies of the service port (R950, R951), the status codes of Table 25-3, the failed-authentication words
(R965), and what a power-fail warning does to a plate or image write (R524, R987). -/

namespace Sys2Proof.Machine

open Sys2Proof

/-! Status codes (Table 25-3). -/

def stOk : Nat := 0x00
def stOkSame : Nat := 0x01
def stLocked : Nat := 0x10
def stWrittenOnce : Nat := 0x11
def stWidth : Nat := 0x12
def stGroupBroken : Nat := 0x13
def stGroupAlign : Nat := 0x14
def stNoSession : Nat := 0x20
def stRole : Nat := 0x21
def stLockout : Nat := 0x22
def stRange : Nat := 0x31
def stBusy : Nat := 0x32
def stSelfErase : Nat := 0x33
def stEnergy : Nat := 0x34
def stCrc : Nat := 0x40
def stFrame : Nat := 0x41
def stUnknown : Nat := 0x42

/-! Replies. -/

/-- A status byte. -/
def stByte (st : Nat) : Byte := BitVec.ofNat 8 st

/-- A reply goes out: SVC_COUNT counts the frame answered. -/
def svcSend (s : State) (r : Reply) : State :=
  { s with svc := { s.svc with reply := r, answered := satAdd 65535 s.svc.answered 1 } }

/-- The reply to a request, which becomes the previous request of R951. -/
def svcReply (s : State) (seq cmd : Nat) (bytes : List Byte) : State :=
  let r : Reply := ⟨seq % 256, cmd % 256, bytes⟩
  svcSend { s with svc := { s.svc with prev := some (r, s.now) } } r

/-! Failed-authentication words. -/

/-- Control-row word 0 failures, 1 level, 2 end of lockout, as the keeper or boot ROM holds it (R965): a word that does not
read counts as 0. -/
def authWord (s : State) (k : Nat) : Nat :=
  match tget none s.svc.authWords k with
  | some w => w.toNat
  | none => match nvWord s.nvm (locOf 3 0 k) with | some w => w.toNat | none => 0

/-- Lockout remaining in seconds (R966). -/
def lockLeft (s : State) : Nat := authWord s 2 - s.cal.opSec

/-! Writes cut short. -/

/-- A plate write is abandoned: STATE 6 with FAIL; the flash operation in progress still completes. -/
def pltAbandon (s : State) (fail : Nat) : State :=
  let w := s.plt.write
  if 1 ≤ w.state ∧ w.state ≤ 4 then
    { s with plt := { s.plt with write := { w with state := 6, fail := fail, frame := none, pages := [], sectors := 0 } } }
  else s

/-- The frame in hand of a plate write is answered with a status. -/
def pltAnswer (s : State) (st : Nat) : State :=
  match s.plt.write.frame with
  | none => s
  | some f => svcReply { s with plt := { s.plt with write := { s.plt.write with frame := none } } } f.1 f.2 [stByte st]

/-- An image write is abandoned: STATE 5. -/
def imgAbandon (s : State) (cut : Bool) : State :=
  let g := s.svc.img
  if 1 ≤ g.st ∧ g.st ≤ 3 then { s with svc := { s.svc with img := { g with st := 5, cut := cut } } } else s

/-- The frame of an image write whose reply waits is answered with a status. -/
def imgAnswer (s : State) (st : Nat) : State :=
  match s.svc.wait with
  | none => s
  | some w => if w.image == 0 then s else svcReply { s with svc := { s.svc with wait := none } } w.seq w.cmd [stByte st]

/-- A warning cuts a plate write (R524) and an image write (R987). -/
def pfwCut (s : State) : State := imgAbandon (imgAnswer (pltAbandon (pltAnswer s stEnergy) 2) stEnergy) true

end Sys2Proof.Machine
end

