-- ==== Sys2Proof/Machine/CanOps.lean ====
section
/-! DEFINITION. Operations on the CAN controllers (chapter 23) that several families share: the transmit selection, the
load queue, confinement changes, leaving and joining the bus. -/

namespace Sys2Proof.Machine

open Sys2Proof

def getCan (s : State) (n : Nat) : CanSt := tget {} s.can.ctl n
def setCan (s : State) (n : Nat) (x : CanSt) : State := { s with can := { s.can with ctl := tset {} s.can.ctl n x } }

/-- The settings of Table 23-3, which CAN0 has while moored. -/
def mooredCan : CanCfg :=
  { ctrl := 0, fd := true, triple := false, recovN := 6, recovS := 10, nomBps := 125000, nomSp := 875, dataBps := 500000,
    dataSp := 750 }

/-! The transmit selection (R871 to R875). -/

/-- The order of arbitration on the bus (R873) as one number: base identifier, 29-bit after 11-bit, extension. -/
def arbKey (f : CanFrame) : Nat := if f.ide then (f.id / 262144) * 524288 + 262144 + f.id % 262144 else f.id * 524288

/-- The mailboxes of a half that wait: they hold a frame and are neither chosen nor transmitting. -/
def mbWaiting (s : State) (n first count : Nat) : List Nat :=
  let x := getCan s n
  let a := getArb s (18 + n)
  (rangeFrom first count).filter (fun m => (tget none x.mbs m).isSome && a.owner != some m && a.next != some m)

/-- The foreground mailbox that leads on the wire; the lower number at equal identifiers. -/
def mbBest (s : State) (n : Nat) : Option Nat :=
  let x := getCan s n
  let key : Nat → Nat := fun m => match tget none x.mbs m with | none => 0 | some b => arbKey b.frame
  (mbWaiting s n 0 24).foldl (fun (b : Option Nat) (m : Nat) =>
    match b with | none => some m | some k => if key m < key k then some m else some k) none

/-- Decide the next turn of controller n (R186, R191). -/
def canChoose (s : State) (n : Nat) : State :=
  let a := getArb s (18 + n)
  setArb s (18 + n) (aheadChoose a (mbBest s n) (rrNext (mbWaiting s n 24 8) a.lastBg))

/-- The controller takes part in the bus. -/
def onBus (x : CanSt) : Bool := x.st == 2 || x.st == 3

/-- An idle selection decides as soon as a mailbox waits: at the load, before the next bus idle, which then starts the frame
(DESIGN CHOICE, assumption 48: R191 names no instant for an instance without turns). -/
def canDecide (s : State) (n : Nat) : State :=
  let a := getArb s (18 + n)
  if onBus (getCan s n) && a.owner.isNone && a.next.isNone && !a.deadDue && !a.dead then canChoose s n else s

/-- A selection whose freeze ends decides afresh, also while its owner transmits (Table 5-5 step 4). -/
def canFresh (s : State) (n : Nat) : State :=
  let a := getArb s (18 + n)
  if onBus (getCan s n) && a.next.isNone && !a.deadDue && !a.dead then canChoose s n else s

/-! The load queue (R872). -/

/-- Supervision settings of the plate, or of R512. -/
def sup (s : State) : SupCfg := supOf s.plt.plate

/-- TELEM_PCT of the plate, 20 while moored (R928). -/
def telemPct (s : State) : Nat :=
  if s.start.state == .moored then 20 else (sup s).telemPct

/-- The bus time of a frame of a controller. -/
def frameTimeQ (x : CanSt) (f : CanFrame) : Nat := match x.cfg with | none => 0 | some c => frameQ c f.data.length

/-- Telemetry time of the last 1 000 ms, that of the frames on their way to a mailbox included, which reach it in their order. -/
def telemUsed (s : State) (x : CanSt) : Nat :=
  sumN ((x.telem.filter (fun e => decide (s.now < e.1 + 1000000))).map (·.2)) +
    sumN ((x.load.filter (·.telem)).map (fun e => frameTimeQ x e.frame))

/-- Telemetry may be loaded (R928): the telemetry time with this frame stays within the limit. -/
def telemFits (s : State) (n : Nat) (q : Nat) : Bool :=
  decide ((telemUsed s (getCan s n) + q) * 100 ≤ telemPct s * secondQ)

/-- Frames loaded to the host within the last second. -/
def hostRecent (s : State) (x : CanSt) : List Nat := x.hostAt.filter (fun t => decide (s.now < t + 1000000))

/-- Frames to the host of the last second, those on their way to a mailbox included. -/
def hostUsed (s : State) (x : CanSt) : Nat := (hostRecent s x).length + (x.load.filter (·.host.isSome)).length

/-- The lowest rank among the frames to the host that the keeper holds back (R927). -/
def hostFirst (x : CanSt) : Nat := (x.hold.filterMap (·.host)).foldl min 9

/-- A frame that the keeper holds may enter the load queue now: telemetry within its limit, frames to the host at 10 per second
in the order of R927. -/
def loadFits (s : State) (n : Nat) (e : LoadEnt) : Bool :=
  let x := getCan s n
  (!e.telem || telemFits s n (frameTimeQ x e.frame)) &&
    (match e.host with
      | none => true
      | some r => r == hostFirst x && decide (hostUsed s x < 10))

/-- The transmit load queue of a controller holds 32 frames (Table 6-2). -/
def loadDepth : Nat := 32

/-- The first frame that may go leaves the keeper for the load queue; a full queue holds it back (R224), and an island out of
service takes it and discards it (Table 6-7 step 4). -/
def canMove (s : State) (n : Nat) : State :=
  let x := getCan s n
  match x.hold.find? (loadFits s n) with
  | none => s
  | some e =>
    let y := { x with hold := removeFirst (fun z => decide (z = e)) x.hold }
    if !islRuns s (1 + n) then setCan s n y
    else if x.load.length < loadDepth then setCan s n { y with load := x.load ++ [e] }
    else s

def canMoves (s : State) (n : Nat) : Nat → State
  | 0 => s
  | k + 1 => canMoves (canMove s n) n k

/-- Every frame that may go enters the load queue. -/
def canPump (s : State) (n : Nat) : State := canMoves s n (getCan s n).hold.length

/-- The keeper sends a frame to a controller that serves; a controller that is off drops it. -/
def canLoadE (s : State) (n : Nat) (e : LoadEnt) : State :=
  let x := getCan s n
  if x.cfg.isNone || x.st == 0 || x.st == 7 then s else canPump (setCan s n { x with hold := x.hold ++ [e] }) n

def canLoad (s : State) (n : Nat) (f : CanFrame) (telem : Bool) : State := canLoadE s n { frame := f, telem := telem }

/-- The mailbox a frame takes (R872): the one of its half with the same identifier, unless it is chosen or
transmitting, else the lowest free one. -/
def mbFor (s : State) (n : Nat) (e : LoadEnt) : Option Nat :=
  let x := getCan s n
  let half := if e.telem then rangeFrom 24 8 else rangeFrom 0 24
  let wait := mbWaiting s n 0 32
  match half.find? (fun m => wait.contains m && (match tget none x.mbs m with
      | none => false | some b => b.frame.id == e.frame.id && b.frame.ide == e.frame.ide)) with
  | some m => some m
  | none => half.find? (fun m => (tget none x.mbs m).isNone)

/-! Payloads (R876). -/

/-- The length a payload is padded to on the wire (R876): 0 to 8 exactly. -/
def dlcLen (b : Nat) : Nat := if b ≤ 8 then b else fdLen b

/-- The padded payload. -/
def padPayload (bs : List Byte) : List Byte := bs ++ List.replicate (dlcLen bs.length - bs.length) 0#8

/-! Confinement (R880 to R882). -/

/-- Counts at zero and below 128: the state of an active controller. -/
def canState (tec recN : Nat) : Nat := if tec > 255 then 4 else if tec ≥ 128 || recN ≥ 128 then 3 else 2

/-- The causes of CAN_PASSIVE, CAN_BUS_OFF and CAN_RECOVERY_OUT go (Table 9-6). -/
def canCauses (s : State) : State :=
  let xs := (rangeFrom 0 4).map (getCan s)
  let s := if xs.all (fun x => x.cfg.isNone || x.st == 2) then causeOff s 0x48 else s
  let s := if xs.any (fun x => x.st == 4 || x.st == 5) then s else causeOff s 0x47
  if xs.any (fun x => x.out) then s else causeOff s 0x49

/-- The selection of a controller that leaves the bus: no turn, its decision discarded, mailboxes kept (R882, R892). -/
def canHalt (s : State) (n : Nat) : State :=
  modArb s (18 + n) (fun a => { a with owner := none, next := none, dead := false, deadDue := false })

/-- An entry into bus-off (R882, R884): the keeper's automatic request is due RECOV_S later, and a recorder transfer on the bus is
abandoned (R940). -/
def canBusOff (s : State) (n : Nat) : State :=
  let x := getCan s n
  let wait := match x.cfg with | none => 0 | some c => c.recovS
  let y := { x with st := 4, busOffs := satAdd 255 x.busOffs 1, pexWait := false }
  let y := if y.out || s.isl.onRc then y else { y with pendAt := some (s.now + wait * 1000000) }
  let s := canHalt (setCan s n y) n
  let s := if n == (sup s).hostBus then { s with syn := { s.syn with xfer := none } } else s
  raise s 0x47 (pw n) (0x12 + n)

/-- The controller's state follows its counts. -/
def canConfine (s : State) (n : Nat) : State :=
  let x := getCan s n
  if !onBus x then s
  else
    let st := canState x.tec x.recN
    if st == x.st then s
    else if st == 4 then canBusOff s n
    else
      let s := setCan s n { x with st := st }
      if st == 3 then raise s 0x48 (pw n) (0x12 + n) else canCauses s

/-- The controller leaves the bus at the change of MAIN to the RC oscillator (R248, R896). -/
def canOffRc (s : State) (n : Nat) : State :=
  let x := getCan s n
  if x.st == 0 then s
  else canHalt (setCan s n { x with st := if x.st == 4 || x.st == 5 then 4 else 7, pendAt := none, pexWait := false }) n

/-- A CAN island stops or is flushed (R243, R895): queues and mailboxes empty where `flush`, the error state stays. -/
def canFlush (s : State) (n : Nat) : State :=
  let x := getCan s n
  canHalt (setCan s n { x with mbs := [], load := [], hold := [], rx := [], filts := [] }) n

/-- The two filters of R934. -/
def synFilters : Tab (Option CanFilt) :=
  [(0, some { ide := true, id := 0, mask := 0x03FC0000 }), (1, some { ide := true, id := 0xFF * 262144, mask := 0x03FC0000 })]

/-- The keeper writes timing, mode and filters of a controller (R245, R252, R900): it integrates on the bus, or listens
where `moored` (R887). A controller that was bus-off stays bus-off (R895); on the RC oscillator it stays off (R248). -/
def canConfigure (s : State) (n : Nat) (c : CanCfg) (moored : Bool) : State :=
  let x := getCan s n
  let st := if s.isl.onRc then (if x.st == 4 || x.st == 5 then 4 else 7)
    else if x.st == 4 || x.st == 5 then x.st
    else if moored then 6 else 1
  setCan s n { x with cfg := some c, filts := synFilters, st := st, goodRx := 0 }

end Sys2Proof.Machine
end

