-- ==== Sys2Proof/Machine/RecOps.lean ====
section
/-! DEFINITION. Operations of the event recorder (chapter 10): locators, reading (R403 to R405), locating the areas
(R423), opening sectors (R390 to R392), chunks (R393 to R398) and clearing (R407 to R410). -/

namespace Sys2Proof.Machine

open Sys2Proof

/-! Locators. -/

/-- The header of ring row n (0 to 129): its word, where it reads CLEAN or CORRECTED. -/
def ringHeader (n : Nvm) (row : Nat) : Option Word := nvWord n (locOf 2 (32 + row) 0)

/-- Sequence number of a header (Table 10-3). -/
def headerSeq (w : Word) : Nat := fld w 39 8

/-- The ring row that holds a sequence number. -/
def rowOfSeq (n : Nvm) (q : Nat) : Option Nat :=
  (rangeFrom 0 130).find? (fun r => match ringHeader n r with | none => false | some w => headerSeq w == q)

/-- The location of W0 of a locator (R388, R389); none where the sector's header does not read. -/
def recWordLoc (n : Nvm) (loc : Nat) : Option Nat :=
  if loc < 2048 then some (locOf 2 (loc / 64) (5 * (loc % 64)))
  else (rowOfSeq n ((loc - 2048) / 64 + 1)).map (fun r => locOf 2 (32 + r) (1 + 5 * (loc % 64)))

/-- The locator that the next stored record takes (REC_NEXT). -/
def nextLoc (r : Recr) : Nat :=
  if r.etchedNext < 2048 then r.etchedNext else if r.seq == 0 then 2048 else 2048 + 64 * (r.seq - 1) + r.slot

/-- A record is present at a locator (R404): its W0 stands there and has passed its verify (R393, R416). -/
def recPresent (s : State) (loc : Nat) : Bool :=
  (loc < s.recr.etchedNext || (2048 ≤ loc && s.recr.oldest != 0 && s.recr.oldest ≤ loc && loc < nextLoc s.recr)) &&
    (match recWordLoc s.nvm loc with | none => false | some l => cellAt' s.nvm l != .erased && !s.recr.unsure.contains l)

/-- Present records from a locator upward, at most `k`; the first argument bounds the walk. -/
def walkUp (s : State) : Nat → Nat → Nat → List Nat
  | 0, _, _ => []
  | _ + 1, _, 0 => []
  | f + 1, loc, k + 1 =>
    if loc ≥ nextLoc s.recr then []
    else if s.recr.etchedNext ≤ loc && loc < s.recr.oldest then walkUp s f s.recr.oldest (k + 1)
    else if recPresent s loc then loc :: walkUp s f (loc + 1) k
    else walkUp s f (loc + 1) (k + 1)

/-- Present records from a locator downward. -/
def walkDown (s : State) : Nat → Nat → Nat → List Nat
  | 0, _, _ => []
  | _ + 1, _, 0 => []
  | f + 1, loc, k + 1 =>
    let at_ := if s.recr.etchedNext ≤ loc && loc < s.recr.oldest then s.recr.etchedNext - 1 else loc
    if recPresent s at_ then at_ :: (if at_ == 0 then [] else walkDown s f (at_ - 1) k)
    else if at_ == 0 then [] else walkDown s f (at_ - 1) (k + 1)

/-- More locators than can lie between the oldest and the newest record. -/
def walkBound : Nat := 10600

/-- The locators that a read returns (R404). -/
def readLocs (s : State) (start : Nat) (down : Bool) (count : Nat) : List Nat :=
  if nextLoc s.recr == 0 then []
  else if down then walkDown s walkBound (min start (nextLoc s.recr - 1)) count
  else walkUp s walkBound start count

/-- One word of a record as a read entry sends it: the word, whether corrected, whether unreadable. -/
def entryWord (n : Nvm) (l : Nat) : Word × Bool × Bool :=
  match cellAt' n l with
  | .clean w => (w, false, false)
  | .corrected w => (w, true, false)
  | .erased => (0xFFFFFFFFFF#40, false, false)
  | .uncorr _ => (0xFFFFFFFFFF#40, false, true)

/-- The 31 bytes of a read entry (Table 10-5). -/
def readEntry (n : Nvm) (loc : Nat) : List Byte :=
  match recWordLoc n loc with
  | none => natBytes 5 loc ++ [2#8] ++ List.replicate 25 0xFF#8
  | some l =>
    let ws := (rangeFrom l 5).map (entryWord n)
    let st := if ws.any (·.2.2) then 2 else if ws.any (·.2.1) then 1 else 0
    natBytes 5 loc ++ natBytes 1 st ++ wordsBytes (ws.map (·.1))

/-- A read that meets unreadable words finds them (R419). -/
def entryFaults (s : State) (loc : Nat) : State :=
  match recWordLoc s.nvm loc with
  | none => s
  | some l => wordsFound s (rangeFrom l 5)

def entryFaultsAll (s : State) : List Nat → State
  | [] => s
  | l :: ls => entryFaultsAll (entryFaults s l) ls

/-- A requested flush (R406): at most one each 10 s. -/
def requestFlush (s : State) : State :=
  match s.recr.lastReqFlush with
  | some t =>
    if s.now < t + 10000000 then s
    else startFlush { s with recr := { s.recr with lastReqFlush := some s.now } }
  | none => startFlush { s with recr := { s.recr with lastReqFlush := some s.now } }

/-! Locating (R423). -/

/-- The highest record slot of a set of cells by a slot function, plus one; 0 for none. -/
def topSlot (n : Nvm) (f : Nat → Option Nat) : Nat :=
  n.cells.foldl (fun (m : Nat) c =>
    if c.2 == .erased then m else match f c.1 with | none => m | some k => max m (k + 1)) 0

def etchedSlot (l : Nat) : Option Nat :=
  if locBank l == 2 && locRow l < 32 && locWord l < 320 then some (64 * locRow l + locWord l / 5) else none
def ringSlot (row l : Nat) : Option Nat :=
  if locBank l == 2 && locRow l == 32 + row && 1 ≤ locWord l && locWord l ≤ 320 then some ((locWord l - 1) / 5) else none

/-- The ring row with the highest readable sequence number. -/
def topRow (n : Nvm) : Option (Nat × Nat) :=
  (rangeFrom 0 130).foldl (fun (b : Option (Nat × Nat)) r =>
    match ringHeader n r with
    | none => b
    | some w => match b with
      | none => some (r, headerSeq w)
      | some x => if headerSeq w > x.2 then some (r, headerSeq w) else some x) none

/-- The ring row before a row that has a header. -/
def rowBefore (n : Nvm) : Nat → Nat → Option Nat
  | 0, _ => none
  | k + 1, r =>
    let p := (r + 129) % 130
    if (ringHeader n p).isSome then some p else rowBefore n k p

/-- The walk back of R423 from a row and its sequence number. -/
def walkOldest (n : Nvm) (ahead : Nat) : Nat → Nat → Nat → Nat
  | 0, _, q => q
  | k + 1, r, q =>
    match ringHeader n r with
    | none => q
    | some w =>
      if bitOf w 0 then q
      else
        match rowBefore n 130 r with
        | none => q
        | some p =>
          match ringHeader n p with
          | none => q
          | some h => if p == ahead || headerSeq h + 1 != q then q else walkOldest n ahead k p (q - 1)

/-- locate() of R423. -/
def locateRecr (n : Nvm) (r : Recr) : Recr :=
  let e := satTo 2048 (topSlot n etchedSlot)
  let r := { r with located := true, etchedNext := e }
  match topRow n with
  | none => { r with aheadRow := 0 }
  | some (p, q) =>
    let a := (p + 1) % 130
    if e < 2048 then { r with aheadRow := a }
    else
      let o := 2048 + 64 * (walkOldest n a 128 p q - 1)
      let r := { r with seq := q, row := p, slot := satTo 64 (topSlot n (ringSlot p)), oldest := o }
      { r with aheadRow := a }

def locate (s : State) : State := { s with recr := locateRecr s.nvm s.recr }

/-! The ahead sector. -/

/-- A ring row reads ERASED throughout. -/
def rowBlank (n : Nvm) (row : Nat) : Bool :=
  !n.cells.any (fun c => c.1 / 512 == locOf 2 (32 + row) 0 / 512) && !n.torn.contains (locOf 2 (32 + row) 0) &&
    !isErasing n 2 (32 + row)

/-- The erase of the ahead sector. -/
def eraseAhead (s : State) (row : Nat) : State :=
  requestErase { s with recr := { s.recr with aheadOk := false, aheadRow := row } } 2 (32 + row) .eraseRing

/-- The ahead sector's erase is in hand. -/
def aheadErasing (s : State) : Bool :=
  let r := 32 + s.recr.aheadRow
  isErasing s.nvm 2 r || s.nvm.bank2.eraseWait.any (fun e => e.1 == r)

/-- The blank check of R424, a read that a warning does not stop; the erase it finds necessary is recorded (R338). -/
def aheadCheck (s : State) : State :=
  if s.recr.aheadChecked || aheadErasing s then s
  else if rowBlank s.nvm s.recr.aheadRow then { s with recr := { s.recr with aheadOk := true, aheadChecked := true } }
  else eraseAhead (addRecord s 0x5002 4 (pw (locOf 2 (32 + s.recr.aheadRow) 0)) 0#40) s.recr.aheadRow

/-- The ring row after a row, less those skipped (R421). -/
def ringAfter (r : Recr) : Nat → Nat → Nat
  | 0, row => (row + 1) % 130
  | k + 1, row => let n := (row + 1) % 130; if r.skipped.contains n then ringAfter r k n else n

def nextRing (r : Recr) (row : Nat) : Nat := ringAfter r 129 row

/-- The oldest ring locator that the rows hold: 128 full sectors, the present one and the ahead one (R392); a skipped row holds
none (R421). -/
def oldestKept (r : Recr) : Nat :=
  if r.oldest == 0 then 0 else max r.oldest (2048 + 64 * (r.seq + r.skipped.length - 129))

/-- The ahead sector becomes the present one (R390). -/
def sectorOpened (r : Recr) : Recr :=
  let o := if r.oldest == 0 then 2048 + 64 * r.seq else r.oldest
  let r := { r with seq := r.seq + 1, row := r.aheadRow, slot := 0, aheadOk := false, oldest := o }
  { r with oldest := oldestKept r }

/-- The erase of the row after a sector that a chunk has opened (R392): it asks behind the chunk's first store. -/
def eraseNext (s : State) : State := eraseAhead s (nextRing s.recr s.recr.row)

/-- A ring row whose erase has failed and that no spare can stand in for is skipped (R421): the next row in ring order is the
ahead sector. -/
def skipRow (s : State) (r : Nat) : State :=
  let x := { s.recr with skipped := r :: s.recr.skipped }
  let s := { s with recr := { x with oldest := oldestKept x } }
  eraseAhead s (nextRing s.recr r)

/-- The header word of the present sector. -/
def presentHeader (r : Recr) (cleared : Bool) : Nat × Word :=
  (locOf 2 (32 + r.row) 0, packW [(39, 8, r.seq), (0, 0, b2n cleared)])

/-- Give records their slots in the present sector or the etched area. -/
def giveSlots (r : Recr) : List Record → List (Nat × Nat × Record) × Recr
  | [] => ([], r)
  | x :: xs =>
    if r.etchedNext < 2048 then
      let k := r.etchedNext
      let (t, r') := giveSlots { r with etchedNext := k + 1 } xs
      ((k, locOf 2 (k / 64) (5 * (k % 64)), x) :: t, r')
    else
      let (t, r') := giveSlots { r with slot := r.slot + 1 } xs
      ((nextLoc r, locOf 2 (32 + r.row) (1 + 5 * r.slot), x) :: t, r')

/-- The present sector has no free slot, or there is none. -/
def slotsUsed (r : Recr) : Bool := decide (r.etchedNext ≥ 2048) && (r.seq == 0 || decide (r.slot ≥ 64))

/-- The header of the present sector reads UNCORR: nothing more is stored into it (R420). -/
def headerLost (s : State) : Bool :=
  decide (s.recr.etchedNext ≥ 2048) && s.recr.seq != 0 &&
    (match cellAt' s.nvm (locOf 2 (32 + s.recr.row) 0) with | .uncorr _ => true | _ => false)

/-- The next record needs a new sector. -/
def sectorFull (s : State) : Bool := slotsUsed s.recr || headerLost s

/-- Free slots for a chunk. -/
def slotsLeft (r : Recr) : Nat := if r.etchedNext < 2048 then 2048 - r.etchedNext else 64 - r.slot

/-! Chunks. -/

/-- A chunk may start: the areas are located, the store of step 4 is complete (R423), none is in progress, and fatal
service stores nothing. -/
def chunkMay (s : State) : Bool :=
  !s.rst.held && s.recr.located && s.pwr.pccStored && s.recr.chunk.isNone && s.start.state != .fatalService

/-- The fault mirror of the source that has asked for a chip reset, which a chunk of its own stores first (R354). -/
def resetMirror (s : State) : List Record :=
  if s.flt.resetAt.isNone || s.flt.resetOk then []
  else match s.recr.buf.reverse.find? (fun x => x.code == 0x1000 + s.flt.resetFor) with | some x => [x] | none => []

/-- The records that the next chunk may take (R396, Table 3-7): in a flush fault mirrors before all others, which wait for
step 3; a record created during the flush takes its place at the next decision (R111). When the warning has ended, the step in
progress is completed (R115). -/
def chunkFrom (s : State) : List Record :=
  let ms := s.recr.buf.filter (fun x => isMirror x.code)
  let first := if ms.isEmpty then s.recr.buf else ms
  let own := resetMirror s
  if !own.isEmpty then own
  else match s.pwr.flush with
  | none => if s.pwr.pfw then first else s.recr.buf
  | some k => if k == 0 then [] else if k < 3 then ms else first

/-- Remove the first occurrence of each record of a list. -/
def removeAll : List Record → List Record → List Record
  | buf, [] => buf
  | buf, x :: xs => removeAll (removeFirst (fun y => decide (y = x)) buf) xs

/-- REC_DROPPED once the buffer holds 64 records or fewer after drops (R399). -/
def dropNotice (s : State) : State :=
  if s.recr.dropSince > 0 && s.recr.buf.length ≤ 64 then
    let s' := addRecord s 0x000B 3 (pw s.recr.dropSince) (pw s.recr.dropOpSec)
    { s' with recr := { s'.recr with dropSince := 0 } }
  else s

/-- Start a chunk of the given records under the store `t`; `header` is that of a sector it opens. Its words ask for their turns
of bank 2 in the order of R393, and its energy is checked as its first turn starts (R397). -/
def beginChunk (s : State) (t : Store) (xs : List Record) (header : Option (Nat × Word)) : State :=
  let (rs, r) := giveSlots s.recr xs
  let c : Chunk := { recs := rs, header := header }
  startStore { s with recr := { r with chunk := some c } } { t with words := chunkWords c }

/-- A chunk of the buffer's records starts (R394, R396, R398). -/
def takeChunk (s : State) (t : Store) : State :=
  let opens := sectorFull s
  if opens && !s.recr.aheadOk then s
  else
    let s1 := if opens then { s with recr := sectorOpened s.recr } else s
    let xs := (chunkFrom s).take (min 16 (slotsLeft s1.recr))
    let header := if opens then some (presentHeader s1.recr false) else none
    let s2 := { s1 with recr := { s1.recr with buf := removeAll s1.recr.buf xs } }
    let s3 := beginChunk s2 t xs header
    dropNotice (if opens then eraseNext s3 else s3)

/-- The chunk's energy check (R397): a refused chunk waits in the store queue, once. -/
def chunkStore : Store := { kind := .chunk, owner := .chunk }
def chunkQueued (s : State) : Bool := (s.pwr.queue ++ s.pwr.waiting).any (fun t => t.kind == .chunk)
def chunkRefused (s : State) (t : Store) : State :=
  let s := energyRefused s chunkStore
  if chunkQueued s then s else enqueue s 2 t

/-- The work of CHUNK_START, at a reading of HOLDUP_SNS, under a store `t` of the queue or a new one. A chunk that waits in the
queue is served in the queue's order (R100, R102), and a clear that waits takes place before the next chunk (R415). -/
def tryChunk (s : State) (t : Store) : State :=
  if !chunkMay s || !s.recr.flushing || chunkQueued s || !s.recr.clears.isEmpty then s
  else if (chunkFrom s).isEmpty then
    if s.recr.buf.isEmpty then { s with recr := { s.recr with flushing := false } } else s
  else
    let s := aheadCheck s
    if !s.pwr.pfw && !s.recr.aheadChecked then s
    else
      let s := readPin s
      if mayStoreNow s && canStore s chunkStore then takeChunk s t else chunkRefused s t

/-- A stored record that the host is told of (R926). -/
def noticed (code : Nat) : Bool := code / 0x1000 == 1 || code / 0x1000 == 2

/-- The locator whose W0 lies at a location of bank 2; none where a location holds no W0. -/
def locatorAt (n : Nvm) (l : Nat) : Option Nat :=
  let row := locRow l
  let w := locWord l
  if locBank l != 2 then none
  else if row < 32 then (if w % 5 == 0 && w < 320 then some (64 * row + w / 5) else none)
  else if row ≤ 161 && 1 ≤ w && w ≤ 320 && (w - 1) % 5 == 0 then
    (ringHeader n (row - 32)).map (fun h => 2048 + 64 * (headerSeq h - 1) + (w - 1) / 5)
  else none

/-- A record whose W0 has passed its verify counts as stored (R393): the host is told of it, and the mirror of a latched fatal
fault, or of a source that resets the chip (R354), is on record. -/
def recStored (s : State) (x : Nat × Word) : State :=
  match locatorAt s.nvm x.1 with
  | none => s
  | some k =>
    let code := fld x.2 39 24
    { s with
      syn := { s.syn with notices := if noticed code then s.syn.notices ++ [(k, s.now)] else s.syn.notices }
      flt := { s.flt with
        resetOk := s.flt.resetOk || (s.flt.resetAt.isSome && code == 0x1000 + s.flt.resetFor)
        fatalRecorded := s.flt.fatalRecorded || (s.flt.fatal && code == 0x1000 + s.flt.fatalSrc) } }

/-- A W0 that a program has reached without passing its verify, or has passed it (R393, R416). -/
def markW0 (s : State) (t : Store) (l : Nat) (good : Bool) : State :=
  if t.owner != .chunk || (locatorAt s.nvm l).isNone then s
  else
    let rest := s.recr.unsure.filter (· != l)
    { s with recr := { s.recr with unsure := if good then rest else l :: rest } }

/-- A turn of the chunk in progress waits or is in hand. -/
def chunkTurns (s : State) : Bool :=
  let f := fun (t : Store) => t.owner == .chunk
  (getBank s.nvm 2).turns.any f || (match (getBank s.nvm 2).hand with | some t => f t | none => false) ||
    (s.pwr.queue ++ s.pwr.waiting).any (fun t => f t && t.kind == .chunk && !t.words.isEmpty)

/-- The chunk ends with its last turn; the flush ends with an empty buffer (R395). -/
def chunkOver (s : State) : State :=
  if s.recr.chunk.isNone || chunkTurns s then s
  else { s with recr := { s.recr with chunk := none, flushing := s.recr.flushing && !s.recr.buf.isEmpty } }

/-- The keeper confirms the flush of the fatal sequence (Table 9-4 step 3); a power-fail flush in progress goes on to its last
step first (R376). -/
def fatalConfirm (s : State) : State :=
  if s.flt.fatalAt.isSome && s.recr.chunk.isNone && s.recr.buf.isEmpty && s.pwr.flush.isNone then chipReset s 6 else s

/-! Clearing (R407 to R410). -/

/-- RING_CLEARED, which never enters the buffer. -/
def clearedRecord (s : State) (port : Word) (n : Nat) : Record := newRecord s 0x000A 3 port (pw n)

/-- Ring records present. -/
def ringCount (s : State) : Nat :=
  if s.recr.oldest == 0 then 0 else (walkUp s walkBound s.recr.oldest walkBound).length

end Sys2Proof.Machine
end

