-- ==== Sys2Proof/Machine/SynOps.lean ====
section
/-! DEFINITION. Operations of the Syntagel master (chapter 24): identifiers and payloads, sending, screening of received
frames, node states, value records, channel commands, recorder transfers. -/

namespace Sys2Proof.Machine

open Sys2Proof

/-! Identifiers (Table 24-1). -/

def synId (cls dst src obj : Nat) : Nat := cls * 2 ^ 26 + dst * 2 ^ 18 + src * 2 ^ 10 + obj
def idCls (id : Nat) : Nat := bitsN id 28 26
def idDst (id : Nat) : Nat := bitsN id 25 18
def idSrc (id : Nat) : Nat := bitsN id 17 10
def idObj (id : Nat) : Nat := bitsN id 9 0

/-- The bus that carries the host (R25, R911). -/
def hostBus (s : State) : Nat := (sup s).hostBus

/-- The master serves Syntagel on a controller (R944): from step 9, while moored on CAN0 alone. -/
def synServes (s : State) (n : Nat) : Bool :=
  decide (n < 4) && keeperRuns s && (getCan s n).cfg.isSome && (s.start.state != .moored || n == 0)

/-- A controller with FD set (R905). -/
def busFd (s : State) (n : Nat) : Bool := match (getCan s n).cfg with | none => false | some c => c.fd

/-- A frame as the master sends it: padded, FD with bit-rate switching where the controller has it (R876). -/
def synFrame (s : State) (n cls dst obj : Nat) (data : List Byte) : CanFrame :=
  let rate := match (getCan s n).cfg with | none => 0 | some c => c.dataBps
  { id := synId cls dst 0 obj, fdf := busFd s n, brs := busFd s n && rate > 0, data := padPayload data }

/-- Send a frame; classes 5 and 7 take telemetry mailboxes (R902). A payload above 8 bytes needs FD (R905). -/
def synSend (s : State) (n cls dst obj : Nat) (data : List Byte) : State :=
  if !synServes s n || (data.length > 8 && !busFd s n) then s
  else canLoad s n (synFrame s n cls dst obj data) (cls == 5 || cls == 7)

/-- Send a frame to the host under R927. -/
def hostSendV (s : State) (rank cls obj : Nat) (data : List Byte) (stat : List (Nat × Nat)) : State :=
  let n := hostBus s
  if !synServes s n || (data.length > 8 && !busFd s n) then s
  else canLoadE s n { frame := synFrame s n cls 0xFE obj data, host := some rank, stat := stat }

def hostSend (s : State) (rank cls obj : Nat) (data : List Byte) : State := hostSendV s rank cls obj data []

/-- Send on every controller that serves. -/
def synSends (s : State) (cls dst obj : Nat) (data : List Byte) : List Nat → State
  | [] => s
  | n :: ns => synSends (synSend s n cls dst obj data) cls dst obj data ns

/-! Payloads. -/

/-- A value-format word as five bytes. -/
def valBytes (z : Int) : List Byte := wordBytes (qWord z)

/-- The compact status of Table 24-2. -/
def compactStatus (q : Quality) (ageMs : Nat) : Nat := q.code * 8192 + satTo 8191 (ageMs / 10)

/-- The value record of a logical value (R906). -/
def valueRecord (s : State) (i : Nat) : List Byte :=
  let v := getVal s i
  wordBytes v.v ++ natBytes 2 (compactStatus (readQ s i) (valAge s v))

/-- The value record of a block's record, of age 0. -/
def freshRecord (x : BIn) : List Byte := valBytes x.v ++ natBytes 2 (compactStatus x.q 0)

/-- Quality and age in ms that a received record carries (R907). -/
def recordQ (data : List Byte) : Quality × Nat :=
  let w := bytesNat ((data.drop 5).take 2)
  let q := match qualityOf (bitsN w 15 13) with
    | none => Quality.fault
    | some .forced => .subst
    | some q => q
  (q, 10 * bitsN w 12 0)

/-- The word of a received record. -/
def recordV (data : List Byte) : Word := BitVec.ofNat 40 (bytesNat (data.take 5))

/-- A received record with an age above a value's STALE_MS is STALE, unless it carries a higher quality (R907). -/
def recordAged (q : Quality) (ageMs : Nat) (limit : Option Nat) : Quality :=
  match limit with
  | none => q
  | some m => if ageMs > m && Quality.stale.prec < q.prec then .stale else q

/-- The plant flags of Table 24-3. -/
def plantFlags (s : State) : Nat :=
  let frozen := s.stb.arming || s.stb.host || s.stb.session || !s.eng.sfrz.isEmpty
  maskOf [s.fan.fog, s.fan.trip, frozen, s.pwr.pfw, faultNLow s.flt]

/-- STATE of SYS_START. -/
def stateCode (s : State) : Nat :=
  match s.start.state with
  | .starting => 0 | .bootService => 1 | .moored => 2 | .armed => 3 | .fatalService => 4

/-- TOP of FLT_STATUS. -/
def topClass (f : Flt) : Nat := maxN ((f.src.filter (fun e => e.2.uncleared)).map (fun e => e.2.eff.code))

/-- The master's heartbeat (Table 24-3). -/
def heartbeat (s : State) : List Byte :=
  natBytes 1 (stateCode s) ++ natBytes 1 s.syn.hbSeq ++ natBytes 1 (plantFlags s) ++ natBytes 1 (topClass s.flt) ++
    natBytes 4 s.cal.opSec

/-- PLANT_STATE (R912). -/
def plantState (s : State) : List Byte :=
  let owner := if s.fan.trip && s.fan.loaded && s.fan.dryer < 4 then s.fan.dryer else 0xFF
  natBytes 1 (plantFlags s) ++ natBytes 1 owner ++ natBytes 4 s.cal.opSec ++ [0#8, 0#8]

/-! Nodes. -/

def getNode (s : State) (k : Nat) : NodeSt := tget {} s.syn.nodes k
def setNode (s : State) (k : Nat) (x : NodeSt) : State := { s with syn := { s.syn with nodes := tset {} s.syn.nodes k x } }
def nodeKey (bus node : Nat) : Nat := bus * 128 + node

/-- The node table entry of an address. -/
def nodeCfg (s : State) (bus node : Nat) : Option NodeCfg :=
  s.plt.plate.nodes.find? (fun c => c.bus == bus && c.node == node)

/-- The parameter that names a node (R909). -/
def nodeParam (bus node : Nat) : Word := packW [(15, 8, bus), (7, 0, node)]

/-- Nodes in a state. -/
def nodesIn (s : State) (st : Nat) : List (Nat × NodeSt) := s.syn.nodes.filter (fun e => e.2.st == st)

/-- The causes of NODE_LOST and NODE_FOREIGN go with their last node (Table 9-6). -/
def nodeCauses (s : State) : State :=
  let s := if (nodesIn s 3).isEmpty then causeOff s 0x4A else s
  if (nodesIn s 4).isEmpty then causeOff s 0x4B else s

/-- The logical values of a node. -/
def nodeValues (s : State) (bus node : Nat) : List Nat :=
  (s.plt.plate.remotes.filter (fun r => r.kind == 4 && r.bus == bus && r.node == node)).map (·.logical)

def setQualities (s : State) (q : Quality) : List Nat → State
  | [] => s
  | i :: is => setQualities (setQuality s i q) q is

/-- The channels of a node: KIND and channel. -/
def nodeChannels (s : State) (bus node : Nat) : List (Nat × Nat) :=
  (s.plt.plate.remotes.filter (fun r => decide (r.kind < 4) && r.bus == bus && r.node == node)).map (fun r => (r.kind, r.logical))

/-- Mailboxes and queued frames that carry a CHANNEL_CMD to a node are given up (R938, R43). -/
def abortCmds (s : State) (bus node : Nat) : State :=
  let x := getCan s bus
  let a := getArb s (18 + bus)
  let mine := fun (f : CanFrame) => f.ide && idCls f.id == 1 && idDst f.id == node
  let hit := (rangeFrom 0 24).filter (fun m => match tget none x.mbs m with | none => false | some b => mine b.frame)
  let mbs := hit.foldl (fun (t : Tab (Option Mbox)) m =>
    if a.owner == some m then tset none t m ((tget none t m).map (fun b => { b with abort := true }))
    else tset none t m none) x.mbs
  let s := setCan s bus { x with mbs := mbs, load := x.load.filter (fun e => !mine e.frame), hold := x.hold.filter (fun e => !mine e.frame) }
  if hit.any (fun m => a.next == some m) then modArb s (18 + bus) (fun a => { a with next := none, deadDue := true }) else s

/-- A node becomes lost (R909, R42). -/
def nodeLose (s : State) (bus node : Nat) : State :=
  let k := nodeKey bus node
  let s := setNode s k { getNode s k with st := 3, back := false }
  let s := abortCmds (setQualities s .stale (nodeValues s bus node)) bus node
  nodeCauses (raise s 0x4A (nodeParam bus node) (srcRow 0x4A).unit)

/-- A node becomes foreign (R915, R43); `why` is the field of Table 24-12. -/
def nodeForeign (s : State) (bus node why : Nat) : State :=
  let k := nodeKey bus node
  let x := getNode s k
  let s := setNode s k { x with st := 4, why := why, back := false }
  if x.st == 4 then s
  else
    let s := abortCmds (setQualities s .fault (nodeValues s bus node)) bus node
    nodeCauses (raise s 0x4B (nodeParam bus node) (srcRow 0x4B).unit)

/-! Channel commands (R917). -/

/-- The row of Table 1-7 that decides a heat channel, counted from 1. -/
def heatRank (s : State) (c : HeatCfg) : Nat :=
  let w := heatWhy s c
  if bitsN w 7 7 == 1 then 1 else if bitsN w 6 6 == 1 then 2 else if bitsN w 5 5 == 1 then 3
  else if bitsN w 4 4 == 1 then 4 else if bitsN w 3 3 == 1 then 5 else if bitsN w 2 2 == 1 then 6
  else if bitsN w 1 1 == 1 then 7 else if (ovrOf s 3 c.ch).isSome then 8 else 9

/-- FLAGS of a command. -/
def cmdFlags (run fog trip : Bool) (rank : Nat) : Nat := b2n run + 2 * b2n fog + 4 * b2n trip + 16 * (rank % 16)

/-- The resolved command of a remote channel (R40): LEVEL and FLAGS; none before a gate has a target. -/
def resolved (s : State) (kind ch : Nat) : Option (Int × Nat) :=
  match kind with
  | 0 =>
    let r := fanRes s ch
    some (r.2, cmdFlags false (r.1 == 4) (r.1 == 1) r.1)
  | 1 => (motorCfg s ch).map (fun c =>
      let o := motOwner s c
      let run := sinks (getMot s ch).st
      (qBool run, cmdFlags run (o == 5) (o == 2) o))
  | 2 => (getGat (gateTake s ch) ch).target.map (fun t => (t, cmdFlags false false false (gateOwner s ch)))
  | _ => (heatCfg s ch).map (fun c =>
      let r := heatRank s c
      (heatDem s c, cmdFlags (heatEn s c) (r == 3) (r == 1) r))

def remoteOf' (s : State) (kind ch : Nat) : Option RemoteCfg :=
  s.plt.plate.remotes.find? (fun r => r.kind == kind && r.logical == ch)

/-- The payload of Table 24-5. -/
def cmdBytes (kind : Nat) (x : CmdSt) : List Byte := valBytes x.level ++ natBytes 1 x.flags ++ natBytes 1 kind ++ natBytes 1 x.seq

/-- Send a channel's command now; the node must be present, and the plant armed (R943, R944). -/
def sendCmd (s : State) (kind ch : Nat) (level : Int) (flags : Nat) : State :=
  match remoteOf' s kind ch with
  | none => s
  | some r =>
    if !isArmed s || (getNode s (nodeKey r.bus r.node)).st != 2 then s
    else
      let key := kind * 256 + ch
      let seq := match tget none s.syn.cmds key with | none => 0 | some c => (c.seq + 1) % 256
      let x : CmdSt := { level := level, flags := flags, seq := seq, at_ := s.now }
      let s := { s with syn := { s.syn with cmds := tset none s.syn.cmds key (some x) } }
      synSend s r.bus 1 r.node r.obj (cmdBytes kind x)

/-- Send the present command of each channel of a list (R938, R443). -/
def sendNow (s : State) : List (Nat × Nat) → State
  | [] => s
  | c :: cs => sendNow (match resolved s c.1 c.2 with | none => s | some x => sendCmd s c.1 c.2 x.1 x.2) cs

/-! Telemetry. -/

/-- A PUB record is queued; a record of the same identifier that still waits with the keeper is replaced (R789, R928). -/
def pubSend (s : State) (n dst obj value : Nat) (x : BIn) : State :=
  if !synServes s n then s
  else
    let f := synFrame s n 5 dst obj (freshRecord x ++ [0#8])
    let c := getCan s n
    let s := setCan s n { c with hold := c.hold.filter (fun e => !(e.telem && e.frame.id == f.id)) }
    canLoadE s n { frame := f, telem := true, stat := [(0, value)] }

/-- The payload with the status of its value records as it is now (R907). -/
def refreshed (s : State) : List Byte → List (Nat × Nat) → List Byte
  | d, [] => d
  | d, x :: xs =>
    let st := natBytes 2 (compactStatus (readQ s x.2) (valAge s (getVal s x.2)))
    refreshed s (d.take (x.1 + 5) ++ st ++ d.drop (x.1 + 7)) xs

/-! Screening (R904, R915, R920, R930). -/

/-- A SUB instance takes records of this source and object (R790). -/
def subTakes (s : State) (bus src obj : Nat) : List Nat :=
  (s.plt.plate.insts.filter (fun i => i.type == 0x1C &&
    (let p := i.params.headD 0#40
     fld p 1 0 == bus && fld p 9 2 == src && fld p 19 10 == obj))).map (·.inst)

/-- What the keeper makes of a received frame: drop silently, count SHORT, count DISCARD, take. -/
inductive Screen where
  | drop
  | short
  | discard
  | take
  deriving DecidableEq, Repr

/-- A frame shorter than its object is SHORT. -/
def needLen (len k : Nat) (r : Screen) : Screen := if len < k then .short else r

/-- Classes 1, 3 and 5 need a present node, or the host on its bus (R920). -/
def needPresent (s : State) (bus src : Nat) (r : Screen) : Screen :=
  if src == 0xFE then r else if (getNode s (nodeKey bus src)).st == 2 then r else .discard

/-- Class 3 and 5 from a node or the host: a VALUE, a CHANNEL_STATUS or a record for a SUB. -/
def screenValue (s : State) (bus cls src dst obj len : Nat) : Screen :=
  let m := s.plt.plate.remotes.find? (fun r => r.bus == bus && r.node == src && r.obj == obj)
  let listed := cls == 5 || !(subTakes s bus src obj).isEmpty ||
    (match m with | none => false | some r => src != 0xFE && (r.kind == 4 || dst == 0))
  if !listed then .short else needLen len 8 (needPresent s bus src .take)

/-- Table 24-4 by class, direction and length; `bus` is not silent. -/
def screenKind (s : State) (bus id len : Nat) : Screen :=
  let cls := idCls id
  let src := idSrc id
  let dst := idDst id
  let obj := idObj id
  let fd := busFd s bus
  match cls with
  | 1 =>
    if src != 0xFE || dst != 0 then .short
    else needLen len (if obj == 6 && fd then 12 else 8) .take
  | 2 => if obj != 0 || (dst != 0xFF && src != 0xFE) then .short else needLen len 8 .take
  | 3 => screenValue s bus 3 src dst obj len
  | 4 => if src == 0xFE || dst != 0 || obj < 0x100 || 0x1FF < obj then .short else needLen len 8 .take
  | 5 => screenValue s bus 5 src dst obj len
  | 7 =>
    if dst != 0 || (obj != 0 && obj != 2) then .short
    else if bus != hostBus s then .discard
    else needLen len (if obj == 0 && fd then 12 else 8) .take
  | _ => .short

/-- The whole screen: reserved sources and the master's own address are SHORT; the host on another bus is ignored
(R25); while moored only the objects of R944 are served. -/
def screen (s : State) (bus id len : Nat) : Screen :=
  let src := idSrc id
  if src == 0 || (0x7F ≤ src && src ≤ 0xFD) || src == 0xFF then .short
  else if src == 0xFE && bus != hostBus s then .drop
  else if s.start.state == .moored && (idCls id == 3 || idCls id == 4 || idCls id == 5 || (idCls id == 2 && src != 0xFE)) then .drop
  else screenKind s bus id len

/-- The frame at the head of a receive queue. -/
def rxHead (s : State) (n : Nat) : Option RxEnt := if synServes s n then (getCan s n).rx.head? else none

/-- Take it. -/
def rxTake (s : State) (n : Nat) : State := let x := getCan s n; setCan s n { x with rx := x.rx.drop 1 }

/-! Host commands. -/

/-- A host command at the head of the host bus's queue with an object index. -/
def hostCmd (s : State) (p : Nat → Bool) : Option CanFrame :=
  match rxHead s (hostBus s) with
  | none => none
  | some e => if e.frame.ide && idCls e.frame.id == 1 && p (idObj e.frame.id) then some e.frame else none

/-- Byte k of a payload. -/
def byteAt (f : CanFrame) (k : Nat) : Nat := (f.data.getD k 0#8).toNat

/-- HOST_REPLY (R923, Table 24-7): status, and CAL_SET0 for object 0x006. -/
def hostReply (s : State) (f : CanFrame) (status : Nat) (extra : List Byte) : State :=
  let body := (natBytes 1 (byteAt f 0) ++ natBytes 1 status ++ extra ++ List.replicate 8 0#8).take 8
  hostSend s 0 1 (idObj f.id) body

/-- The rate of R921: at most 10 commands per second are served. -/
def hostRate (s : State) : Bool × State :=
  let old := s.syn.cmdAt.filter (fun t => decide (s.now < t + 1000000))
  if old.length ≥ 10 then (false, { s with syn := { s.syn with cmdAt := old } })
  else (true, { s with syn := { s.syn with cmdAt := old ++ [s.now] } })

/-- A host command with a HOST_REPLY: `act` answers status, further bytes and state; `always` is served although the plant
is not armed (R922). -/
def hostServe (s : State) (obj : Nat) (always : Bool) (act : CanFrame → State → Nat × List Byte × State) : State :=
  match hostCmd s (· == obj) with
  | none => s
  | some f =>
    let (ok, s) := hostRate (rxTake s (hostBus s))
    if !ok || (!always && !isArmed s) then hostReply s f 0x32 []
    else
      let (st, extra, s) := act f s
      hostReply s f st extra

/-- The port of the host (R409, Table 24-8). -/
def hostPort (s : State) : Word := packW [(7, 0, 1 + hostBus s), (15, 8, 0xFE)]

/-! Recorder transfers (R930 to R933). -/

/-- An empty slot of a REC_DATA frame (R931). -/
def emptySlot : List Byte := List.replicate 5 0#8 ++ [0xFF#8] ++ List.replicate 25 0#8

/-- The records of the next frame, and the locator after them. -/
def xferLocs (s : State) (x : Xfer) : List Nat :=
  match x.next with
  | none => []
  | some l => readLocs s l x.down (min 2 x.left)

/-- The locator at which a transfer goes on after the given records; none where it ends. -/
def xferAfter (s : State) (x : Xfer) (ls : List Nat) : Option Nat :=
  match ls.getLast? with
  | none => none
  | some l =>
    if x.left ≤ ls.length then none
    else if x.down && l == 0 then none
    else
      let nxt := if x.down then l - 1 else l + 1
      if (readLocs s nxt x.down 1).isEmpty then none else some nxt

/-- The next REC_DATA frame, taken from the records present now, and the transfer after it (R931). -/
def xferFrame (s : State) (n : Nat) (x : Xfer) : CanFrame × Option Xfer :=
  let ls := xferLocs s x
  let nxt := xferAfter s x ls
  let slot := fun (k : Nat) => match ls[k]? with | none => emptySlot | some l => readEntry s.nvm l
  let b1 := (if nxt.isNone then 128 else 0) + x.frame % 128
  let data := natBytes 1 x.id ++ natBytes 1 b1 ++ slot 0 ++ slot 1
  (synFrame s n 7 x.req 1 data,
   if nxt.isNone then none else some { x with next := nxt, left := x.left - ls.length, frame := x.frame + 1 })

/-- REC_RESULT (Table 24-10). -/
def recResult (s : State) (req id obj status discarded : Nat) : State :=
  synSend s (hostBus s) 7 req 3 (natBytes 1 id ++ natBytes 1 obj ++ natBytes 1 status ++ natBytes 5 discarded)

end Sys2Proof.Machine
end

