-- ==== Sys2Proof/Machine/PowerOps.lean ====
section
/-! DEFINITION. The power-fail warning as one operation (R105 to R117): both of its sources use it. -/

namespace Sys2Proof.Machine

open Sys2Proof

/-- The warning's source bits (Table 10-7): 0 PFW_N, 1 mains watch. -/
def pfwBits (p : Pwr) : Nat := b2n p.pfwPin + 2 * b2n p.pfwMns

/-- Queued stores that a warning drops (R109): those that Table 3-7 does not list. -/
def keepsInPfw (t : Store) : Bool := listed37 t.owner

/-- A turn that goes on in a warning: a store that Table 3-7 lists or that has started, one of a service request (R103), a read
packet, and a pulse, which its sequence holds. -/
def turnKept (t : Store) : Bool :=
  t.kind == .read || t.kind == .erase || t.kind == .unit && t.second || t.started || svcStore t || keepsInPfw t

/-- A warning drops the unlisted stores that wait for a turn of a bank as it drops queued ones (R109, R333, R347), and a class
that has nothing more to start withdraws its request (R195). -/
def pfwTurns (s : State) : List Nat → State
  | [] => s
  | b :: bs =>
    let x := getBank s.nvm b
    pfwTurns (bankDrop { s with nvm := setBank s.nvm b { x with turns := x.turns.filter turnKept } } b) bs

/-- Erase sequences pause, or go on (R109). -/
def pauseErases (n : Nvm) (b : Bool) : Nvm :=
  let f := fun (x : Bank) => { x with erase := x.erase.map (fun e => { e with paused := b }) }
  { n with bank0 := f n.bank0, bank1 := f n.bank1, bank2 := f n.bank2, bank3 := f n.bank3 }

/-- The answer to a clear, to the port that asked (R407, Table 24-10). -/
def clearAnswer (s : State) (c : ClearReq) (st n : Nat) : State :=
  if fld c.port 7 0 == 0 then svcReply s c.id 0x21 (if st == stOk then stByte st :: natBytes 5 n else [stByte st])
  else recResult s (fld c.port 15 8) c.id 2 st n

def clearAnswers (s : State) (st : Nat) : List ClearReq → State
  | [] => s
  | c :: cs => clearAnswers (clearAnswer s c st 0) st cs

/-- A warning that begins before the chunk of a clear has started refuses the clear with BUSY (R417). -/
def clearsCut (s : State) : State := clearAnswers { s with recr := { s.recr with clears := [] } } stBusy s.recr.clears

/-- PFW_START (R105, R109, R668): unlisted stores drop, erases pause, the start budget's decision is discarded, the
flush of Table 3-7 begins, a plate or image write is abandoned (R524, R987), a clear that waits is refused (R417). -/
def pfwStart (s : State) : State :=
  let p := s.pwr
  let p1 := { p with
    pfw := true
    pfwSeen := true
    pfwSince := s.now
    pfwSources := pfwBits p
    flush := some 0
    queue := p.queue.filter keepsInPfw
    waiting := p.waiting.filter keepsInPfw }
  let b := { s.stb with next := none, watches := s.stb.watches.map (fun w => { w with spoiled := true }) }
  let s1 := pfwTurns { s with pwr := p1, nvm := pauseErases s.nvm true, stb := b } [0, 1, 2, 3]
  let s1 := readPin (refillQueue s1)
  startFlush (addRecord (pfwCut (clearsCut s1)) 0x0004 5 (pw (pfwBits p)) (pw s1.pwr.energyUj))

/-- The erase pulses of sequences that were paused ask again. -/
def resumeErases (s : State) : List Nat → State
  | [] => s
  | b :: bs =>
    let s := match (getBank s.nvm b).erase with
      | none => s
      | some e =>
        let f := fun (t : Store) => t.kind == .erase
        if (getBank s.nvm b).turns.any f || (match (getBank s.nvm b).hand with | some t => f t | none => false) then bankAsk s b
        else requestStore s { kind := .erase, owner := e.owner, bank := b, row := e.row }
    resumeErases s bs

/-- PFW_END (R105, R115). -/
def pfwEnd (s : State) : State :=
  let p := s.pwr
  let s1 := addRecord s 0x0005 5 (pw p.pfwSources) (pw (satTo (2 ^ 40 - 1) (msOf (s.now - p.pfwSince))))
  let p1 := { s1.pwr with pfw := false, pfwUs := p.pfwUs + (s.now - p.pfwSince) }
  resumeErases { s1 with pwr := p1, nvm := pauseErases s1.nvm false } [0, 1, 2, 3]

/-- The warning follows its sources (R105). -/
def pfwRefresh (s : State) : State :=
  let on := s.pwr.pfwPin || s.pwr.pfwMns
  if on && !s.pwr.pfw then pfwStart s
  else if !on && s.pwr.pfw then pfwEnd s
  else if on then
    { s with pwr := { s.pwr with pfwSources := s.pwr.pfwSources ||| pfwBits s.pwr } }
  else s

end Sys2Proof.Machine
end

