-- ==== Sys2Proof/Machine/Mains.lean ====
section
/-! DEFINITION. The mains watch (chapter 17): MAINS_ZERO_CROSSING, MISSING_CROSSING, HALF_CYCLE_REFRESH,
MAINS_WINDOW_END. The measured voltages are operands, in V in the value format. -/

namespace Sys2Proof.Machine

open Sys2Proof

/-- The ISLANDS section's settings. -/
def islandsCfg (s : State) : Option IslandsCfg := s.plt.plate.islands.head?

/-- The mains watch samples (R674, R672). -/
def mnsOn (s : State) : Bool := s.mns.run && islRuns s 7 && !s.rst.held && !s.flt.fatal

/-- Its settings while it samples. -/
def mnsCfg (s : State) : Option IslandsCfg := if mnsOn s then islandsCfg s else none

/-- The nominal period in µs (R644; at 60 Hz rounded to whole µs). -/
def mainsPeriod (c : IslandsCfg) : Nat := if c.freq60 then 16667 else 20000

/-- The measurements of the declared phases, A first. -/
def declared (c : IslandsCfg) (rms : List Int) : List Int :=
  (rangeFrom 0 3).filterMap (fun p => if bitsN c.phases p p == 1 then some (rms.getD p 0) else none)

def minI : List Int → Int
  | [] => 0
  | [x] => x
  | x :: y :: t => min x (minI (y :: t))

def maxI : List Int → Int
  | [] => 0
  | [x] => x
  | x :: y :: t => max x (maxI (y :: t))

/-- A voltage below, or at or above, a percentage of nominal. -/
def belowPct (c : IslandsCfg) (p : Int) (v : Int) : Bool := decide (v * 100 < p * c.nominal)
def abovePct (c : IslandsCfg) (p : Int) (v : Int) : Bool := decide (v * 100 > p * c.nominal)

/-- The mask of declared phases that meet a condition, A in bit 0. -/
def phaseMask (c : IslandsCfg) (rms : List Int) (f : Int → Bool) : Nat :=
  maskOf ((rangeFrom 0 3).map (fun p => bitsN c.phases p p == 1 && f (rms.getD p 0)))

/-- A voltage in 0.01 % of nominal (Table 17-5). -/
def centiPct (c : IslandsCfg) (v : Int) : Nat := satTo 65535 (divRoundEven (v * 10000) c.nominal.toNat).toNat

/-- MAINS_ZERO_CROSSING (R644): the cycle in progress ends and the next starts. -/
def execMainsZeroCrossing (s : State) : Res :=
  match mnsCfg s with
  | none => .next s
  | some _ => .next { s with mns := { s.mns with cycleAt := s.now } }

/-- MISSING_CROSSING (R644): no crossing within 1.5 nominal periods of the cycle's start. -/
def execMissingCrossing (s : State) : Res :=
  match mnsCfg s with
  | none => .next s
  | some c =>
    if 2 * (s.now - s.mns.cycleAt) < 3 * mainsPeriod c then .next s
    else .next { s with mns := { s.mns with cycleAt := s.mns.cycleAt + mainsPeriod c } }

/-! Events (R648, R649). -/

/-- The list entry of an event. -/
def evtSlot (m : Mns) (slot : Nat) (e : MnsEvt) : Mns := { m with evts := tset none m.evts slot (some e) }

/-- An event begins: its entry is opened and its fault raised. -/
def evtBegin (s : State) (kind src phases extreme : Nat) : State × MnsOpen :=
  let m := s.mns
  let slot := m.events % 16
  let e : MnsEvt := ⟨kind, true, phases, extreme, s.cal.opSec, 0⟩
  let m := evtSlot { m with events := (m.events + 1) % 65536 } slot e
  (raiseU { s with mns := m } src (pw phases), ⟨slot, s.now, phases, extreme⟩)

/-- The entry of an event follows its extreme and the phases that have met the start condition so far (Table 17-5, DEDUCED),
or closes with its duration; an entry that 16 later events have overwritten is theirs (R649). -/
def evtWrite (s : State) (o : MnsOpen) (kind : Nat) (isOpen : Bool) : State :=
  match tget none s.mns.evts o.slot with
  | none => s
  | some e =>
    if e.kind != kind then s
    else
      let d := if isOpen then e.durMs else satTo (2 ^ 32 - 1) (msOf (s.now - o.start))
      { s with mns := evtSlot s.mns o.slot { e with isOpen := isOpen, phases := o.phases, extreme := o.extreme, durMs := d } }

/-- One event kind: begin, follow, or end. -/
def evtStep (s : State) (cur : Option MnsOpen) (kind src phases extreme : Nat) (starts ends : Bool)
    (pick : Nat → Nat → Nat) : State × Option MnsOpen :=
  match cur with
  | none =>
    if starts then
      let r := evtBegin s kind src phases extreme
      (r.1, some r.2)
    else (s, none)
  | some o =>
    let o := { o with extreme := pick o.extreme extreme, phases := o.phases ||| phases }
    if ends then (causeOff (evtWrite s o kind false) src, none) else (evtWrite s o kind true, some o)

/-- Dip watches in progress are spoiled (R660). -/
def spoilWatches (s : State) : State :=
  { s with stb := { s.stb with watches := s.stb.watches.map (fun w => { w with spoiled := true }) } }

/-- MAINS_EVENT (R648): sags, swells and interruptions of Table 17-2. -/
def mainsEvents (s : State) (c : IslandsCfg) (rms : List Int) : State :=
  let d := declared c rms
  let lo := centiPct c (minI d)
  let hi := centiPct c (maxI d)
  let all := fun (f : Int → Bool) => d.all f
  let r1 := evtStep s s.mns.sag 1 0x32 (phaseMask c rms (belowPct c 90)) lo (d.any (belowPct c 90))
    (all (fun v => !belowPct c 92 v)) min
  let s := { r1.1 with mns := { r1.1.mns with sag := r1.2 } }
  let r2 := evtStep s s.mns.swell 2 0x33 (phaseMask c rms (abovePct c 110)) hi (d.any (abovePct c 110))
    (all (fun v => !abovePct c 108 v)) max
  let s := { r2.1 with mns := { r2.1.mns with swell := r2.2 } }
  let r3 := evtStep s s.mns.intr 3 0x34 (phaseMask c rms (belowPct c 10)) lo (all (belowPct c 10))
    (all (fun v => !belowPct c 12 v)) min
  let s := { r3.1 with mns := { r3.1.mns with intr := r3.2 } }
  if s.mns.swell.isSome || s.mns.intr.isSome then spoilWatches s else s

/-- MAINS_PFW_START and MAINS_PFW_END (R105, Table 3-6). -/
def mainsPfw (s : State) (c : IslandsCfg) (rms : List Int) : State :=
  let d := declared c rms
  let p : Int := ((s.pwr.pfwPct : Nat) : Int)
  let low := d.all (belowPct c p)
  let high := d.all (fun v => !belowPct c (p + 5) v)
  let lowN := if low then s.mns.lowN + 1 else 0
  let highN := if high then s.mns.highN + 1 else 0
  let need := if c.freq60 then 24 else 20
  let src := if s.pwr.pfwMns then !decide (highN ≥ need) else decide (lowN ≥ 2)
  let m := { s.mns with lowN := satTo 2 lowN, highN := satTo need highN }
  pfwRefresh { s with mns := m, pwr := { s.pwr with pfwMns := src } }

/-- The deepest half-cycle RMS of every dip watch (R659). -/
def watchDips (s : State) (lo : Int) : State :=
  let f := fun (w : DipWatch) =>
    if s.now ≤ w.start + 2000000 then { w with low := some (min lo (w.low.getD lo)) } else w
  { s with stb := { s.stb with watches := s.stb.watches.map f } }

/-- The RMS of a sine of 1.2 V peak at a ball of divider ratio r: what a clipped phase reads at most (R157; DEDUCED: the share of
MAINS_N, which lies near AGND, is left out of the bound). -/
def clipRms (r : Word) : Int := (qRound (frMul (fVal r) ⟨848528137423857 * qOne, 1000000000000000⟩)).val

/-- The readings of A, B, C and N, each saturated by its clipping. -/
def clipped (c : IslandsCfg) (rms : List Int) : List Int :=
  (rangeFrom 0 rms.length).map (fun k => min (rms.getD k 0) (clipRms (c.ratio.getD k 0#40)))

/-- HALF_CYCLE_REFRESH (R645): `rms` holds the half-cycle RMS of A, B, C. Events and the power-fail source act from
the first complete window on (R674). -/
def execHalfCycleRefresh (rms : List Int) (s : State) : Res :=
  match mnsCfg s with
  | none => .next s
  | some c =>
    let rms := clipped c rms
    let lo := minI (declared c rms)
    let m := { s.mns with half := rms.take 3, halfMin := some (min lo (s.mns.halfMin.getD lo)) }
    let s := watchDips { s with mns := m } lo
    if s.mns.windows == 0 then fin s else fin (mainsPfw (mainsEvents s c rms) c rms)

/-! Windows (R646, R647, R650). -/

/-- The share of a voltage of nominal, in %. -/
def sharePct (c : IslandsCfg) (v : Int) : Int := (qRound ⟨v * 100 * qOne, c.nominal.toNat⟩).val

/-- Quantity k of Table 17-1: its word, none where the last word stays, and its quality. -/
def mainsQty (s : State) (c : IslandsCfg) (rms : List Int) (freq unbal : Int) (acb posLow : Bool) (half : Int)
    (k : Nat) : Option Int × Quality :=
  let all3 := c.phases == 7
  let lo := minI (declared c rms)
  match k with
  | 0 | 1 | 2 => (some (rms.getD k 0), if bitsN c.phases k k == 1 then .good else .fault)
  | 3 => (some (rms.getD 3 0), if (fVal (c.ratio.getD 3 0#40)).num == 0 then .fault else .good)
  | 4 => (some lo, .good)
  | 5 => (some (sharePct c lo), .good)
  | 6 => (some freq, if s.isl.onRc || freq < 45 * qOne || freq > 65 * qOne then .fault else .good)
  | 7 => if !all3 then (some unbal, .fault) else if posLow then (none, .fault) else (some unbal, .good)
  | 8 => (some (sharePct c half), .good)
  | _ =>
    if !all3 then (some (qBool (acb == c.seqAcb)), .fault)
    else if posLow then (none, .fault) else (some (qBool (acb == c.seqAcb)), .good)

/-- Indices of the mains values, ascending (R647). -/
def mainsVals (s : State) : List Nat := sortBy (fun a b => decide (a ≤ b)) ((s.plt.plate.vals.filter (·.producer == 1)).map (·.index))

/-- Write quantity k to the k-th mains value, UNIT 0x02. -/
def mainsWrite (s : State) (q : Nat → Option Int × Quality) : Nat → List Nat → State
  | _, [] => s
  | k, i :: is =>
    let x := q k
    let w := match x.1 with | some z => qWord z | none => (getVal s i).v
    mainsWrite (putVal s i w x.2 0x02) q (k + 1) is

/-- A condition fault of R650: the count of bad windows, and since when the windows have been good, from the start of the first
good one, `since` (Table 9-6, DEDUCED). -/
def condStep (s : State) (src need n since : Nat) (okSince : Option Nat) (bad good : Bool) (param : Word) :
    State × Nat × Option Nat :=
  let n' := if bad then satAdd 255 n 1 else 0
  let ok := if good then some (okSince.getD since) else none
  let s := if n' == need then causeOn s src param else s
  let s := match ok with
    | some t => if s.now - t ≥ 10000000 then causeOff s src else s
    | none => s
  (s, n', ok)

/-- MAINS_CONDITION_FAULT (R650). -/
def mainsConds (s : State) (c : IslandsCfg) (since : Nat) (freq unbal : Int) (acb posLow : Bool) : State :=
  let use3 := c.phases == 7 && !posLow
  let seqOk := acb == c.seqAcb
  let r1 := condStep s 0x35 5 s.mns.seqN since s.mns.seqOkSince (use3 && !seqOk) (use3 && seqOk) (pw 0x0B)
  let s := r1.1
  let s := { s with mns := { s.mns with seqN := r1.2.1, seqOkSince := r1.2.2, seqOk := use3 && seqOk } }
  let past := decide (unbal > c.unbalance)
  let r2 := condStep s 0x36 50 s.mns.unbalN since s.mns.unbalOkSince (use3 && past)
    (use3 && decide (unbal < c.unbalance)) (pw 0x0B)
  let s := r2.1
  let s := { s with mns := { s.mns with unbalN := r2.2.1, unbalOkSince := r2.2.2 } }
  let rd := !s.isl.onRc && decide (45 * qOne ≤ freq ∧ freq ≤ 65 * qOne)
  let inBand := decide (c.freqLow ≤ freq ∧ freq ≤ c.freqHigh)
  let r3 := condStep s 0x37 5 s.mns.freqN since s.mns.freqOkSince (rd && !inBand) (rd && inBand) (pw 0x0B)
  let s := r3.1
  { s with mns := { s.mns with freqN := r3.2.1, freqOkSince := r3.2.2 } }

/-- The frequency in Hz: the cycles of a window over the MAIN periods that it took (R645, R646). -/
def windowFreq (c : IslandsCfg) (periods : Nat) : Int :=
  (qRound ⟨(if c.freq60 then 12 else 10) * 40000000 * qOne, max 1 periods⟩).val

/-- The unbalance in %: the negative-sequence fundamental over the positive-sequence one (R646). -/
def unbalancePct (pos neg : Int) : Int := (qRound ⟨neg * 100 * qOne, max 1 pos.toNat⟩).val

/-- MAINS_WINDOW_END (R646): the window RMS of A, B, C and N, the MAIN periods of the window, the positive-sequence and the
negative-sequence fundamental, and the measured sequence (A-C-B or not). -/
def execMainsWindowEnd (rms : List Int) (periods : Nat) (pos neg : Int) (acb : Bool) (s : State) : Res :=
  match mnsCfg s with
  | none => .next s
  | some c =>
    let rms := clipped c rms
    let freq := windowFreq c periods
    let unbal := unbalancePct pos neg
    let posLow := belowPct c 10 pos
    let lo := minI (declared c rms)
    let half := s.mns.halfMin.getD lo
    let since := s.mns.windowAt.getD s.now
    let m := { s.mns with
      windows := s.mns.windows + 1
      rms := (rangeFrom 0 4).map (fun k => rms.getD k 0)
      low := lo
      freq := freq
      unbal := if posLow || c.phases != 7 then s.mns.unbal else unbal
      windowAt := some s.now
      halfMin := none }
    let s := { s with mns := m }
    let s := mainsWrite s (mainsQty s c rms freq unbal acb posLow half) 0 (mainsVals s)
    fin (mainsConds s c since freq unbal acb posLow)

end Sys2Proof.Machine
end

