-- ==== Sys2Proof/Machine/Starts.lean ====
section
/-! DEFINITION. The start budget (chapter 17): START_REQUEST, START_WITHDRAW, DECISION_STEP, START_END,
START_STARVED, DIP_LEARNED. -/

namespace Sys2Proof.Machine

open Sys2Proof

def startsCfg (s : State) : Option StartsCfg := s.plt.plate.starts.head?
def dipCfg (s : State) (ch : Nat) : Option DipCfg := s.plt.plate.dips.find? (·.ch == ch)

/-- Start freeze (Table 17-3). -/
def startFrozen (s : State) : Bool := s.stb.arming || s.stb.host || s.stb.session || !s.eng.sfrz.isEmpty

/-- A freeze that begins discards the decision held for the next step, and a withdrawal in the same step costs no dead one (R197,
R662, R667). -/
def freezeDrop (s : State) : State :=
  if startFrozen s then { s with stb := { s.stb with next := none, dead := false } } else s

/-- The voltage condition is tested (R664). -/
def voltTested (s : State) : Bool := !s.plt.plate.islands.isEmpty && !s.plt.plate.starts.isEmpty

/-- The dip in use for a motor (R658). -/
def dipOf (s : State) (ch : Nat) : Int :=
  match tget none s.stb.learned ch with
  | some d => d
  | none => match dipCfg s ch with | some d => d.dip | none => 0

/-- The voltage condition of R653. -/
def voltOk (s : State) (ch : Nat) : Bool :=
  match islandsCfg s, startsCfg s with
  | some c, some b =>
    (match s.mns.windowAt with
      | none => false
      | some t => decide (s.now - t ≤ 1000000)) &&
    decide ((s.mns.low - dipOf s ch) * 100 * qOne ≥ b.limitPct * c.nominal)
  | _, _ => true

/-- SPACING_S and MAXCONC (R664, R512). -/
def spacingS (s : State) : Nat := match startsCfg s with | some b => b.spacingS | none => 2
def maxConc (s : State) : Nat := match startsCfg s with | some b => b.maxConc | none => 1

/-- Spacing, concurrency, freeze and warning, which apply to every requester (R653, R654); `serve` is the serve instant
of the next step. -/
def mayDecide (s : State) (serve : Nat) : Bool :=
  !startFrozen s && !s.pwr.pfw && decide (s.stb.active.length < maxConc s) &&
    (match s.stb.lastAt with
      | none => true
      | some t => decide (serve - t ≥ spacingS s * 1000000))

/-- The oldest request that meets the voltage condition (R654). -/
def oldestReq (s : State) : Option Nat := (s.stb.reqs.find? (fun r => reqStands s r.1 && voltOk s r.1)).map (·.1)

/-- Dip learning takes place (R660, R664). -/
def learns (s : State) : Bool := voltTested s && mnsOn s && decide (s.mns.windows > 0)

/-- A motor as a grant starts it (Table 19-1). -/
def startedMot (m : MotSt) (now : Nat) : MotSt :=
  { st := 1
    cause := m.cause
    tcause := m.tcause
    grantAt := now
    fb := m.fb
    fbSince := m.fbSince
    rate := m.rate
    edges := m.edges
    full := m.full
    welded := m.welded }

/-- START_GRANT (R652): the token is granted and MOTn_RUN sinks. -/
def grantStart (s : State) (ch : Nat) : State :=
  let s := dropReq (setMot s ch (startedMot (getMot s ch) s.now)) ch
  let ws := s.stb.watches.map (fun w => { w with spoiled := true })
  let w : DipWatch := { ch := ch, start := s.now, base := s.mns.low, spoiled := s.mns.swell.isSome || s.mns.intr.isSome }
  let b := { s.stb with
    grants := (s.stb.grants + 1) % 2 ^ 24
    lastCh := ch
    lastAt := some s.now
    active := s.stb.active.filter (·.1 != ch) ++ [(ch, s.now)]
    starts := tset 0 s.stb.starts ch (satAdd 255 (tget 0 s.stb.starts ch) 1)
    watches := if learns s then ws.filter (·.ch != ch) ++ [w] else ws }
  fbAgree { s with stb := b } ch

/-- Serve the decision made at the step before (R652, R657). -/
def serveStep (s : State) : State :=
  let dead := { s with stb := { s.stb with next := none, dead := false, deadCount := satAdd 65535 s.stb.deadCount 1 } }
  match s.stb.next with
  | some ch =>
    if reqStands s ch then grantStart { s with stb := { s.stb with next := none, dead := false } } ch
    else dropReq dead ch
  | none => if s.stb.dead then dead else s

/-- START_REQUEST (R651). -/
def execStartRequest (ch : Nat) (s : State) : Res := .next (startAsk s ch)

/-- START_WITHDRAW (R651, R657, R667, R671). -/
def execStartWithdraw (ch : Nat) (s : State) : Res := .next (startDrop s ch)

/-- DECISION_STEP (R652 to R654, R657, R674). -/
def execDecisionStep (s : State) : Res :=
  if !isArmed s || s.now < s.stb.stepAt then .next s
  else
    let s := serveStep s
    let next := if mayDecide s (s.now + 100000) then oldestReq s else none
    fin { s with stb := { s.stb with next := next, stepAt := s.stb.stepAt + 100000 } }

/-- The reference ratio of R728. -/
def slipReference (s : State) (c : MotorCfg) : Option (Int × Nat) :=
  let m := getMot s c.ch
  let x := readVal s c.slip
  if c.slip == 0xFFF || isBad x || m.rate.1 ≤ 0 then none else some (x.v * (m.rate.2 : Int), m.rate.1.toNat)

/-- START_END (R655): 2 s have passed, the proving time has ended, and the motor has proved. -/
def execStartEnd (ch : Nat) (s : State) : Res :=
  match motorCfg s ch with
  | none => .next s
  | some c =>
    let m := getMot s ch
    if s.stb.active.any (·.1 == ch) && m.proved && s.now ≥ m.grantAt + 2000000 && s.now ≥ m.grantAt + c.prove * 100000 then
      let s := setMot s ch { m with superv := true, slipRef := slipReference s c }
      fin { s with stb := { s.stb with active := s.stb.active.filter (·.1 != ch) } }
    else .next s

/-- START_STARVED (R656). -/
def execStartStarved (ch : Nat) (s : State) : Res :=
  match startsCfg s, s.stb.reqs.find? (·.1 == ch) with
  | some b, some r =>
    if s.stb.starved.contains ch || decide (s.now - r.2 ≤ b.waitS * 1000000) then .next s
    else fin (raiseU { s with stb := { s.stb with starved := s.stb.starved ++ [ch] } } 0x38 (pw ch))
  | _, _ => .next s

/-- The new dip of R659: dip + α × (drop − dip). -/
def newDip (alpha : Word) (dip drop : Int) : Int :=
  let a := fVal alpha
  (qRound ⟨dip * (a.den : Int) + a.num * (drop - dip), a.den⟩).val

/-- A learned dip is kept in the motor's persistent item (R661). -/
def keepDip (s : State) (ch : Nat) (w : Word) : Nvm :=
  match s.plt.plate.dips.find? (·.ch == ch) with
  | none => s.nvm
  | some c =>
    if c.pindex == 0x1FFFF then s.nvm
    else { s.nvm with items := tset none s.nvm.items c.pindex (some w) }

/-- DIP_LEARNED (R659, R660): the 2 s of a start's watch have ended. -/
def execDipLearned (ch : Nat) (s : State) : Res :=
  match startsCfg s, s.stb.watches.find? (·.ch == ch) with
  | some b, some w =>
    if s.now < w.start + 2000000 then .next s
    else
      let s := { s with stb := { s.stb with watches := s.stb.watches.filter (·.ch != ch) } }
      match w.low with
      | none => .next s
      | some low =>
        if w.spoiled then .next s
        else
          let drop := max 0 (w.base - low)
          let d := newDip b.alpha (dipOf s ch) drop
          let t := { s.stb with
            learned := tset none s.stb.learned ch (some d)
            lastDrop := tset 0 s.stb.lastDrop ch (satTo 65535 (divRoundEven (drop * 100) 1048576).toNat) }
          let n := keepDip s ch (qWord d)
          fin (addRecord { s with stb := t, nvm := n } 0x200B 0x0C (pw ch) (qWord d))
  | _, _ => .next s

end Sys2Proof.Machine
end

