-- ==== Sys2Proof/Machine/CmdOps.lean ====
section
/-! DEFINITION. The effects that sessions and the host share (Tables 24-8 and 25-7): each answers a status code of
Table 25-3 and the state after it. -/

namespace Sys2Proof.Machine

open Sys2Proof

/-- SECTION with start (R446): `origin` 0 session, 1 host. -/
def sectStartCmd (s : State) (n origin : Nat) : Nat × State :=
  if !isArmed s then (stBusy, s)
  else if (sectCfg s n).isNone then (stRange, s)
  else
    let (ok, s) := startSect s n origin
    (if ok then stOk else stBusy, s)

/-- SECTION with stop (R447): a section or all. -/
def sectStopCmd (s : State) (n : Nat) : Nat × State :=
  if !isArmed s then (stBusy, s)
  else if n != 0xFF && (sectCfg s n).isNone then (stRange, s)
  else (stOk, stopCommand s n)

/-- An acknowledgment (R357, R370). -/
def ackCmd (s : State) (n : Nat) : Nat × State :=
  if 0x60 ≤ n && n != 0xFF then (stRange, s) else (stOk, ackFault s n)

/-- The fog acknowledgment (R699, R700). -/
def fogAckCmd (s : State) (port : Word) : Nat × State :=
  if s.fan.fog && s.fan.hb == 3 then (stOk, fogEnd s port) else (stBusy, s)

/-- START_FREEZE (Table 10-7): the port, with bit 39 for a freeze. -/
def freezeRecord (s : State) (port : Word) (set : Bool) : State :=
  addRecord s 0x200A 0x0C (if set then port ||| 0x8000000000#40 else port) 0#40

/-- The host's source of start freeze (Table 17-3): recorded where it changes. -/
def hostFreeze (s : State) (port : Word) (b : Bool) : State :=
  if s.stb.host == b then s else freezeDrop (freezeRecord { s with stb := { s.stb with host := b } } port b)

/-- The session's source. -/
def sessionFreeze (s : State) (port : Word) (b : Bool) : State :=
  if s.stb.session == b then s else freezeDrop (freezeRecord { s with stb := { s.stb with session := b } } port b)

/-- The motor clear (R731). -/
def motClearCmd (s : State) (ch : Nat) : Nat × State :=
  if (motorCfg s ch).isNone then (stRange, s)
  else
    let m := getMot s ch
    if m.st == 4 && !tripGone m then (stBusy, s) else (stOk, clearMot s ch)

/-- SERIAL and REVISION of the admitted plate (Table 13-1); 0 without one. -/
def plateSerial (s : State) : Nat := if s.plt.admitted then fld (s.plt.plate.hdr.getD 2 0#40) 39 16 else 0
def plateRev (s : State) : Nat := if s.plt.admitted then fld (s.plt.plate.hdr.getD 2 0#40) 15 0 else 0

end Sys2Proof.Machine
end

