-- ==== Sys2Proof/Machine/KeeperVals.lean ====
section
/-! DEFINITION. The values that the keeper produces (R451 to R453, Table 11-13). -/

namespace Sys2Proof.Machine

open Sys2Proof

/-! Keeper values (R451). -/

/-- A Boolean as a value. -/
def boolVal (b : Bool) : BIn := ⟨qBool b, .good⟩

/-- A host heartbeat has arrived within HOST_S. -/
def hostSeen (s : State) : Bool :=
  match s.plt.plate.sup.head?, s.fan.lastHb with
  | some c, some t => decide (s.now - t ≤ c.hostS * 1000000)
  | _, _ => false

/-- The local date of the calendar. -/
def calDate (s : State) : CalDate := dateOf (calLocal s.cal)

/-- A calendar quantity, FAULT while the calendar is not valid. -/
def calQty (s : State) (n : Nat) : BIn := ⟨(n : Int) * qOne, if s.cal.valid then .good else .fault⟩

/-- The highest junction temperature (R170: a quarter kelvin a code, from -64 °C). -/
def junctionVal (s : State) : Int := divRoundEven ((((s.pwr.tj.foldl max 0 : Nat) : Int) - 256) * qOne) 4

/-- Highest effective class uncleared: 0 none, 1 Advisory, 2 Degraded, 3 Severe; a Fatal source stops the keeper. -/
def keeperClass (f : Flt) : Nat :=
  min 3 (maxN ((f.src.filter (fun e => e.2.uncleared)).map (fun e => e.2.eff.code + 1)))

/-- Table 11-13: the value of a quantity; none for the run request, which its section writes. -/
def keeperQty (s : State) (kq : Nat) : Option BIn :=
  match kq with
  | 0x01 => some (boolVal (isArmed s))
  | 0x02 => some (boolVal s.fan.fog)
  | 0x03 => some (boolVal s.fan.trip)
  | 0x04 => some (boolVal (startFrozen s))
  | 0x05 => some (boolVal s.pwr.pfw)
  | 0x06 => some ⟨((keeperClass s.flt : Nat) : Int) * qOne, .good⟩
  | 0x07 =>
    let on := match s.plt.plate.sup.head? with | some c => c.hostS != 0 | none => false
    some ⟨qBool (hostSeen s), if on then .good else .fault⟩
  | 0x08 => some ⟨(((s.syn.nodes.filter (fun e => e.2.st == 3 || e.2.st == 4)).length : Nat) : Int) * qOne, .good⟩
  | 0x09 => some ⟨junctionVal s, .good⟩
  | 0x0A => some ⟨divRoundEven ((vcapMv s s.pwr.snsCode : Nat) * qOne) 1000, .good⟩
  | 0x0B => some (boolVal s.cal.valid)
  | 0x0C => some (calQty s (calLocal s.cal % 86400))
  | 0x0D => some (calQty s (calDate s).day)
  | 0x0E => some (calQty s (calDate s).month)
  | 0x0F => some (calQty s (calDate s).year)
  | 0x10 => some (calQty s (calDate s).wday)
  | _ => none

/-- The keeper writes its values: from the end of step 8, with an admitted plate (R451). -/
def keeperWrites (s : State) : Bool :=
  keeperRuns s && s.plt.admitted && decide (s.start.step ≥ 8) && s.start.state != .moored

/-- Write one keeper value, where its quantity stands now. -/
def keeperPut (s : State) (c : ValCfg) : State :=
  match keeperQty s c.kq with
  | none => s
  | some x => putVal s c.index (qWord x.v) x.q 0x04

def keeperPuts (s : State) : List ValCfg → State
  | [] => s
  | c :: cs => keeperPuts (keeperPut s c) cs

/-- The plate's keeper values with a quantity number in a range. -/
def keeperVals (s : State) (lo hi : Nat) : List ValCfg :=
  s.plt.plate.vals.filter (fun c => c.producer == 3 && decide (lo ≤ c.kq) && decide (c.kq ≤ hi))

/-- A quantity that has changed since its last write. -/
def keeperChanged (s : State) (c : ValCfg) : Bool :=
  match keeperQty s c.kq with
  | none => false
  | some x => let v := getVal s c.index; v.at_.isNone || v.v != qWord x.v || v.q != x.q

/-- The values that are written at each calendar second. -/
def calendarPuts (s : State) : State := if keeperWrites s then keeperPuts s (keeperVals s 0x0B 0x10) else s

/-- The values written at each change, and every 1 s: `all` at the second, else those that changed. -/
def plantPuts (s : State) (all : Bool) : State :=
  if all then keeperPuts s (keeperVals s 0x01 0x0A) else keeperPuts s ((keeperVals s 0x01 0x08).filter (keeperChanged s))

end Sys2Proof.Machine
end

