-- ==== Sys2Proof/Machine/Calendar.lean ====
section
/-! DEFINITION. The calendar's own commands (chapter 22): CALENDAR_SECOND, SCHEDULE_EVALUATION, OPERATING_SECOND_TICK,
XT32_STOP, VBKUP_LOW, VBKUP_POWER_ON. A chip reset stops none of them (R862); raises need a running keeper. -/

namespace Sys2Proof.Machine

open Sys2Proof

/-- The second after the present one lies in the range (R850). -/
def calGoesOn (c : Cal) : Bool := inRange ((c.utc : Int) + 1) && inRange (localSecs c.utc c.offset + 1)

/-- The calendar one second on; second 0 of a local minute waits for its evaluation while the keeper runs (R852). -/
def calAdvance (s : State) : State :=
  let c := { s.cal with utc := s.cal.utc + 1, secAt := s.now }
  let due := keeperRuns s && calLocal c % 60 == 0
  { s with cal := { c with evalDue := if due then some (calLocal c) else c.evalDue } }

/-- CALENDAR_SECOND (R839, R850); the keeper writes its calendar values at each second (Table 11-13). -/
def execCalendarSecond (s : State) : Res :=
  let s := { s with cal := { s.cal with xtRun := true } }
  if s.cal.atEnd then .next s
  else if calGoesOn s.cal then fin (calendarPuts (calAdvance s))
  else
    let s := { s with cal := { s.cal with atEnd := true } }
    .next (if keeperRuns s then causeOn s 0x4F (pw 0x11) else s)

/-- Fire a list of sections. -/
def fireRules (s : State) : List Nat → State
  | [] => s
  | n :: ns => fireRules (fireRule s n) ns

/-- The entries that match fire their rules (R852, R853). -/
def schedFire (s : State) (x : CalDate) : List SchedCfg → State
  | [] => s
  | e :: es => schedFire (if schedMatch e x then fireRules s (schedSects s e.entry) else s) x es

/-- SCHED_SKIPPED once per entry named by a SCHEDULE rule (R853). -/
def schedSkip (s : State) : List SchedCfg → State
  | [] => s
  | e :: es =>
    schedSkip (if (schedSects s e.entry).isEmpty then s
      else addRecord s 0x200D 0x11 (pw e.entry) (pw (b2n s.cal.valid))) es

/-- SCHEDULE_EVALUATION (R852): on the reading at second 0 of the local minute. At the end of the range no second
counts any more, and the command stands for the minute that would have been evaluated. -/
def execScheduleEvaluation (s : State) : Res :=
  let due := s.cal.evalDue
  let s := { s with cal := { s.cal with evalDue := none } }
  if !keeperRuns s || !s.plt.admitted then .next s
  else
    match due, calUsable s.cal with
    | some t, true => fin (schedFire s (dateOf t) s.plt.plate.scheds)
    | none, true => .next s
    | some _, false => fin (schedSkip s s.plt.plate.scheds)
    | none, false => if s.cal.atEnd then fin (schedSkip s s.plt.plate.scheds) else .next s

/-- OPERATING_SECOND_TICK (R839): the free-running divider of the 32.768 kHz crystal, which counts nothing while the crystal is
stopped (R80); its tick crosses from the TIME island. A chip reset holds the count of operating seconds, which the
release restores, and the ticks of R365 go on. -/
def execOperatingSecondTick (s : State) : Res :=
  let c := { s.cal with ticks := s.cal.ticks + 1 }
  if !s.cal.xtRun then .next s
  else .next { s with cal := { c with opSec := if s.rst.held || !islRuns s 0 then c.opSec else c.opSec + 1 } }

/-- XT32_STOP (R840, R861): the count is held. -/
def execXt32Stop (s : State) : Res :=
  fin (calLose { s with cal := { s.cal with xtRun := false } } 3)

/-- VBKUP_LOW (R861). -/
def execVbkupLow (s : State) : Res :=
  fin (calLose { s with pwr := { s.pwr with vbkupLow := true } } 2)

/-- VBKUP_POWER_ON (R840): the calendar restarts, and CAL_SET0 and CAL_SET1 read 0. -/
def execVbkupPowerOn (s : State) : Res :=
  fin (calLose { s with cal := { s.cal with
    utc := 0
    offset := 0
    secAt := s.now
    atEnd := false
    set0 := 0#40
    set1 := 0#40 } } 1)

end Sys2Proof.Machine
end

