-- ==== Sys2Proof/Machine/Values.lean ====
section
/-! DEFINITION. From samples to values (chapter 16): SAMPLE_PROCESSING, PAIR_DISAGREE, PAIR_DISAGREE_END,
SWITCH_DELAY_EXPIRY, AGE_CHECK. -/

namespace Sys2Proof.Machine

open Sys2Proof

def valCfg (s : State) (i : Nat) : Option ValCfg := s.plt.plate.vals.find? (·.index == i)

def getFev (s : State) (i : Nat) : FeVal := tget {} s.sw.fev i
def setFev (s : State) (i : Nat) (x : FeVal) : State := { s with sw := { s.sw with fev := tset {} s.sw.fev i x } }

/-! Classification (Table 16-2): 0 usable, 1 OPEN, 2 SHORT, 3 SOURCE, 4 RANGE. -/

def entrySrc (s : State) (c : ScanCfg) : Option ExcCfg :=
  if c.exc == 15 then none else s.plt.plate.excs.find? (·.src == c.exc)

def sampleClass (x : Sample) (cap : Bool) (mode0 : Bool) : Nat :=
  if x.pinLo || x.pinHi || x.ovr then 1
  else if cap && x.ampLo then 2
  else if mode0 && decide (-1024 < x.code ∧ x.code < 1024) then 2
  else if x.exc || x.ref then 3
  else 0

/-- The signal x (Table 16-3). -/
def signalX (c : ScanCfg) (mode : Option Nat) (code : Int) : Frac :=
  let g := 2 ^ c.gain
  if c.cap then ⟨code, 2 ^ 23 * g⟩
  else if mode == some 2 then ⟨code, 2 ^ 24 * g⟩
  else ⟨code * 5, 2 ^ 24 * g⟩

/-- One F40 step p × x + c with its saturations (R612). -/
def polyStep (x : Word) (acc : Word × List Word) (c : Word) : Word × List Word :=
  let m := fMul acc.1 x
  let a := fAdd m.word c
  (a.word, acc.2 ++ satF m ++ satF a)

/-- Σ over i of c(i, j) x^i by Horner's rule, from i = imax down. -/
def polyRow (co : CoefCfg) (x : Word) (j : Nat) (sats : List Word) : Word × List Word :=
  let at_ := fun i => co.c.getD (i * (co.jmax + 1) + j) 0#40
  ((rangeFrom 0 co.imax).reverse.map at_).foldl (polyStep x) (at_ co.imax, sats)

/-- lin(x, t) of R612. -/
def linearise (co : CoefCfg) (x t : Word) : Word × List Word :=
  (rangeFrom 0 (co.jmax + 1)).reverse.foldl (fun acc j =>
    let p := polyRow co x j []
    let m := fMul acc.1 t
    let a := fAdd m.word p.1
    (a.word, acc.2 ++ p.2 ++ satF m ++ satF a)) (0#40, [])

/-- The TEMP value's word in F40 and its quality where it lowers the result's (R611). -/
def tempOf (s : State) (v : ValCfg) : Word × Quality :=
  if v.temp == 0xFFF then (0#40, .good)
  else
    let x := readVal s v.temp
    let q := if x.q == .fault || x.q == .stale || x.q == .subst || x.q == .disagree then x.q else .good
    ((qToF x.v).word, q)

/-- Range test (Table 16-4): the word written, none for class RANGE. -/
def rangeTest (v : ValCfg) (y : Int) : Option Int :=
  let span := v.high - v.low
  if v.low ≤ y ∧ y ≤ v.high then some y
  else if y < v.low ∧ (v.low - y) * 50 ≤ span then some v.low
  else if y > v.high ∧ (y - v.high) * 50 ≤ span then some v.high
  else none

/-- A loop fan names the value as its SOURCE (R617). -/
def loopSource (s : State) (i : Nat) : Bool := s.plt.plate.fans.any (fun f => f.mode == 2 && f.source == i)

/-- Word and quality of a substituted value (Table 16-5, R617). -/
def substOf (s : State) (v : ValCfg) (f : FeVal) : Int × Quality :=
  let sub := if v.subst == 0 && loopSource s v.index then 2 else v.subst
  match sub with
  | 0 => (qOf (getVal s v.index).v, .fault)
  | 1 => (f.lastGood.getD v.high, .subst)
  | 2 => (v.high, .subst)
  | _ => (v.low, .subst)

/-! Counting (R619). `counts` has bit 0 open, bit 1 shorted, bit 2 out of range. -/

def countBit (cls : Nat) : Nat := if cls == 1 then 1 else if cls == 2 then 2 else if cls == 4 then 4 else 0
def countSrc (cls : Nat) : Nat := if cls == 1 then 0x28 else if cls == 2 then 0x29 else 0x2A

/-- Values counting under a bit. -/
def counting (s : State) (b : Nat) : Nat := (s.sw.fev.filter (fun e => e.2.counts &&& b != 0)).length

/-- A faulty sample starts its count and raises its fault. -/
def startCount (s : State) (i cls : Nat) : State :=
  let f := getFev s i
  let b := countBit cls
  if b == 0 || f.counts &&& b != 0 then s
  else raiseU (setFev s i { f with counts := f.counts ||| b }) (countSrc cls) (pw i)

/-- A value that returns counts no more; causes with no value left are gone. -/
def stopCount (s : State) (i : Nat) : State :=
  let s := setFev s i { getFev s i with counts := 0 }
  let s := if counting s 1 == 0 then causeOff s 0x28 else s
  let s := if counting s 2 == 0 then causeOff s 0x29 else s
  if counting s 4 == 0 then causeOff s 0x2A else s

/-! Pairs (R621 to R624, R1011). -/

def pairIdx (s : State) (i : Nat) : Option Nat := findIdx0 (fun p => p.a == i || p.b == i) s.plt.plate.pairs 0
/-- A value never sampled, or older than its STALE_MS. -/
def ownStale (s : State) (i : Nat) : Bool :=
  let v := getVal s i
  match v.at_, staleMsOf s i with
  | none, _ => true
  | some t, some m => decide (msOf (s.now - t) > m)
  | some _, none => false

/-- A value is forced, or keeps the forced word until its producer's next write (R282): UNIT reads 0x20. -/
def forceHolds (v : Val) : Bool := v.forced || v.unit == 0x20

/-- A member reads STALE: by its age, or with the word that a force has left (R282). -/
def pairOld (s : State) (i : Nat) : Bool := ownStale s i || (forceHolds (getVal s i) && !(getVal s i).forced)

/-- Faulty after stage 6, or STALE (R623); `m` is the member that a sample is being written to, which is STALE no more. -/
def pairBad (s : State) (m : Option Nat) (i : Nat) : Bool :=
  (getFev s i).sub || (getFev s i).ownQ == .fault || (getFev s i).ownQ == .stale || (m != some i && pairOld s i)

def pairPolicy (p : PairCfg) (a b : Int) : Int :=
  match p.policy with
  | 0 => max a b
  | 1 => min a b
  | 2 => (qRound ⟨a + b, 2⟩).val
  | _ => a

/-- Rewrite word and quality only (R1011). -/
def rewriteVal (s : State) (i : Nat) (w : Int) (q : Quality) : State :=
  let v := getVal s i
  if forceHolds v then s
  else { s with eng := { s.eng with vals := tset {} s.eng.vals i { v with v := qWord w, q := q } } }

/-- What a value presents: written as a sample (age 0, UNIT 0x01), or rewritten. A sample whose window ended before the
blanking is written with BLANKED, or STALE beyond BLANK_MS, where no higher quality stands (R590, R591, DEDUCED). -/
def present (s : State) (i : Nat) (sampled : Bool) (w : Int) (q : Quality) : State :=
  let q := if sampled && blankHeld s i && (q == .good || q == .disagree) then
      (if s.fe.blankStale.contains i then .stale else if q == .good then .blanked else q) else q
  let s := if sampled then putVal s i (qWord w) q 0x01 else rewriteVal s i w q
  if q == .good && (getVal s i).q == .good then setFev s i { getFev s i with lastGood := some w } else s

/-- Present a member's own word and quality; without a sample an aged value, or one never sampled, is STALE (R1011). -/
def presentOwn (s : State) (i : Nat) (sampled : Bool) : State :=
  let f := getFev s i
  present s i sampled f.own (if !sampled && agesOut f.ownQ && ownStale s i then .stale else f.ownQ)

/-! The timer of R621 and R622. -/

def timerStart (now : Nat) (x : PairSt) : PairSt :=
  if x.run then x else { x with run := true, since := some now, held := 0 }
def timerStop (x : PairSt) : PairSt := { x with run := false, since := none, held := 0 }
/-- µs the timer has run. -/
def timerUs (now : Nat) (x : PairSt) : Nat := x.held + (match x.since with | some t => now - t | none => 0)

/-- A pair that no longer disagrees; the fault's cause is gone with the last one. -/
def pairAgree (s : State) (k : Nat) : State :=
  let x := getPair s k
  if x.dis then
    let s := setPair s k { timerStop x with dis := false }
    if s.sw.pairs.any (fun e => e.2.dis) then s else causeOff s 0x2B
  else setPair s k (timerStop x)

/-- Compare two GOOD members (R621, R622): the timer counts towards DISAGREE, or, in DISAGREE, towards its end. -/
def pairCompare (s : State) (k : Nat) (p : PairCfg) : State :=
  let x := getPair s k
  let past := decide (absI ((getFev s p.a).own - (getFev s p.b).own) > p.tolerance)
  setPair s k (if past == x.dis then timerStop x else timerStart s.now x)

/-- Present one member while both take part and neither is bad: POLICY in DISAGREE, else its own. STALE, which the TEMP value can
give a sample too (R611), outranks DISAGREE (Table 7-6). -/
def pairShow (s : State) (k : Nat) (p : PairCfg) (i : Nat) (sampled : Bool) : State :=
  if (getPair s k).dis then
    if (getFev s i).ownQ == .fault || (getFev s i).ownQ == .subst then presentOwn s i sampled
    else
      let w := pairPolicy p (getFev s p.a).own (getFev s p.b).own
      let old := (getFev s i).ownQ == .stale || (!sampled && ownStale s i)
      present s i sampled w (if old then .stale else .disagree)
  else if sampled then presentOwn s i true
  else s

/-- Present one member of a pair of which one is bad (R623); `m` is the member whose sample is written. -/
def pairShowBad (s : State) (m : Option Nat) (i j : Nat) : State :=
  if pairBad s m i && !pairBad s m j && (getFev s j).ownQ == .good && !s.pwr.vanaLow then
    present s i (m == some i) (getFev s j).own .subst
  else presentOwn s i (m == some i)

/-- Stage 7 for a pair; `m` is the member whose sample is written, none for an age check. -/
def pairUpdate (s : State) (k : Nat) (p : PairCfg) (m : Option Nat) : State :=
  if pairOut s p.a || pairOut s p.b then
    let s := setPair s k (timerHold s.now (getPair s k))
    match m with
    | none => s
    | some i => pairShow s k p i true
  else
    let s := setPair s k (timerGo s.now (getPair s k))
    if pairBad s m p.a || pairBad s m p.b then
      pairShowBad (pairShowBad (pairAgree s k) m p.a p.b) m p.b p.a
    else
      let s := if m.isSome && (getFev s p.a).ownQ == .good && (getFev s p.b).ownQ == .good then pairCompare s k p else s
      pairShow (pairShow s k p p.a (m == some p.a)) k p p.b (m == some p.b)

/-! Stage 6: the sample's own word and quality. -/

/-- A faulty sample (R616 to R619, R637). -/
def ownFaulty (s : State) (v : ValCfg) (cls : Nat) (code : Int) : State :=
  let s := { s with sw := { s.sw with lastKind := cls, lastVal := v.index, lastCode := code } }
  let s := startCount s v.index cls
  let f := getFev s v.index
  let w := if s.pwr.vanaLow then (qOf (getVal s v.index).v, Quality.fault) else substOf s v f
  setFev s v.index { f with own := w.1, ownQ := w.2, sub := true, usable := 0 }

/-- A usable sample: the value returns at the second consecutive one (R618). -/
def ownUsable (s : State) (v : ValCfg) (y : Int) (q : Quality) : State :=
  let f := getFev s v.index
  if s.pwr.vanaLow then
    setFev s v.index { f with own := qOf (getVal s v.index).v, ownQ := .fault, sub := true, usable := 0 }
  else if f.sub && f.usable == 0 then setFev s v.index { f with usable := 1 }
  else
    let s := setFev s v.index { f with own := y, ownQ := q, sub := false, usable := 0 }
    if f.counts == 0 then s else stopCount s v.index

/-- Stages 2 to 5 and the outcome for stage 6. -/
def sampleOwn (s : State) (x : Sample) (c : ScanCfg) (v : ValCfg) : State :=
  let src := entrySrc s c
  let mode := src.map (·.mode)
  let cls := sampleClass x c.cap (mode == some 0)
  if cls != 0 then ownFaulty s v cls x.code
  else
    let t := tempOf s v
    let xw := (fRound (signalX c mode x.code)).word
    let y := match s.plt.plate.coefs.find? (fun k => v.coef != 0xFF && k.set == v.coef) with
      | none => (xw, [])
      | some co => linearise co xw t.1
    let r := fToQ y.1
    let s := countSats s (0xF000 + v.index) 0x0A (y.2 ++ satQ r)
    match rangeTest v r.val with
    | none => ownFaulty s v 4 x.code
    | some w => ownUsable s v w (worse .good t.2)

/-- The window of a sample ended before the blanking of its value began: END, a turn count modulo 2³², is not after the turn
of the first assertion (Table 15-4, R591). -/
def beforeBlank (s : State) (i endT : Nat) : Bool :=
  match tget none s.fe.blankSince i with
  | none => false
  | some t => decide (((t - s.fe.gridAt) / 250 % 2 ^ 32 + 2 ^ 32 - endT) % 2 ^ 32 < 2 ^ 31)

/-- The end of a value's blanking at its next sample (R591). -/
def unblank (s : State) (i endT : Nat) : State :=
  if beforeBlank s i endT then s
  else
    let left := s.fe.blankStale.filter (· != i)
    let was := s.fe.blankStale.contains i
    let s := { s with fe := { s.fe with blankSince := tset none s.fe.blankSince i none, blankStale := left } }
    if was && left.isEmpty then causeOff s 0x2C else s

/-- Stages 1 to 8 of one sample (Table 16-1). -/
def processSample (s : State) (x : Sample) : State :=
  match scanCfg s x.value, valCfg s x.value with
  | some c, some v =>
    let s := sampleOwn (unblank s x.value x.endT) x c v
    match pairIdx s x.value with
    | none => presentOwn s x.value true
    | some k =>
      match s.plt.plate.pairs[k]? with
      | none => presentOwn s x.value true
      | some p => if s.pwr.vanaLow then presentOwn s x.value true else pairUpdate s k p (some x.value)
  | _, _ => s

/-- SAMPLE_PROCESSING (R607): the oldest sample of the CONV queue. -/
def execSampleProcessing (s : State) : Res :=
  match s.fe.conv with
  | [] => .next s
  | x :: xs =>
    let s := { s with fe := { s.fe with conv := xs } }
    if frontOn s then fin (processSample s x) else .next s

/-! VANA_LOW (R118, R637). -/

/-- A local analog value takes quality FAULT. -/
def vanaFault (s : State) (c : ScanCfg) : State :=
  let i := c.value
  let s := setFev s i { getFev s i with own := qOf (getVal s i).v, ownQ := .fault, sub := true, usable := 0 }
  setQuality s i .fault

def vanaFaults (s : State) : List ScanCfg → State
  | [] => s
  | c :: cs => vanaFaults (vanaFault s c) cs

/-- Members that read FAULT disagree no more, and their timers stop (DEDUCED). -/
def pairsAgree (s : State) : Nat → List PairCfg → State
  | _, [] => s
  | k, _ :: ps => pairsAgree (pairAgree s k) (k + 1) ps

/-- PAIR_DISAGREE (R621): the timer has reached LIMIT_MS. -/
def execPairDisagree (k : Nat) (s : State) : Res :=
  match s.plt.plate.pairs[k]? with
  | none => .next s
  | some p =>
    let x := getPair s k
    if frontOn s && x.run && !x.dis && decide (timerUs s.now x ≥ p.limitMs * 1000) then
      let s := raiseU (setPair s k { timerStop x with dis := true }) 0x2B (pw p.a)
      fin (pairShow (pairShow s k p p.a false) k p p.b false)
    else .next s

/-- PAIR_DISAGREE_END (R622): both members take their own latest values and qualities. -/
def execPairDisagreeEnd (k : Nat) (s : State) : Res :=
  match s.plt.plate.pairs[k]? with
  | none => .next s
  | some p =>
    let x := getPair s k
    if frontOn s && x.run && x.dis && decide (timerUs s.now x ≥ p.limitMs * 1000) then
      let s := pairAgree s k
      fin (presentOwn (presentOwn s p.a false) p.b false)
    else .next s

/-- SWITCH_DELAY_EXPIRY (R626): the switch changes state once its delay has run. -/
def execSwitchDelayExpiry (n : Nat) (s : State) : Res :=
  match swCfg s n with
  | none => .next s
  | some c => if frontOn s then fin (swEval s c) else .next s

/-- Declared values whose age exceeds STALE_MS now. -/
def agedOut (s : State) : List Nat :=
  (s.plt.plate.vals.map (·.index)).filter (fun i =>
    !(getVal s i).forced && agesOut (getVal s i).q && ownStale s i)

/-- The age check of every pair (R620, R623). -/
def pairAges (s : State) : Nat → List PairCfg → State
  | _, [] => s
  | k, p :: ps =>
    let s := if !s.pwr.vanaLow && (pairOld s p.a || pairOld s p.b) && !pairOut s p.a && !pairOut s p.b then pairUpdate s k p none
      else s
    pairAges s (k + 1) ps

/-- AGE_CHECK (R620): every 10 ms the front end looks at the ages. -/
def execAgeCheck (s : State) : Res :=
  if frontOn s then
    fin (pairAges { s with sw := { s.sw with seen := agedOut s } } 0 s.plt.plate.pairs)
  else .next s

end Sys2Proof.Machine
end

