-- ==== Sys2Proof/Machine/FrontEnd.lean ====
section
/-! DEFINITION. From pins to samples (chapter 15): SLICE_TURN_BOUNDARY, ROTATION_FIRING, ROTATION_HANDOVER,
CALIBRATION_END, BLANK_TRIGGER_ASSERT, BLANK_TRIGGER_END, BLANK_LIMIT, EXC_FAULT, VREF_FAULT, MODULATOR_STALL. -/

namespace Sys2Proof.Machine

open Sys2Proof

def getSlice (s : State) (n : Nat) : SliceSt := s.fe.slices.getD n {}
def setSlice (s : State) (n : Nat) (x : SliceSt) : State := { s with fe := { s.fe with slices := listSet s.fe.slices n x } }
/-- The present turn of the grid (R568). A turn is 10 000 MAIN periods, and the model's µs are MAIN's: on the RC oscillator they
carry its error (R600; DESIGN CHOICE, assumption 48). -/
def turnNow (s : State) : Nat := (s.now - s.fe.gridAt) / 250

/-- The slice that serves a list: active, or outgoing in an overlap. -/
def listSlice (s : State) (l : Nat) : Option Nat :=
  (rangeFrom 0 6).find? (fun n => let x := getSlice s n; x.list == l && (x.st == 0 || x.st == 4))

/-! Blanking (R589 to R591). -/

/-! Sequencers (R577 to R581). -/

/-- Conversion turns of an ODR code (Table 15-2). -/
def convTurns (odr : Nat) : Nat := [1600, 800, 400, 240, 200, 80, 67, 40, 10, 4, 1].getD odr 1

/-- The turns of an entry (R578). -/
def entryTurns (c : ScanCfg) : Nat := 4 * c.settleMs + convTurns c.odr

def listEntries (s : State) (l : Nat) : List Nat := s.adm.lists.getD l []

/-- The next requesting entry after `pos` in cyclic order, `pos` itself last (R577). -/
def chooseNext (s : State) (l pos : Nat) : Option Nat :=
  let es := (listEntries s l).filter (fun e => !valueBlanked s e)
  match es.find? (fun e => decide (e > pos)) with
  | some e => some e
  | none => es.head?

/-! The crosspoint (R563 to R565, R573). -/

/-- The slice whose entry holds a switch closed; none for excitation and bias. -/
def XPort.slice : XPort → Option Nat
  | .sliceP n | .sliceN n | .burnOut n _ | .burnIn n _ => some n
  | .excP _ | .excN _ | .bias _ => none

/-- The switches of an entry on slice `n`: POS and NEG to the inputs. -/
def inputConns (c : ScanCfg) (n : Nat) : List Conn := [⟨c.pos, .sliceP n⟩, ⟨c.neg, .sliceN n⟩]

/-- The burn-out current of an entry, out of POS and into NEG (R573). -/
def burnConns (c : ScanCfg) (n : Nat) : List Conn :=
  if c.burnout == 0 then [] else [⟨c.pos, .burnOut n c.burnout⟩, ⟨c.neg, .burnIn n c.burnout⟩]

def openSlice (s : State) (n : Nat) : State :=
  { s with fe := { s.fe with conns := s.fe.conns.filter (fun x => x.port.slice != some n) } }

def openSlices (s : State) : List Nat → State
  | [] => s
  | n :: ns => openSlices (openSlice s n) ns

def closeConns (s : State) (xs : List Conn) : State := { s with fe := { s.fe with conns := s.fe.conns ++ xs } }

/-- The slices that convert the entries of a list: the one that serves it, and the incoming one that has joined it
(Table 15-6 step 2). -/
def listSlices (s : State) (l : Nat) : List Nat :=
  match listSlice s l, s.fe.overlap with
  | none, _ => []
  | some n, some o => if o.joined && o.out == n then [n, o.inc] else [n]
  | some n, none => [n]

/-- The crosspoint at a turn boundary opens what the list's slices hold (R565). -/
def openList (s : State) (l : Nat) : State := openSlices s (listSlices s l)

/-- The switches of an entry: its pins to each slice that converts it, and one burn-out current. -/
def entryConns (s : State) (l : Nat) (c : ScanCfg) : List Conn :=
  (listSlices s l).flatMap (inputConns c) ++ burnConns c ((listSlice s l).getD 7)

/-- Serving entry `e` after entry `p` in cyclic order comes to the place of entry `a`. -/
def comesRound (a p e : Nat) : Bool := if p < e then decide (p < a ∧ a ≤ e) else decide (p < a ∨ a ≤ e)

/-- Entry `e` begins after `p` on list `l`: an incoming slice joins its outgoing one there, or, once it has joined, a cycle of the
list ends where the entry comes round at which it has joined; the third cycle is the last of the overlap (Table 15-6 steps 2
and 3). -/
def joinOverlap (s : State) (l p e : Nat) : State :=
  match s.fe.overlap with
  | none => s
  | some o =>
    if (getSlice s o.out).list != l then s
    else if !o.joined then { s with fe := { s.fe with overlap := some { o with joined := true, first := e } } }
    else if comesRound o.first p e then
      { s with fe := { s.fe with overlap := some { o with cycles := o.cycles + 1, ready := o.ready || decide (o.cycles ≥ 2) } } }
    else s

/-- Excitation and bias connections, closed at step 9 and kept until the next chip reset (R564, R605). -/
def sourceConns (p : Plate) : List Conn :=
  p.excs.flatMap (fun x => [⟨x.pinP, .excP x.src⟩, ⟨x.pinN, .excN x.src⟩]) ++
    p.biases.map (fun b => ⟨b.pin, .bias b.bias⟩)

/-! Excitation polarity (R566 to R569) and what a converted code is. -/

/-- A source of MODE 0 to 2 drives negative polarity in a turn (R568). -/
def chopNeg (x : ExcCfg) (turn : Nat) : Bool := turn / (2000 / x.freqHz) % 2 == 1

/-- A MODE 3 source drives negative polarity `us` µs after the start of the grid: each half period lasts 2 500 000 / f periods of the
5 MHz modulator clock, which need not be a whole number (R568). -/
def squareNeg (x : ExcCfg) (us : Nat) : Bool := us * 5 * x.freqHz / 2500000 % 2 == 1

/-- The present polarity of an excitation source, true for negative (R568). -/
def excNegative (s : State) (x : ExcCfg) : Bool :=
  if !s.fe.grid || x.freqHz == 0 then false
  else if x.mode == 3 then squareNeg x (s.now - s.fe.gridAt)
  else chopNeg x (turnNow s)

/-- The weight that the slice gives its modulator output `us` µs after the start of the grid, for an entry whose source is in
MODE 0 to 2: nothing in the first 8 µs after a polarity edge, then plus or minus one (R569). -/
def modWeight (x : ExcCfg) (us : Nat) : Int :=
  if us % (500000 / x.freqHz) < 8 then 0 else if chopNeg x (us / 250) then -1 else 1

/-- A source drives polarity `neg` in some turn of the `n` turns from `a`. -/
def polarityIn (x : ExcCfg) (neg : Bool) (a n : Nat) : Bool :=
  chopNeg x a == neg || decide (a % (2000 / x.freqHz) + n > 2000 / x.freqHz)

/-- The sources that drive a pin of the entry. -/
def pinSrcs (s : State) (c : ScanCfg) : List ExcCfg :=
  s.plt.plate.excs.filter (fun x => [x.pinP, x.pinN].any (fun p => p == c.pos || p == c.neg))

/-- POS or NEG is driven above 4.00 V by a MODE 2 source in some turn of the window (R594). -/
def drivenHigh (s : State) (c : ScanCfg) (a n : Nat) : Bool :=
  let mine := fun (p : Nat) => p == c.pos || p == c.neg
  (pinSrcs s c).any (fun x => x.mode == 2 &&
    ((mine x.pinP && polarityIn x false a n) || (mine x.pinN && polarityIn x true a n)))

/-- Modulator periods of an entry's window (R575). -/
def windowPeriods (c : ScanCfg) (chop : Bool) : Nat :=
  if chop || c.cap then convTurns c.odr * 1250
  else [2000000, 1000000, 500000, 300000, 250000, 100000, 83333, 50000, 12500, 5000, 1250].getD c.odr 1250

/-- A code held to the converter's range, and whether it was clipped (R574, Table 15-4). -/
def clipCode (z : Int) : Int × Bool :=
  if z > 8388607 then (8388607, true) else if z < -8388608 then (-8388608, true) else (z, false)

/-- The weight of a stretch by the source of the entry: nothing, plus or minus one (R569), or for a MODE 3 source in phase with its
square wave (R571). -/
def partWeight (x : ExcCfg) (p : Stretch) : Int :=
  if x.mode == 3 then (if squareNeg x p.start then -1 else 1) else modWeight x p.start

/-- The sum of a reading's stretches of one weight in nV µs, and their time. -/
def partSum (x : ExcCfg) (r : Reading) (w : Int) : Int × Nat :=
  let ps := r.parts.filter (fun p => partWeight x p == w)
  (ps.foldl (fun a p => a + p.nV * p.us) 0, ps.foldl (fun a p => a + p.us) 0)

/-- Half the difference between the means of the two polarities, in nV (R569, R571). -/
def demod (x : ExcCfg) (r : Reading) : Frac :=
  let a := partSum x r 1
  let b := partSum x r (-1)
  ⟨a.1 * b.2 - b.1 * a.2, 2 * max 1 (a.2 * b.2)⟩

/-- The mean of a reading over all its time, in nV. -/
def meanNv (r : Reading) : Frac := ⟨r.parts.foldl (fun a p => a + p.nV * p.us) 0, max 1 (r.parts.foldl (fun a p => a + p.us) 0)⟩

/-- The least and the largest input of a reading. -/
def leastNv (r : Reading) : Int := (r.parts.map (·.nV)).foldl min r.mid
def mostNv (r : Reading) : Int := (r.parts.map (·.nV)).foldl max r.mid

/-- What an entry converts, in nV: half the difference of the polarities of its own source, which a CAP entry demodulates by
(R569, R571); a pin that another source drives as it stands, with no demodulation, and so the mean of the two levels where the
window spans whole periods, else a value between the readings of the levels (R1012); else the window's mean (R575). -/
def inputNv (s : State) (c : ScanCfg) (r : Reading) : Frac :=
  let src := entrySrc s c
  let chop := match src with | none => false | some x => x.mode != 3
  let other := (pinSrcs s c).filter (fun x => x.src != c.exc)
  match src with
  | some x =>
    if c.cap || other.isEmpty then demod x r
    else if other.all (fun y => windowPeriods c chop % (5000000 / y.freqHz) == 0) then meanNv r
    else ⟨max (leastNv r) (min (mostNv r) r.mid), 1⟩
  | none =>
    if other.isEmpty then ⟨r.mid, 1⟩
    else if other.all (fun y => windowPeriods c chop % (5000000 / y.freqHz) == 0) then meanNv r
    else ⟨max (leastNv r) (min (mostNv r) r.mid), 1⟩

/-- Full scale at gain 1 in nV: VREF_OUT, half the measured excitation voltage in MODE 2, the measured amplitude of a CAP entry
(R570, R571, R574); `vexc` is that measurement in µV. -/
def scaleNv (s : State) (c : ScanCfg) (vexc : Nat) : Nat :=
  if c.cap then vexc * 1000
  else if (entrySrc s c).any (fun x => x.mode == 2) then vexc * 500
  else 2500000000

/-- The code of an entry (R570, R571, R574): its input at the slice's gain against full scale, with the offset and gain corrections
of the slice (R582), rounded once to the nearest with ties to even, and clipped (the order of the corrections and the rounding:
DESIGN CHOICE, assumption 43). A measured excitation of zero has no ratio, and its code is free. -/
def codeOf (s : State) (c : ScanCfg) (slice : Nat) (r : Reading) (vexc : Nat) : Int × Bool :=
  let x := getSlice s slice
  let v := inputNv s c r
  let fs := scaleNv s c vexc
  if fs == 0 then ((Config.ratioAtZero (divRoundEven v.num v.den)).toInt, false)
  else
    let d := v.den * fs
    let n := v.num * (2 ^ (23 + x.pga) : Nat) + x.off.getD x.pga 0 * (d : Int)
    clipCode (divRoundEven (n * (10000000 + x.gain.getD x.pga 0)) (d * 10000000))

/-- The gain is set on the slices that convert an entry (Table 15-3 step 1). -/
def setGains (s : State) (g : Nat) : List Nat → State
  | [] => s
  | n :: ns => setGains (setSlice s n { getSlice s n with pga := g }) g ns

/-- An entry begins at turn T: its switches close after those of the entry that ended have opened, and the next one is chosen
(Table 15-3 step 1, R565). -/
def beginEntry (s : State) (l : Nat) (q : LSeq) (e T : Nat) : State :=
  let s := joinOverlap (openList s l) l q.pos e
  match scanCfg s e with
  | none => s
  | some c =>
    let s := setGains (closeConns s (entryConns s l c)) c.gain (listSlices s l)
    setList s l { cur := some e, lastTurn := T + entryTurns c, next := chooseNext s l e, pos := e,
                  delivered := q.delivered }

/-- The arbiter counts of the slice that serves a list (Table 5-10). -/
def listCount (s : State) (l : Nat) (f : Arb → Arb) : State :=
  match listSlice s l with
  | none => s
  | some n => modArb s (12 + n) f

/-- The freeze bit of the slice that serves a list (R197). -/
def listFrozen (s : State) (l : Nat) : Bool :=
  match listSlice s l with
  | none => false
  | some n => (getArb s (12 + n)).frozen

/-- A dead or idle turn: nothing converts until the next boundary, the crosspoint is open (R580). -/
def idleTurn (s : State) (l : Nat) (q : LSeq) (T : Nat) (dead wd : Bool) (next : Option Nat) : State :=
  let s := openList (if dead then listCount s l countDead else s) l
  setList s l { cur := none, lastTurn := T + 1, dead := dead, next := next, pos := q.pos, delivered := q.delivered,
                wd := wd }

/-- The entry that a boundary serves: the one chosen before, or after a dead turn whose choice was withdrawn one chosen afresh now
(R195, R580). -/
def choiceAt (s : State) (l : Nat) (q : LSeq) : Option Nat :=
  match q.next with
  | some e => some e
  | none => if q.dead then chooseNext s l q.pos else none

/-- The boundary at which nothing is in its turn any more: serve the choice, or a dead turn where it has been
withdrawn (R580), or an idle turn (R581); a frozen sequencer begins nothing (R197). -/
def serveNext (s : State) (l : Nat) (q : LSeq) (T : Nat) : State :=
  if listFrozen s l then idleTurn s l q T false false none
  else if q.wd then idleTurn s l q T true false none
  else
    match choiceAt s l q with
    | none => idleTurn s l q T false false (chooseNext s l q.pos)
    | some e =>
      if valueBlanked s e then idleTurn s l q T true false none
      else beginEntry (listCount s l countGrant) l q e T

/-! Samples and the overlap. -/

/-- Noise of Table 4-13 in units of 10 nV, for an ODR code and a gain exponent. -/
def noise10nV (odr gain : Nat) : Nat :=
  let row := if odr == 0 then 0 else if odr ≤ 2 then 1 else if odr ≤ 5 then 2 else if odr ≤ 8 then 3 else 4
  let col := if gain < 4 then 0 else if gain < 7 then 1 else 2
  ([[50, 8, 3], [100, 16, 6], [220, 36, 13], [630, 100, 38], [2000, 320, 120]].getD row []).getD col 0

/-- The comparison of R586 passes. -/
def comparePass (c : ScanCfg) (d : Nat) : Bool :=
  if c.cap then decide (d ≤ 8389)
  else decide (d ≤ 1678) || decide ((d - 1678) * 250000000 ≤ 6 * noise10nV c.odr c.gain * 2 ^ c.gain * 8388608)

/-- An entry is compared in the overlap; once every entry of the list is, the handover may take place (Table 15-6 step 3, R586). -/
def overlapEntry (s : State) (l : Nat) (c : ScanCfg) (code code2 : Int) : State :=
  match s.fe.overlap with
  | none => s
  | some o =>
    if (getSlice s o.out).list != l then s
    else
      let d := (code - code2).natAbs
      let o := if !o.joined || o.compared.contains c.value then o
        else { o with
          compared := c.value :: o.compared
          failed := o.failed || !comparePass c d
          worst := max o.worst d
          worstVal := if d > o.worst then c.value else o.worstVal }
      let all := (listEntries s l).all o.compared.contains
      { s with fe := { s.fe with overlap := some { o with ready := o.ready || (o.joined && all) } } }

/-- The condition of a source or of the reference stood in the window of the entry: it stands now, or has ended within it (R579). -/
def excInWindow (s : State) (c : ScanCfg) (q : LSeq) : Bool := q.exc || (c.exc != 15 && s.fe.excBad.contains c.exc)
def refInWindow (s : State) (q : LSeq) : Bool := q.ref || s.fe.refBad

/-- What the slice has measured of the entry's source, in MODE 2 and for a CAP entry, stands in FE_EXCe in mV. -/
def measured (s : State) (c : ScanCfg) (vexc : Nat) : State :=
  if c.cap || (entrySrc s c).any (fun x => x.mode == 2) then
    { s with fe := { s.fe with excMeas := tset 0 s.fe.excMeas c.exc (satTo 65535 (vexc / 1000)) } }
  else s

/-- The sample of an entry enters the CONV queue, or is lost at a full one (R579, R595). The pin monitors compare the lowest and
highest voltage of POS and NEG in the window, in µV, with 0.10 V and 4.00 V (Table 15-3 step 3); AMP_LO compares the measured
amplitude of a CAP entry with 90 % of the nominal 2.5 V (Table 15-1). -/
def emitSample (s : State) (l e : Nat) (c : ScanCfg) (q : LSeq) (code : Int) (ovr : Bool) (lo hi vexc : Nat) : State :=
  let slice := (listSlice s l).getD 7
  let x : Sample := {
    value := e
    slice := slice
    list := l
    code := code
    ovr := ovr
    pinLo := decide (lo < 100000)
    pinHi := decide (hi > 4000000) || drivenHigh s c (q.lastTurn - convTurns c.odr) (convTurns c.odr)
    exc := excInWindow s c q
    ref := refInWindow s q
    ampLo := c.cap && decide (vexc < 2250000)
    endT := q.lastTurn % 2 ^ 32 }
  let s := measured s c vexc
  if s.fe.conv.length < 256 then { s with fe := { s.fe with conv := s.fe.conv ++ [x] } } else islOverflow s 6 0

/-- The entry in its turn ends: its sample, and in an overlap the comparison of the two slices (Table 15-3 step 4). -/
def endEntry (s : State) (l e : Nat) (c : ScanCfg) (q : LSeq) (code code2 : Reading) (ovr : Bool) (lo hi vexc : Nat) : State :=
  let ns := listSlices s l
  let a := codeOf s c (ns.getD 0 7) code vexc
  let b := codeOf s c (ns.getD 1 7) code2 vexc
  overlapEntry (emitSample s l e c q a.1 (ovr || a.2) lo hi vexc) l c a.1 b.1

/-- SLICE_TURN_BOUNDARY (R578): list `l` at a turn boundary: what its slice and, in an overlap, the incoming one have seen in the
window, modulator overrange, the pin monitors' extremes, and the excitation that the slice has measured. -/
def execSliceTurnBoundary (l : Nat) (code code2 : Reading) (ovr : Bool) (lo hi vexc : Nat) (s : State) : Res :=
  match listSlice s l with
  | none => .next s
  | some n =>
    if !convOn s || (getSlice s n).calKind.isSome then .next s
    else
      let q := getList s l
      let T := turnNow s
      match q.cur with
      | none => if T < q.lastTurn then .next s else fin (serveNext s l q T)
      | some e =>
        if q.aborted then fin (idleTurn s l q T true q.wd q.next)
        else if T < q.lastTurn then .next s
        else
          match scanCfg s e with
          | none => fin (serveNext s l q T)
          | some c => fin (serveNext (endEntry s l e c q code code2 ovr lo hi vexc) l { q with delivered := true } T)

/-- A fault of sources or of the reference ends: the entries whose windows run keep the flag for their samples (R579). -/
def keepFlags (s : State) (src : Bool) : List Nat → State
  | [] => s
  | l :: ls =>
    let q := getList s l
    let s := match q.cur.bind (scanCfg s) with
      | none => s
      | some c =>
        if turnNow s + convTurns c.odr < q.lastTurn then s
        else if src then setList s l { q with exc := excInWindow s c q }
        else setList s l { q with ref := refInWindow s q }
    keepFlags s src ls

/-! Calibration and rotation. -/

/-- The entry of a list that is kept for the calibration history (R588). -/
def calEntry (s : State) (w : Word) : State := { s with nvm := { s.nvm with calWait := s.nvm.calWait ++ [w] } }

/-- The largest change by magnitude, the first on a tie, with its index. -/
def largest (ds : List Int) : Nat × Int :=
  ((rangeFrom 0 ds.length).foldl (fun (b : Nat × Int) k =>
    let d := ds.getD k 0
    if absI d > absI b.2 then (k, d) else b) (0, 0))

/-- A signed number held to 16 bits. -/
def clamp16 (z : Int) : Int := max (-32768) (min 32767 z)

/-- Offset change of a gain in 0.01 µV referred to input. -/
def offUv (g : Nat) (d : Int) : Int := divRoundEven (d * 250000000) (8388608 * 2 ^ g)

/-- The history entry of a calibration (Table 15-7). -/
def calWord (slice kind : Nat) (dOff dGain : List Int) : Word :=
  let o := largest ((rangeFrom 0 8).map (fun g => offUv g (dOff.getD g 0)))
  let gn := largest dGain
  packW [(39, 37, slice), (36, 35, kind), (34, 32, o.1), (31, 16, unsignedOf 16 (clamp16 o.2)),
    (15, 0, unsignedOf 16 (clamp16 gn.2))]

/-- Retire a slice at runtime (R494, R583, R603): repair-map entry, SLICE_LOST, the spare takes its list. An overlap in progress ends,
and its outgoing slice stays in service. -/
def retireSlice (s : State) (n : Nat) : State :=
  let s := rerunDue s
  let x := getSlice s n
  let spare := (rangeFrom 0 6).find? (fun k => k != n && (let y := getSlice s k; y.st == 1 || y.st == 2 || y.st == 3))
  let s := mapStore { s with prf := { s.prf with retired := n :: s.prf.retired } } (mapEntry 6 n)
  let s := openSlices s (n :: (s.fe.overlap.map (·.inc)).toList)
  let s := setSlice s n { st := 5, cals := x.cals, calAt := x.calAt, off := x.off, gain := x.gain }
  let s := match s.fe.overlap with
    | none => s
    | some o =>
      let s := { s with fe := { s.fe with overlap := none } }
      if o.out == n then s else setSlice s o.out { getSlice s o.out with st := 0 }
  let s := match spare with
    | none => s
    | some k =>
      if x.list < 5 then
        let s := setSlice s k { getSlice s k with st := 0, list := x.list, calKind := none }
        let q := getList s x.list
        setList s x.list (if q.cur.isSome then { q with aborted := true } else q)
      else s
  let s := { s with fe := { s.fe with rotOn := false, suspended := true } }
  raiseU (raiseU s 0x2E (pw (retiredMask s))) 0x2F (pw 0x0A)

/-- Every start calibration has ended: the rotation timer runs (R584). -/
def rotationStart (s : State) : State :=
  if s.fe.slices.all (fun x => x.calKind != some 0) && !s.fe.rotOn && !s.fe.suspended then
    { s with fe := { s.fe with rotOn := true, rotAt := s.now } }
  else s

/-- A spare whose calibration has ended is ready; another slice keeps its role. -/
def calEnded (x : SliceSt) : Nat := if x.st == 1 then 2 else x.st

/-- VREF_FAULT holds, or has held while the slice calibrated (R602). -/
def calSpoilt (s : State) (n : Nat) : Bool := s.fe.refBad || (getSlice s n).calBad

/-- A calibration made while VREF_FAULT holds is discarded: the slice keeps its corrections (R602). -/
def calDiscard (s : State) (n : Nat) : State :=
  let x := getSlice s n
  setSlice s n { x with calKind := none, calBad := false, st := calEnded x }

/-- The calibrations in progress are spoilt (R602). -/
def calsSpoil (s : State) : State :=
  { s with fe := { s.fe with slices := s.fe.slices.map (fun x => { x with calBad := x.calKind.isSome }) } }

/-- A calibration that ends within its limits: corrections apply, history entry, state. -/
def calApply (s : State) (n kind : Nat) (offs gains : List Int) : State :=
  let x := getSlice s n
  let st := calEnded x
  let dOff := (rangeFrom 0 8).map (fun g => offs.getD g 0 - x.off.getD g 0)
  let dGain := (rangeFrom 0 8).map (fun g => gains.getD g 0 - x.gain.getD g 0)
  let y : SliceSt := {
    st := st
    list := x.list
    calAt := some s.now
    cals := (x.cals + 1) % 65536
    off := (rangeFrom 0 8).map (fun g => offs.getD g 0)
    gain := (rangeFrom 0 8).map (fun g => gains.getD g 0)
    calKind := none }
  calEntry (setSlice s n y) (calWord n kind dOff dGain)

/-- CALIBRATION_END (R582, R583): the calibration in progress on a slice ends with its corrections and the measurements that
Table 12-3 limits. -/
def execCalibrationEnd (n : Nat) (offs gains : List Int) (ref : SliceRef) (s : State) : Res :=
  match (getSlice s n).calKind with
  | none => .next s
  | some kind =>
    if !convOn s then .next s
    else if calSpoilt s n then fin (rotationStart (calDiscard s n))
    else if refOk ref then fin (rotationStart (calApply s n kind offs gains))
    else fin (rotationStart (retireSlice s n))

/-- The active slice whose last calibration is oldest, the lowest on a tie. -/
def outgoing (s : State) : Option Nat :=
  ((rangeFrom 0 6).filter (fun n => (getSlice s n).st == 0)).foldl (fun b n =>
    match b with
    | none => some n
    | some m => if (getSlice s n).calAt.getD 0 < (getSlice s m).calAt.getD 0 then some n else some m) none

/-- ROTATION_FIRING (R584, R597): the timer fires; during an overlap or while the spare calibrates it is dropped. -/
def execRotationFiring (s : State) : Res :=
  let due := s.fe.rotAt + s.plt.plate.rotateS * 1000000
  if !convOn s || !s.fe.rotOn || s.plt.plate.rotateS == 0 || s.now < due then .next s
  else
    let s := { s with fe := { s.fe with rotAt := due } }
    match s.fe.overlap, (rangeFrom 0 6).find? (fun n => (getSlice s n).st == 2), outgoing s with
    | none, some i, some o =>
      let s := setSlice (setSlice s o { getSlice s o with st := 4 }) i { getSlice s i with st := 3 }
      fin { s with fe := { s.fe with overlap := some { out := o, inc := i } } }
    | _, _, _ => .next s

/-- A list stands at an entry boundary: nothing converts, or the first turn of an entry has just begun. -/
def atBoundary (s : State) (l : Nat) : Bool :=
  let q := getList s l
  match q.cur with
  | none => true
  | some e => decide (turnNow s + ((scanCfg s e).map entryTurns).getD 0 = q.lastTurn)

/-- The switches of a list stand as its slices now hold them. -/
def reconnect (s : State) (l : Nat) : State :=
  let s := openList s l
  match (getList s l).cur.bind (scanCfg s) with
  | none => s
  | some c => closeConns s (entryConns s l c)

/-- ROTATION_HANDOVER (R585 to R588): at an entry boundary the incoming slice takes the list. -/
def execRotationHandover (s : State) : Res :=
  match s.fe.overlap with
  | none => .next s
  | some o =>
    if !o.ready || !atBoundary s (getSlice s o.out).list then .next s
    else
      let x := getSlice s o.out
      let es := listEntries s x.list
      let missed := (es.filter (fun e => !o.compared.contains e)).length
      let w := packW [(39, 37, o.inc), (36, 35, 2), (34, 32, o.out), (31, 16, satTo 65535 o.worst),
        (15, 8, satTo 255 o.compared.length), (7, 0, satTo 255 missed)]
      let s := setSlice (openSlice s o.out) o.inc { getSlice s o.inc with st := 0, list := x.list }
      let s := setSlice s o.out { x with st := 1, list := 7, calKind := some 1, calBad := false }
      let f := { s.fe with overlap := none, handovers := (s.fe.handovers + 1) % 65536 }
      let s := calEntry (reconnect { s with fe := { f with lastOut := o.out, lastIn := o.inc, drift := o.failed } } x.list) w
      if o.failed then
        fin (raiseU s 0x2D (packW [(2, 0, o.out), (5, 3, o.inc), (17, 6, o.worstVal), (39, 18, satTo 4194303 o.worst)]))
      else fin (causeOff s 0x2D)

/-- MODULATOR_STALL (R603), and the handshake timeout of a slice, which no port of the spine names (DESIGN CHOICE, assumption 48). -/
def execModulatorStall (n : Nat) (s : State) : Res :=
  let st := (getSlice s n).st
  let step8 := !s.rst.held && !s.flt.fatal && s.start.state == .starting && s.start.step == 8
  if (convOn s || step8) && n < 6 && st != 5 then fin (retireSlice s n) else .next s

/-! Blanking commands. -/

/-- BLANK_TRIGGER_ASSERT (R589): trigger `k` in the order of BLANK_MASK bits 20 to 26. -/
def execBlankTriggerAssert (k : Nat) (s : State) : Res :=
  if s.rst.held || k ≥ 7 || (decide (k < 4) && !ballHeard s (.blank k)) then .next s
  else if convOn s then fin (trigAssert s k) else .next (trigAssert s k)

/-- BLANK_TRIGGER_END (R589): the ball is low again, or the internal trigger's time has ended. -/
def execBlankTriggerEnd (k : Nat) (s : State) : Res :=
  if k ≥ 7 || (k ≥ 4 && decide (s.now < s.fe.trigEnd.getD k 0)) then .next s
  else .next { s with fe := { s.fe with trig := listSet s.fe.trig k false } }

/-- BLANK_LIMIT (R591): the blanking time exceeds BLANK_MS. -/
def execBlankLimit (i : Nat) (s : State) : Res :=
  match scanCfg s i, tget none s.fe.blankSince i with
  | some c, some t =>
    if !convOn s || s.fe.blankStale.contains i || decide (s.now - t ≤ c.blankMs * 1000) then .next s
    else
      let q := (getVal s i).q
      let s := if q == .blanked || q == .disagree || q == .good then setQuality s i .stale else s
      fin (raiseU { s with fe := { s.fe with blankStale := i :: s.fe.blankStale } } 0x2C (pw i))
  | _, _ => .next s

/-! Sources and reference. -/

/-- EXC_FAULT (R601): source `e` is out of compliance; `meas` is its measured excitation. -/
def execExcFault (e meas : Nat) (s : State) : Res :=
  if !convOn s || e ≥ 8 then .next s
  else
    let bad := if s.fe.excBad.contains e then s.fe.excBad else e :: s.fe.excBad
    let f := { s.fe with excBad := bad, excMeas := tset 0 s.fe.excMeas e (satTo 65535 meas) }
    fin (if s.fe.excBad.contains e then { s with fe := f } else raiseU { s with fe := f } 0x30 (pw e))

/-- VREF_FAULT (R602). -/
def execVrefFault (s : State) : Res :=
  if s.rst.held || s.fe.refBad then .next s
  else fin (causeOn { s with fe := { s.fe with refBad := true } } 0x31 (pw 0x0A))

/-! Start of the front end (R584, R605, R604). -/

/-- The slices take their roles: with six in service the highest is the spare, the others serve the lists in
ascending order. -/
def sliceRoles (s : State) : List SliceSt :=
  let sv := slicesIn s
  let spare := if sv.length == 6 then some 5 else none
  let act := sv.filter (fun n => spare != some n)
  (rangeFrom 0 6).map (fun n =>
    if spare == some n then { st := 1, calKind := some 0 }
    else match act.findIdx? (· == n) with
      | none => { st := 5 }
      | some k => { st := 0, list := if k < 5 then k else 7, calKind := some 0 })

/-- Sequencers restart at the first entry of their lists that requests; entries of a trigger that is asserted are blanked. -/
def listsStart (s : State) : State :=
  let s := blankEntries s (s.plt.plate.scans.filter (entryBlanked s))
  let f := s.fe
  let ls := (rangeFrom 0 s.adm.lists.length).foldl (fun (t : Tab LSeq) l =>
    tset {} t l { next := (listEntries s l).find? (fun e => !valueBlanked s e) }) []
  { s with fe := { f with lists := ls, overlap := none, rotOn := false } }

/-- The grid starts at step 9 with a start calibration on every slice in service. -/
def feStart (s : State) : State :=
  listsStart { s with fe := { s.fe with
    grid := true
    conns := sourceConns s.plt.plate
    gridAt := s.now
    slices := sliceRoles s
    suspended := decide ((slicesIn s).length < 6) } }

/-- The grid restarts after a reset flush of CONV (R604): an overlap ends, every slice calibrates. -/
def feRestart (s : State) : State :=
  let slices := s.fe.slices.map (fun (x : SliceSt) =>
    if x.st == 5 then x
    else { x with calKind := some 0, calBad := false, st := if x.st == 4 then 0 else if x.st == 2 || x.st == 3 then 1 else x.st })
  listsStart { s with fe := { s.fe with
    grid := true, gridAt := s.now, conv := [], slices := slices, conns := sourceConns s.plt.plate } }

end Sys2Proof.Machine
end

