-- ==== Sys2Proof/Machine/Mesh.lean ====
section
/-! DEFINITION. The mesh (chapter 05): link directions and the router ports at their ends (Tables 5-2, 5-8), lanes and
steering (R171, R174), and the routes between ports (R176 to R181). Ports are numbered 0 to 33 as Table 5-2 numbers the edge
ports, a tile's local port 64 plus its physical number. -/

namespace Sys2Proof.Machine

open Sys2Proof

/-! Link directions (Table 5-8). -/

/-- A link direction by its offset in SPN_LINK, or 256 plus its offset in SPN_EDGE. -/
def linkExists (d : Nat) : Bool := decide (d ≤ 253) || decide (256 ≤ d ∧ d ≤ 323)

/-- The arbiter of output port p of router (x, y): 0 local, 1 north, 2 south, 3 east, 4 west. -/
def portKey (x y p : Nat) : Nat := 256 + 5 * (9 * y + x) + p

/-- The router output ports at both ends of a link; an edge link has one (Table 5-2). -/
def linkPorts (d : Nat) : List Nat :=
  if d < 128 then
    let k := d / 2
    [portKey (k % 8) (k / 8) 3, portKey (k % 8 + 1) (k / 8) 4]
  else if d < 256 then
    let k := d / 2 - 64
    [portKey (k % 9) (k / 9) 1, portKey (k % 9) (k / 9 + 1) 2]
  else
    let e := (d - 256) / 2
    if e < 9 then [portKey e 0 2]
    else if e < 17 then [portKey 8 (e - 9) 3]
    else if e < 26 then [portKey (e - 17) 7 1]
    else [portKey 0 (e - 26) 4]

/-- The router port that drives a link direction, and the one that it feeds; direction 0 leads to the higher coordinate, or
into the mesh. -/
def linkEnds (d : Nat) : Option Nat × Option Nat :=
  match linkPorts d with
  | [a, b] => if d % 2 == 0 then (some a, some b) else (some b, some a)
  | [a] => if d % 2 == 0 then (none, some a) else (some a, none)
  | _ => (none, none)

/-! Lanes (R171, R174). -/

/-- The bit of the codeword that a lane carries: 0 to 39 data, 40 to 47 check bits. A steered lane carries none, each lane above
it carries the bit of the lane below, and the spare lanes 48 and 49 carry bits only where the shift reaches them. -/
def laneBit (x : Link) (lane : Nat) : Option Nat :=
  let k := lane - (b2n (decide (x.bad0 < lane)) + b2n (decide (x.bad1 < lane)))
  if lane < 50 && lane != x.bad0 && lane != x.bad1 && k < 48 then some k else none

/-- Lanes that carry bits. -/
def carries (x : Link) (lane : Nat) : Bool := (laneBit x lane).isSome

/-! Ports. -/

/-- Assigned edge ports (Table 5-2), and the keeper tiles' among them. -/
def assignedEdges : List Nat := rangeFrom 0 21 ++ rangeFrom 26 8

/-- A port to which packets are routed (R176). -/
def portExists (p : Nat) : Bool := assignedEdges.contains p || decide (64 ≤ p ∧ p < 136)

/-- The router of an edge port. -/
def edgeRouter (e : Nat) : Nat :=
  if e < 9 then e else if e < 17 then 9 * (e - 9) + 8 else if e < 26 then 63 + (e - 17) else 9 * (e - 26)

/-- The router of a port. -/
def portRouter (p : Nat) : Nat := if p < 64 then edgeRouter p else p - 64

/-- The output port of a router that leads to an unassigned edge port (R176). -/
def unassigned (n : Nat) : Bool := (rangeFrom 21 5).any (fun e => linkPorts (256 + 2 * e) == [n])

/-! Routes (R179 to R181). -/

/-- The link direction from a router towards 1 north, 2 south, 3 east, 4 west, and the router there. -/
def hop (r dir : Nat) : Option (Nat × Nat) :=
  let x := r % 9
  let y := r / 9
  match dir with
  | 1 => if y < 7 then some (2 * (64 + 9 * y + x), r + 9) else none
  | 2 => if y > 0 then some (2 * (64 + 9 * (y - 1) + x) + 1, r - 9) else none
  | 3 => if x < 8 then some (2 * (8 * y + x), r + 1) else none
  | _ => if x > 0 then some (2 * (8 * y + x - 1) + 1, r - 1) else none

/-- The links of the column-first route between two routers: along the row, then along the column (R179); the first argument
bounds it. -/
def columnFirst : Nat → Nat → Nat → List Nat
  | 0, _, _ => []
  | k + 1, r, q =>
    let dir := if r % 9 < q % 9 then 3 else if r % 9 > q % 9 then 4 else if r / 9 < q / 9 then 1 else 2
    if r == q then []
    else match hop r dir with
      | none => []
      | some (l, t) => l :: columnFirst k t q

/-- The next places of a route: router, and whether the route may still go west (R179). -/
def steps (dead : List Nat) (p : Nat × Bool) : List (Nat × Nat × Bool) :=
  ([1, 2, 3, 4].filter (fun d => d != 4 || p.2)).filterMap (fun d =>
    match hop p.1 d with
    | none => none
    | some (l, r) => if dead.contains l then none else some (l, r, d == 4))

/-- Places reached from a router, each with the links of a shortest route to it, newest first; the first argument bounds its
length. `front` are the places reached last. -/
def spread (dead : List Nat) : Nat → List (Nat × Bool × List Nat) → List (Nat × Bool × List Nat) → List (Nat × Bool × List Nat)
  | 0, _, seen => seen
  | k + 1, front, seen =>
    let next := front.flatMap (fun p => (steps dead (p.1, p.2.1)).map (fun q => (q.2.1, q.2.2, q.1 :: p.2.2)))
    let fresh := next.foldl (fun (a : List (Nat × Bool × List Nat)) q =>
      if (seen ++ a).any (fun x => x.1 == q.1 && x.2.1 == q.2.1) then a else a ++ [q]) []
    if fresh.isEmpty then seen else spread dead k fresh (seen ++ fresh)

/-- Routers reached from a router by k links at most, each with a route. -/
def reach (dead : List Nat) (r k : Nat) : List (Nat × List Nat) :=
  (spread dead k [(r, true, [])] [(r, true, [])]).map (fun p => (p.1, p.2.2.reverse))

/-- The first of the shortest routes to a router. -/
def routeTo (rs : List (Nat × List Nat)) (r : Nat) : Option (List Nat) := (rs.find? (·.1 == r)).map (·.2)

/-- The edge links at the ends of a route between two ports. -/
def linkIn (a : Nat) : List Nat := if a < 64 then [256 + 2 * a] else []
def linkOut (b : Nat) : List Nat := if b < 64 then [256 + 2 * b + 1] else []

/-- Links that a route may have between its routers: 25 less its edge links (R181). -/
def hopsFor (a b : Nat) : Nat := 25 - (linkIn a ++ linkOut b).length

/-- The route between two ports that tables built around the dead link directions give: column-first where no link of it is
dead, else the first shortest one under the turn rule (DESIGN CHOICE among the detours, assumption 48). -/
def tableRoute (dead : List Nat) (a b : Nat) : Option (List Nat) :=
  let r := portRouter a
  let q := portRouter b
  let plain := linkIn a ++ columnFirst 16 r q ++ linkOut b
  if plain.all (fun l => !dead.contains l) then some plain
  else if (linkIn a ++ linkOut b).any (fun l => dead.contains l) then none
  else (routeTo (reach dead r (hopsFor a b)) q).map (fun p => linkIn a ++ p ++ linkOut b)

/-- The fixed route of all packets from one port to another (R180): before the proof has loaded the tables, column-first
(R212). -/
def routeOf (f : Spn) (a b : Nat) : Option (List Nat) :=
  if !portExists a || !portExists b || a == b then none
  else match f.tables with
    | none => some (linkIn a ++ columnFirst 16 (portRouter a) (portRouter b) ++ linkOut b)
    | some dead => tableRoute dead a b

/-- The links that the routes from a port have, by the port they lead to: none where nothing joins the two. -/
def routeLengths (dead : List Nat) (a : Nat) (bs : List Nat) : List (Option Nat) :=
  let rs := reach dead (portRouter a) (25 - (linkIn a).length)
  (bs.filter (· != a)).map (fun b =>
    if (linkIn a ++ linkOut b).any (fun l => dead.contains l) then none
    else match routeTo rs (portRouter b) with
      | none => none
      | some p => if p.length ≤ hopsFor a b then some (p.length + (linkIn a ++ linkOut b).length) else none)

/-- A cut spine (R213): two assigned edge ports that no route joins. -/
def spineCut (dead : List Nat) : Bool :=
  !dead.isEmpty && assignedEdges.any (fun a => (routeLengths dead a assignedEdges).any (·.isNone))

/-- The longest route in the tables, those of the tiles' local ports among them (R181): 17 links while no link is dead. -/
def longestRoute (dead : List Nat) : Nat :=
  if dead.isEmpty then 17
  else
    let ports := assignedEdges ++ rangeFrom 64 72
    (ports.flatMap (fun a => (routeLengths dead a ports).filterMap id)).foldl max 0

/-- Tiles whose router cannot reach, or be reached from, every assigned edge port (R213). -/
def cutTiles (dead : List Nat) : List Nat :=
  if dead.isEmpty then []
  else
    let froms := assignedEdges.map (fun e => routeLengths dead e (rangeFrom 64 72))
    (rangeFrom 0 72).filter (fun p =>
      (routeLengths dead (64 + p) assignedEdges).any (·.isNone) ||
        froms.any (fun ls => (ls.getD p none).isNone))

/-! Packets (R177). -/

/-- The payload lengths of the packets in which a unit moves n words: 16 words each, and the rest. -/
def packetLens (n : Nat) : List Nat := List.replicate (n / 16) 16 ++ (if n % 16 == 0 then [] else [n % 16])

/-- The header word of a packet: destination port, source port, payload length less one, background (its layout: DESIGN
CHOICE, assumption 12). -/
def headerWord (c : Cross) : Word := packW [(7, 0, c.dst), (15, 8, c.src), (19, 16, c.len - 1), (20, 20, b2n c.back)]

/-- The router of a speed monitor (R182). -/
def monRouter (m : Nat) : Nat := 9 * (m / 2) + (if m % 2 == 0 then 1 else 7)

end Sys2Proof.Machine
end

