-- ==== Sys2Proof/Machine/Fns.lean ====
section
/-! DEFINITION. The natural logarithm, the exponential and the power of F40 (R804): the exact result is computed
to 128 fractional bits, and which of the results within 4 units of its 32nd bit the hardware gives is left open
(Config.fnUnits). -/

namespace Sys2Proof.Machine

open Sys2Proof

/-- Fixed point of the function computations: 2^128. -/
def fxOne : Int := 2 ^ 128

/-- Sum of the odd-power series of atanh: z + z^3/3 + …, in fixed point. -/
def atanhSer (z2 : Int) : Nat → Nat → Int → Int → Int
  | 0, _, _, acc => acc
  | f + 1, k, p, acc => atanhSer z2 f (k + 2) (p * z2 / fxOne) (acc + p / (k : Int))

/-- 2 × atanh(z) in fixed point, for z between 0 and 1/3. -/
def lnOfRatio (z : Int) : Int := 2 * atanhSer (z * z / fxOne) 44 1 z 0

/-- The natural logarithm of 2 in fixed point. -/
def ln2Fx : Int := lnOfRatio (fxOne / 3)

/-- The natural logarithm, in fixed point, of the positive F40 word `w`. -/
def lnFx (w : Word) : Int :=
  let m : Int := ((2 ^ 31 + fFrac w : Nat) : Int) * 2 ^ 97
  lnOfRatio ((m - fxOne) * fxOne / (m + fxOne)) + ((fExp w : Int) - 127) * ln2Fx

/-- Taylor sum of the exponential, in fixed point. -/
def expSer (r : Int) : Nat → Nat → Int → Int → Int
  | 0, _, _, acc => acc
  | f + 1, k, t, acc => expSer r f (k + 1) (t * r / fxOne / (k : Int)) (acc + t)

/-- The exponential of a fixed-point number as a fraction; saturated and vanishing arguments answer a value
beyond the F40 range. -/
def expFrac (x : Int) : Frac :=
  if x > 100 * fxOne then ⟨2 ^ 140, 1⟩
  else if x < -100 * fxOne then ⟨1, 2 ^ 140⟩
  else
    let k := x / ln2Fx
    let r := x - k * ln2Fx
    let e := expSer r 40 1 fxOne 0
    if k ≥ 0 then ⟨e * 2 ^ k.toNat, 2 ^ 128⟩ else ⟨e, 2 ^ (128 + (-k).toNat)⟩

/-- The result of an F40 function: one of the multiples of the 32nd significant bit's unit that lie within
4 units of the exact result, chosen by Config.fnUnits (R804). -/
def openRound (fn : Nat) (a b : Word) (x : Frac) : FRes :=
  let r := (fRound x).word
  let e := fExp r
  if e == 0 then ⟨0#40, false⟩
  else
    -- x in units of 2^(e - 158)
    let n : Int := if e ≥ 158 then x.num else x.num * 2 ^ (158 - e)
    let d : Nat := if e ≥ 158 then x.den * 2 ^ (e - 158) else x.den
    let lo := -((-(n - 4 * (d : Int))) / (d : Int))
    let hi := (n + 4 * (d : Int)) / (d : Int)
    let m := lo + ((Config.fnUnits fn a b % ((hi - lo).toNat + 1) : Nat) : Int)
    fRound (if e ≥ 158 then ⟨m * 2 ^ (e - 158), 1⟩ else ⟨m, 2 ^ (158 - e)⟩)

/-- ln of an F40 word; none for a domain failure (R804). -/
def fLn (w : Word) : Option FRes :=
  if fSign w || fExp w == 0 then none else some (openRound 0 w 0#40 ⟨lnFx w, 2 ^ 128⟩)

/-- exp of an F40 word. -/
def fExpo (w : Word) : FRes :=
  let v := fVal w
  openRound 1 w 0#40 (expFrac (v.num * fxOne / (v.den : Int)))

/-- x to the power y; none for a domain failure (R804). -/
def fPow (x y : Word) : Option FRes :=
  if fSign x || fExp x == 0 then none
  else
    let v := fVal y
    some (openRound 2 x y (expFrac (lnFx x * v.num / (v.den : Int))))

end Sys2Proof.Machine
end

