-- ==== Sys2Proof/Machine/Grain.lean ====
section
/-! DEFINITION. The drying and storage blocks of chapter 21. Cells, rates and filters are held in F40; each
formula is computed from F40 operands and rounded once (R769). -/

namespace Sys2Proof.Machine

open Sys2Proof

/-- Collected saturations of F40 results, kept while a procedure runs. -/
abbrev Sats := List Word

def fq (z : Int) : Word := (qToF z).word
/-- A constant n / d as an F40 word. -/
def fc (n : Int) (d : Nat) : Word := (fRound ⟨n, d⟩).word

/-- A run whose outputs keep their last value words with quality FAULT. -/
def faultOuts (e : BEnv) (st : BSt) (no : Nat) : BRes :=
  ⟨st, (rangeFrom 0 no).map (fun k => some ⟨e.lastOut k, .fault⟩), [], none, none, none⟩

/-! EMC (R806). -/

def emcMd (e : BEnv) (t rh : Int) : Option (FRes × Sats) :=
  let a := e.pw 1
  let b := e.pw 2
  let h0 : Frac := frMul (frQ rh) ⟨1, 100⟩
  let h := if frLt h0 ⟨5, 1000⟩ then ⟨5, 1000⟩ else if frLt ⟨995, 1000⟩ h0 then ⟨995, 1000⟩ else h0
  let th := fRound (frAdd (frQ t) (fVal (e.pw 3)))
  if fSign th.word || fExp th.word == 0 then none
  else if e.pn 0 0 0 == 0 then
    match fLn (fRound (frSub (frInt 1) h)).word with
    | none => none
    | some l =>
      let x := fRound (frDiv (fVal l.word) (frNeg (frMul (fVal a) (fVal th.word))))
      match fPow x.word (fRound (frDiv (frInt 1) (fVal b))).word with
      | none => none
      | some r => some (r, satF x ++ satF r)
  else
    match fLn (fRound h).word with
    | none => none
    | some l =>
      let x := fRound (frDiv (frNeg (frMul (fVal th.word) (fVal l.word))) (fVal a))
      match fLn x.word with
      | none => none
      | some r => let y := fRound (frNeg (frDiv (fVal r.word) (fVal b))); some (y, satF x ++ satF y)

def runEmc (e : BEnv) (xs : List (Option BIn)) : BRes :=
  match emcMd e (inAt xs 0).v (inAt xs 1).v with
  | none => faultOuts e .none 1
  | some (md, s) =>
    let v := fVal md.word
    if v.num ≤ 0 then { faultOuts e .none 1 with sats := s }
    else
      let m := qRound (frMul (frDiv (frMul (frInt 100) v) (frAdd (frInt 100) v)) (frInt qOne))
      ⟨.none, [some ⟨m.val, insQ xs⟩], s ++ satQ m, none, none, none⟩

/-! PSY (R807). -/

/-- ps(x) in Pa. -/
def psyPs (x : Int) : Word × Sats :=
  let f := frQ x
  let a := fRound (frDiv (frMul ⟨17625, 1000⟩ f) (frAdd f ⟨24304, 100⟩))
  let ex := fExpo a.word
  let y := fRound (frMul ⟨61094, 100⟩ (fVal ex.word))
  (y.word, satF a ++ satF ex ++ satF y)

def runPsy (e : BEnv) (xs : List (Option BIn)) : BRes :=
  let t := (inAt xs 0).v
  let rh := (inAt xs 1).v
  let p : Frac := match inOpt xs 2 with | some x => frQ x.v | none => frInt 101325
  let out := fun z : Int => decide (z < -40 * qOne ∨ z > 150 * qOne)
  let t2 := inOpt xs 3
  let ps := psyPs t
  let pr := fRound (frMul (frMul (frQ rh) ⟨1, 100⟩) (fVal ps.1))
  let pv := pr.word
  if out t || (match t2 with | some x => out x.v | none => false) || rh ≤ 0 || !frLt (fVal pv) p then
    faultOuts e .none 3
  else
    let pq := fRound (frDiv (fVal pv) ⟨61094, 100⟩)
    match fLn pq.word with
    | none => faultOuts e .none 3
    | some g =>
      let gv := fVal g.word
      let o0 := qRound (frMul (frDiv (frMul ⟨24304, 100⟩ gv) (frSub ⟨17625, 1000⟩ gv)) (frInt qOne))
      let o1 := qRound (frMul (frDiv (frMul ⟨621945, 10000⟩ (fVal pv)) (frSub p (fVal pv))) (frInt qOne))
      let q := insQ xs
      let o2 : List (Option BIn) × Sats := match t2 with
        | none => ([], [])
        | some x =>
          let p2 := psyPs x.v
          let r := qRound (frMul (frDiv (frMul (frInt 100) (fVal pv)) (fVal p2.1)) (frInt qOne))
          ([some ⟨min r.val (100 * qOne), q⟩], p2.2 ++ satQ r)
      ⟨.none, [some ⟨o0.val, q⟩, some ⟨o1.val, q⟩] ++ o2.1,
       ps.2 ++ satF pr ++ satF pq ++ satF g ++ satQ o0 ++ satQ o1 ++ o2.2, none, none, none⟩

/-! COLUMN (R808 to R812, R835). -/

/-- decay(m, me, k, t) = me + (m − me) × exp(−k × t / 3 600), t in seconds. -/
def decay (m me k : Word) (t : Frac) : Word × Sats :=
  let x := fRound (frNeg (frDiv (frMul (fVal k) t) (frInt 3600)))
  let ex := fExpo x.word
  let y := fRound (frAdd (fVal me) (frMul (frSub (fVal m) (fVal me)) (fVal ex.word)))
  (y.word, satF x ++ satF ex ++ satF y)

/-- The rate constant of a zone: k0 × exp(kT × (tz − Tref)). -/
def zoneK (p : List Word) (tz : Int) : Word × Sats :=
  let kt := p.getD 4 0#40
  let tref := qOf (p.getD 5 0#40)
  let x := fRound (frMul (fVal kt) (frQ (tz - tref)))
  let ex := fExpo x.word
  let y := fRound (frMul (fVal (p.getD 3 0#40)) (fVal ex.word))
  (y.word, satF x ++ satF ex ++ satF y)

/-- Cell mass in t, number of heating cells, column mass in t. -/
def colMc (p : List Word) : Frac :=
  frDiv (frMul (frQ (qOf (p.getD 0 0#40))) (frQ (qOf (p.getD 1 0#40)))) (frInt 64000)
def colNh (p : List Word) : Nat := (divRoundEven (64 * qOf (p.getD 2 0#40)) (100 * 1048576)).toNat

/-- An input for COLUMN: itself, or its last value that was not bad, or a start value (R811). -/
def colIn (x : BIn) (last : Option Int) (start : Int) : Int × Option Int :=
  if isBad x then (last.getD start, last) else (x.v, some x.v)

/-- Shift whole cells out while the accumulator holds one, at most `k` cells. -/
def colShift (mc : Word) (minIn : Word) (now : Nat) : Nat → List Word → Word → List (Word × Nat) →
    List Word × Word × List (Word × Nat)
  | 0, m, acc, ring => (m, acc, ring)
  | k + 1, m, acc, ring =>
    if frLe (fVal mc) (fVal acc) then
      colShift mc minIn now k (minIn :: m.take 63) (fSub acc mc).word
        (((m.getD 63 0#40, now) :: ring).take 256)
    else (m, acc, ring)

def runColumn (e : BEnv) (xs : List (Option BIn)) : BRes :=
  let minit := e.pv 9
  let tref := e.pv 5
  let c0 : ColSt := match e.st with
    | .column c => c
    | _ =>
      let b := match e.items.getD 0 none with | some w => w | none => 0#40
      let start := match inOpt xs 6 with
        | some x => if isUsable x then (fRound (frSub (frQ x.v) (fVal b))).word else fq minit
        | none => fq minit
      ⟨List.replicate 64 start, 0#40, [], b, List.replicate 5 none, 0, .stale⟩
  let (minV, l0) := colIn (inAt xs 1) (c0.lastIn.getD 0 none) minit
  let (eh, l1) := colIn (inAt xs 2) (c0.lastIn.getD 1 none) minit
  let (thz, l2) := colIn (inAt xs 3) (c0.lastIn.getD 2 none) tref
  let (ec, l3) := colIn (inAt xs 4) (c0.lastIn.getD 3 none) minit
  let (tcz, l4) := colIn (inAt xs 5) (c0.lastIn.getD 4 none) tref
  let nh := colNh e.p
  let kh := zoneK e.p thz
  let kc := zoneK e.p tcz
  let dt := dtFr e
  let cells := (rangeFrom 0 64).map (fun c =>
    let m := c0.m.getD c 0#40
    if c < nh then decay m (fq eh) kh.1 dt else decay m (fq ec) kc.1 dt)
  let m1 : List Word := cells.map (·.1)
  let q := inAt xs 0
  let qv : Int := if isBad q || q.v < 0 then 0 else q.v
  let acc1 := fRound (frAdd (fVal c0.acc) (frDiv (frMul (frQ qv) dt) (frInt 3600)))
  let (m2, acc2, ring) : List Word × Word × List (Word × Nat) := if isBad q then (m1, acc1.word, c0.ring)
    else colShift (fRound (colMc e.p)).word (fq minV) e.nowMs 64 m1 acc1.word c0.ring
  let delay := e.pv 6
  let (b, bs) : Word × Sats := match inOpt xs 6 with
    | none => (c0.b, [])
    | some mo =>
      if !isUsable mo then (c0.b, [])
      else
        match ring.find? (fun r => (r.2 : Int) * qOne + delay * 1000 ≤ (e.nowMs : Int) * qOne) with
        | none => (c0.b, [])
        | some r =>
          let b' := fRound (frAdd (fVal c0.b) (frMul (fVal (e.pw 7)) (frSub (frQ mo.v) (frAdd (fVal r.1) (fVal c0.b)))))
          (fLimit b'.word (fNegW (fq (e.pv 8))) (fq (e.pv 8)), satF b')
  let mp := qRound (frMul (frAdd (fVal (m2.getD 63 0#40)) (fVal b)) (frInt qOne))
  let tau := if q.v ≤ 0 then ⟨qMax, false⟩
    else qRound (frMul (frDiv (frMul ⟨36, 10⟩ (frMul (frQ (e.pv 0)) (frQ (e.pv 1)))) (frQ q.v)) (frInt qOne))
  let bq := fToQ b
  let ql := worstQ ((rangeFrom 0 6).map (fun k => (inAt xs k).q))
  ⟨.column ⟨m2, acc2, ring, b, [l0, l1, l2, l3, l4], mp.val, ql⟩,
   [some ⟨mp.val, ql⟩, some ⟨tau.val, ql⟩, some ⟨bq.val, ql⟩],
   kh.2 ++ kc.2 ++ cells.flatMap (·.2) ++ satF acc1 ++ bs ++ satQ mp ++ satQ tau ++ satQ bq, none, none, none⟩

/-! DISCH (R813, R814). -/

/-- Moisture at `x` cells above the outlet, interpolated between cell centres; the end cells beyond them. -/
def cellAt (m : List Word) (x : Frac) : Word × Sats :=
  let y := frSub x ⟨1, 2⟩
  if y.num ≤ 0 then (m.getD 63 0#40, [])
  else
    let k := (y.num / (y.den : Int)).toNat
    if k ≥ 63 then (m.getD 0 0#40, [])
    else
      let fr := frSub y (frInt (k : Int))
      let lo := fVal (m.getD (63 - k) 0#40)
      let hi := fVal (m.getD (62 - k) 0#40)
      let v := fRound (frAdd lo (frMul (frSub hi lo) fr))
      (v.word, satF v)

/-- Hours of travel of a mass at a rate as seconds, 0 for none: a rate of 0 gives the largest F40 magnitude, a saturation
(R271). -/
def travel (x rate : Frac) : FRes := if x.num ≤ 0 then ⟨0#40, false⟩ else fRound (frDiv (frMul (frInt 3600) x) rate)

/-- Cost of a candidate rate, and the saturations on the way. -/
def dischCost (e : BEnv) (c : ColSt) (cp : List Word) (cin : List (Option BIn)) (mt : Int) (qs q : Word) : Word × Sats :=
  let mc := colMc cp
  let mass := frMul (frInt 64) mc
  let nh := colNh cp
  let mcool := frMul (frInt ((64 - nh : Nat) : Int)) mc
  let mheat := frMul (frInt (nh : Int)) mc
  let pick := fun (k : Nat) (start : Int) => (colIn (inAt cin (k + 1)) (c.lastIn.getD k none) start).1
  let eh := pick 1 (qOf (cp.getD 9 0#40))
  let thz := pick 2 (qOf (cp.getD 5 0#40))
  let ec := pick 3 (qOf (cp.getD 9 0#40))
  let tcz := pick 4 (qOf (cp.getD 5 0#40))
  let minV := pick 0 (qOf (cp.getD 9 0#40))
  let qf := fVal q
  let div := if frLt (fVal qs) (frQ (e.pv 1)) then frQ (e.pv 1) else fVal qs
  let hr := travel mass div
  let own := decide (e.pv 6 > 0)
  let h : Frac := if own then frQ (e.pv 6) else fVal hr.word
  let sr := fRound (frSub (frDiv (frMul qf h) (frInt 3600)) (fVal c.acc))
  let s := fVal sr.word
  let (mg, th, tc) :=
    if frLt s mass then
      (cellAt c.m (frDiv s mc), travel (frSub s mcool) qf, if frLt mcool s then travel mcool qf else travel s qf)
    else ((fq minV, []), travel mheat qf, travel mcool qf)
  let kh := zoneK cp thz
  let kc := zoneK cp tcz
  let m1 := decay mg.1 (fq eh) kh.1 (fVal th.word)
  let m2 := decay m1.1 (fq ec) kc.1 (fVal tc.word)
  let d := frSub (frAdd (fVal m2.1) (fVal c.b)) (frQ mt)
  let u := frSub qf (fVal qs)
  let y := fRound (frAdd (frMul d d) (frMul (fVal (e.pw 4)) (frMul u u)))
  (y.word, (if own then [] else satF hr) ++ satF sr ++ mg.2 ++ satF th ++ satF tc ++ kh.2 ++ kc.2 ++ m1.2 ++ m2.2 ++ satF y)

/-- The best of the 17 candidates; the lower rate on a tie. -/
def dischBest (e : BEnv) (c : ColSt) (cp : List Word) (cin : List (Option BIn)) (mt : Int) (qs : Word) : Word × Sats :=
  let cand := (rangeFrom 0 17).map (fun (j : Nat) =>
    (fRound (frAdd (frQ (e.pv 1)) (frDiv (frMul (frInt (j : Int)) (frQ (e.pv 2 - e.pv 1))) (frInt 16)))).word)
  let costs := cand.map (fun q => (q, dischCost e c cp cin mt qs q))
  let best := costs.foldl (fun (best : Option (Word × Word × Sats)) x =>
    match best with
    | none => some x
    | some b => if frLt (fVal x.2.1) (fVal b.2.1) then some x else some b) none
  ((best.map (·.1)).getD 0#40, costs.flatMap (·.2.2))

def runDisch (e : BEnv) (xs : List (Option BIn)) : BRes :=
  let en := inAt xs 0
  let (qs0, en0) := match e.st with | .disch q b => (q, b) | _ => (0#40, false)
  let on := isTrue en
  let q := insQ xs
  if !on then ⟨.disch 0#40 false, [some ⟨0, q⟩, some ⟨0, q⟩, some ⟨0, q⟩], [], none, none, none⟩
  else
    let qmin := fq (e.pv 1)
    let qmax := fq (e.pv 2)
    let qs := if !en0 then qmin else qs0
    let mt := inAt xs 1
    let (target, ts) : Word × Sats := match e.col with
      | none => (fq (e.pv 5), [])
      | some (c, cp, cin) =>
        if c.mpq == .fault || c.mpq == .stale then (fq (e.pv 5), [])
        else if isBad mt then (qs, [])
        else dischBest e c cp cin mt.v qs
    let rmp := frDiv (frMul (frQ (e.pv 3)) (dtFr e)) (frInt 60)
    let d := frSub (fVal target) (fVal qs)
    let d := if frLt d (frNeg rmp) then frNeg rmp else if frLt rmp d then rmp else d
    let qs' := fLimit (fRound (frAdd (fVal qs) d)).word qmin qmax
    let o0 := fToQ qs'
    let o1 := qRound (frMul (frDiv (fVal qs') (frQ (e.pv 2))) (frInt (100 * qOne)))
    ⟨.disch qs' true, [some ⟨o0.val, q⟩, some ⟨o1.val, q⟩, some ⟨qOne, q⟩], ts ++ satQ o0 ++ satQ o1, none, none, none⟩

/-! BATCH and CFLOW (R815 to R817, R829). -/

/-- The stop flag and the level of run after reading input run. -/
def seqRun (s : SeqSt) (x : BIn) : Bool × Bool :=
  if isBad x then (s.stop, s.run)
  else
    let r := isTrue x
    (s.stop || (s.run && !r && s.step != 0), r)

/-- Move to a step, where one follows: timers restart, and IDLE clears the stop flag. A bad run keeps the step (R805). -/
def seqGo (s : SeqSt) (run : BIn) (next : Option Nat) (holdMs : Nat) : SeqSt :=
  match next with
  | none => { s with holdMs := holdMs }
  | some step =>
    if isBad run then { s with holdMs := holdMs }
    else { s with step := step, ms := 0, holdMs := 0, stop := if step == 0 then false else s.stop }

/-- Time a condition has held at every run, plus 1 ms from its first run on; 0 while it does not hold. -/
def seqHeld (s : SeqSt) (dt : Nat) (c : Bool) : Nat := if !c then 0 else if s.holdMs == 0 then 1 else s.holdMs + dt

def secMs (n : Nat) : Nat := n * 1000

def seqInit (e : BEnv) : SeqSt := match e.st with | .seq s => s | _ => ⟨0, 0, 0, false, false⟩

def runBatch (e : BEnv) (xs : List (Option BIn)) : BRes :=
  let s0 := seqInit e
  let (stop, run) := seqRun s0 (inAt xs 0)
  let s : SeqSt := { s0 with stop := stop, run := run, ms := s0.ms + e.dt }
  let ok := fun k => !isBad (inAt xs k)
  let full := ok 1 && isTrue (inAt xs 1)
  let empty := ok 2 && isTrue (inAt xs 2)
  let dry := ok 3 && decide ((inAt xs 3).v ≤ e.pv 0)
  let h := if s.step == 3 then seqHeld s e.dt dry else if s.step == 5 then seqHeld s e.dt empty else 0
  let next : Option Nat := match s.step with
    | 0 => if run then some 1 else none
    | 1 => if stop then some 0 else if full then some 2 else none
    | 2 => if stop then some 4 else if ok 5 && (inAt xs 5).v ≥ e.pv 1 then some 3 else none
    | 3 => if stop || (dry && h ≥ secMs (e.pn 4 15 0) + 1) then some 4 else none
    | 4 => if ok 4 && (inAt xs 4).v ≤ e.pv 2 then some (if stop then 0 else 5) else none
    | _ =>
      if stop then some 0
      else if empty && h ≥ 30001 then some (if e.pn 7 0 0 == 1 && run then 1 else 0)
      else none
  let s' : SeqSt := seqGo s (inAt xs 0) next h
  let st := s'.step
  let limit := [0, e.pn 4 35 16, e.pn 5 19 0, e.pn 5 39 20, e.pn 6 19 0, e.pn 6 39 20].getD st 0
  let past := st != 0 && s'.ms > secMs limit
  let phase : Nat := match st with | 0 => 0 | 1 => 1 | 4 => if s'.stop then 3 else 2 | _ => 2
  let q := insQ xs
  let bo := fun b => some (BIn.mk (qBool b) q)
  let fan := st == 2 || st == 3 || st == 4
  ⟨.seq s', [some ⟨(phase : Int) * qOne, q⟩, some ⟨(st : Int) * qOne, q⟩, bo (st == 1), bo (st == 2 || st == 3),
     some ⟨if fan then e.pv 3 else 0, q⟩, bo (st == 5), bo past], [], none, none, none⟩

def runCflow (e : BEnv) (xs : List (Option BIn)) : BRes :=
  let s0 := seqInit e
  let (stop, run) := seqRun s0 (inAt xs 0)
  let s : SeqSt := { s0 with stop := stop, run := run, ms := s0.ms + e.dt }
  let full := isTrue (inAt xs 1)
  let warm := decide ((inAt xs 2).v ≥ e.pv 0)
  let h := if s.step == 2 then seqHeld s e.dt warm else 0
  let next : Option Nat := match s.step with
    | 0 => if run then some 1 else none
    | 1 => if stop then some 0 else if full then some 2 else none
    | 2 => if stop then some 4 else if warm && h ≥ secMs (e.pn 2 19 0) + 1 then some 3 else none
    | 3 => if stop then some 4 else none
    | _ => if s.ms ≥ secMs (e.pn 2 39 20) then some 0 else none
  let s' : SeqSt := seqGo s (inAt xs 0) next h
  let st := s'.step
  let past := (st == 1 && s'.ms > secMs (e.pn 3 19 0)) || (st == 2 && s'.ms > secMs (e.pn 3 39 20))
  let phase : Nat := [0, 1, 1, 2, 3].getD st 0
  let q := insQ xs
  let bo := fun b => some (BIn.mk (qBool b) q)
  ⟨.seq s', [some ⟨(phase : Int) * qOne, q⟩, some ⟨(st : Int) * qOne, q⟩,
     bo (st != 0 && !full), bo (st == 2 || st == 3),
     some ⟨if st ≥ 2 then e.pv 1 else 0, q⟩, bo (st == 3 || st == 4), bo past], [], none, none, none⟩

/-! COOL (R818). -/

def runCool (e : BEnv) (xs : List (Option BIn)) : BRes :=
  let en := inAt xs 0
  let tg := inAt xs 1
  let ta := inAt xs 2
  let on0 := match e.st with | .cool b => b | _ => false
  let q := insQ xs
  let done := qBool (decide (tg.v ≤ e.pv 2))
  if !isTrue en then ⟨.cool false, [some ⟨0, q⟩, some ⟨done, q⟩], [], none, none, none⟩
  else if isBad tg || isBad ta then ⟨.cool on0, [some ⟨e.pv 3, q⟩, some ⟨0, q⟩], [], none, none, none⟩
  else
    let d := tg.v - ta.v
    let on := if d ≥ e.pv 0 then true else if d ≤ e.pv 1 then false else on0
    ⟨.cool on, [some ⟨if on then e.pv 3 else 0, q⟩, some ⟨done, q⟩], [], none, none, none⟩

/-! AERATE (R819 to R821, R830). -/

/-- Roll the buckets forward `k` hours. -/
def rollBuckets : Nat → List Nat → List Nat
  | 0, bs => bs
  | k + 1, bs => rollBuckets k ((0 :: bs).take 24)

def runAerate (e : BEnv) (xs : List (Option BIn)) : BRes :=
  let hour := e.opSec / 3600
  let a0 : AerSt := match e.st with
    | .aerate a => a
    | _ => ⟨false, 0, true, hour, List.replicate 24 0, false⟩
  let bs := rollBuckets (min 24 (hour - a0.bucket)) a0.buckets
  let bs := if a0.on then (match bs with | b :: t => (b + e.dt) :: t | [] => []) else bs
  let ms := a0.ms + e.dt
  let dayMs := sumN bs
  let full := (dayMs : Int) * qOne ≥ e.pv 8 * 1000
  let rx := inAt xs 0
  let run := if isBad rx then a0.run else isTrue rx
  let ea := inAt xs 1
  let ta := inAt xs 2
  let tg := inAt xs 3
  let d := tg.v - ta.v
  let cond := !isBad ea && !isBad ta && !isBad tg &&
    decide (e.pv 0 - e.pv 1 ≤ ea.v ∧ ea.v ≤ e.pv 0 + e.pv 2) && decide (e.pv 3 ≤ d ∧ d ≤ e.pv 4)
  let on := if a0.on then
      !(!run || !e.window || full || (!cond && ms ≥ secMs (e.pn 7 15 0)))
    else run && e.window && cond && !full && (a0.fresh || ms ≥ secMs (e.pn 7 31 16))
  let a : AerSt := ⟨on, if on == a0.on then ms else 0, a0.fresh && !on, hour, bs, run⟩
  let q := insQ xs
  let dayt := qFrac (dayMs : Int) 1000
  ⟨.aerate a, [some ⟨if run then 2 * qOne else 0, q⟩, some ⟨if on then e.pv 5 else 0, q⟩,
     some ⟨qBool on, q⟩, some ⟨dayt.val, q⟩], satQ dayt, none, none, none⟩

/-! CABLE (R822, R831, R835). -/

/-- Number of the highest value, the lowest number on a tie. -/
def argMax (best : Nat × Int) : List (Nat × Int) → Nat × Int
  | [] => best
  | x :: xs => argMax (if x.2 > best.2 then x else best) xs

/-- CABLE. A point's filter runs from its first value that is not bad, used or not (R831, R835); a bad point is computed on its
value word (R768). -/
def runCable (e : BEnv) (xs : List (Option BIn)) : BRes :=
  let n := xs.length - 1
  let fs0 := match e.st with | .cable f => f | _ => List.replicate n none
  let t := fVal (e.pw 0)
  let step := fun (k : Nat) =>
    let x := inAt xs (k + 1)
    match fs0.getD k none with
    | none => if isBad x then ((none : Option Word), frInt 0) else (some (fq x.v), frInt 0)
    | some f =>
      let f' := (fRound (frAdd (fVal f) (frDiv (frMul (frSub (frQ x.v) (fVal f)) (dtFr e))
        (frAdd t (dtFr e))))).word
      (some f', frDiv (frMul (frSub (fVal f') (fVal f)) (frInt 86400)) (dtFr e))
  let rs := (rangeFrom 0 n).map step
  let fs := rs.map (·.1)
  let lim := match inOpt xs 0 with
    | none => n
    | some c => if isBad c then n else (c.v / qOne).toNat
  let used := (rangeFrom 0 n).filter (fun k => !isBad (inAt xs (k + 1)) && k < lim)
  let bad := ((rangeFrom 0 n).filter (fun k => isBad (inAt xs (k + 1)))).length
  let o5 := some (BIn.mk ((bad : Int) * qOne) (insQ xs))
  match used with
  | [] => ⟨.cable fs, (rangeFrom 0 5).map (fun k => some ⟨e.lastOut k, .fault⟩) ++ [o5], [], none, none, none⟩
  | u :: _ =>
    let vals := used.map (fun k => (k, (inAt xs (k + 1)).v))
    let (kMax, vMax) := argMax (u, (inAt xs (u + 1)).v) vals
    let rises := used.map (fun k => (k, qRound (frMul (rs.getD k (none, frInt 0)).2 (frInt qOne))))
    let rates := rises.map (fun r => (r.1, r.2.val))
    let rMax := (argMax (u, (rates.getD 0 (0, 0)).2) rates).2
    let mean := qRound ⟨vals.foldl (fun a x => a + x.2) 0, used.length⟩
    let q := worstQ (used.map (fun k => (inAt xs (k + 1)).q))
    let alm := vMax ≥ e.pv 1 || rMax ≥ e.pv 2
    ⟨.cable fs, [some ⟨vMax, q⟩, some ⟨rMax, q⟩, some ⟨(kMax : Int) * qOne, q⟩, some ⟨mean.val, q⟩,
       some ⟨qBool alm, insQ xs⟩, o5], rises.flatMap (fun r => satQ r.2) ++ satQ mean, none, none, none⟩

/-! SHRINK (R823) and LEVEL (R824). -/

/-- SHRINK. Its masses are in t, as R823 says, against the kg of Table 0-3 (R15; DESIGN CHOICE, assumption 46: the specific rule
over the general table). A zero 100 − MOUT divides as R271 says. -/
def runShrink (e : BEnv) (xs : List (Option BIn)) : BRes :=
  let it := fun k => match e.items.getD k none with | some w => qOf w | none => 0
  let (w0, d0, m0) := match e.st with | .shrink w d m => (w, d, some m) | _ => (it 0, it 1, none)
  let (m, clr) := riseWord m0 (inOpt xs 3)
  let w0 := if clr then 0 else w0
  let d0 := if clr then 0 else d0
  let qx := inAt xs 0
  let mi := inAt xs 1
  let mo := inAt xs 2
  let q := insQ xs
  if xs.any (fun x => match x with | some b => isBad b | none => false) then
    ⟨.shrink w0 d0 (m.getD true), [some ⟨e.lastOut 0, q⟩, some ⟨w0, q⟩, some ⟨d0, q⟩], [], none, none, none⟩
  else
    let den := frSub (frInt 100) (frQ mo.v)
    let sh := if den.num = 0 then qDiv (100 * (mi.v - mo.v)) 0
      else qRound (frMul (frDiv (frMul (frInt 100) (frQ (mi.v - mo.v))) den) (frInt qOne))
    let z := qRound (frMul (frMul (frQ qx.v) (frQ (mi.v - mo.v))) (frInt qOne))
    let zq := qDiv z.val 0
    let wf := if den.num = 0 then frQ zq.val else frDiv (frMul (frQ qx.v) (frQ (mi.v - mo.v))) den
    let wf := if wf.num < 0 then frInt 0 else wf
    let w := qRound (frMul (frAdd (frQ w0) (frDiv (frMul wf (dtFr e)) (frInt 3600))) (frInt qOne))
    let dq := frQ (if qx.v < 0 then 0 else qx.v)
    let df := frMul (frDiv (frMul dq (frSub (frInt 100) (frQ mi.v))) (frInt 100)) (dtFr e)
    let d := qRound (frMul (frAdd (frQ d0) (frDiv df (frInt 3600))) (frInt qOne))
    ⟨.shrink w.val d.val (m.getD true), [some ⟨sh.val, q⟩, some ⟨w.val, q⟩, some ⟨d.val, q⟩],
     satQ sh ++ (if den.num = 0 then satQ zq else []) ++ satQ w ++ satQ d, none, none, none⟩

/-- LEVEL, its mass in t, as R824 says, against the kg of Table 0-3 (R15; DESIGN CHOICE, assumption 46). -/
def runLevel (e : BEnv) (xs : List (Option BIn)) : BRes :=
  let m0 := match e.st with | .level m => m | _ => e.pv 5
  let inV := fun k => if isBad (inAt xs k) then (0 : Int) else (inAt xs k).v
  let cap := e.pv 0
  let m1 := match inOpt xs 2 with
    | some s =>
      if isUsable s then qRound ⟨s.v * cap, 100 * 1048576⟩
      else qRound (frMul (frAdd (frQ m0) (frDiv (frMul (frQ (inV 0 - inV 1)) (dtFr e)) (frInt 3600))) (frInt qOne))
    | none =>
      qRound (frMul (frAdd (frQ m0) (frDiv (frMul (frQ (inV 0 - inV 1)) (dtFr e)) (frInt 3600))) (frInt qOne))
  let m := min (max m1.val 0) cap
  let fill := qRound (frMul (frDiv (frQ m) (frQ cap)) (frInt (100 * qOne)))
  let q := insQ xs
  let top := frMul (frQ fill.val) (frMul (frQ (e.pv 2)) ⟨1, 100⟩)
  let pts := ((rangeFrom 0 (e.pn 1 7 0)).filter (fun (i : Nat) =>
    frLe (frAdd (frQ (e.pv 4)) (frMul (frInt (i : Int)) (frQ (e.pv 3)))) top)).length
  ⟨.level m, [some ⟨m, q⟩, some ⟨fill.val, q⟩, some ⟨(pts : Int) * qOne, q⟩], satQ m1 ++ satQ fill, none, none, none⟩

/-- One run of an instance of any type; none for an unknown code. -/
def runBlock (type no : Nat) (e : BEnv) (xs : List (Option BIn)) : Option BRes :=
  match runGeneral type no e xs with
  | some r => some r
  | none =>
    match type with
    | 0x40 => some (runEmc e xs)
    | 0x41 => some (runPsy e xs)
    | 0x42 => some (runColumn e xs)
    | 0x43 => some (runDisch e xs)
    | 0x44 => some (runBatch e xs)
    | 0x45 => some (runCflow e xs)
    | 0x46 => some (runCool e xs)
    | 0x47 => some (runAerate e xs)
    | 0x48 => some (runCable e xs)
    | 0x49 => some (runShrink e xs)
    | 0x4A => some (runLevel e xs)
    | _ => none

end Sys2Proof.Machine
end

