-- ==== Sys2Proof/Machine/TileOps.lean ====
section
/-! DEFINITION. Operations on the tiles (chapter 07): frames, the run of an entry and of its block instances (R266, R765,
R766), publication (R266, R770), and the loss of a tile with its migration (R481 to R497). -/

namespace Sys2Proof.Machine

open Sys2Proof

/-! Tiles. -/

def getTile (s : State) (p : Nat) : Tile := tget {} s.prf.tiles p
def setTile (s : State) (p : Nat) (x : Tile) : State := { s with prf := { s.prf with tiles := tset {} s.prf.tiles p x } }

/-- The physical tiles, 0 to 71. -/
def allTiles : List Nat := rangeFrom 0 72

/-- Logical tiles at this start (R467). -/
def logicalCount (s : State) : Nat :=
  if s.prf.done then (allTiles.filter (fun p => (getTile s p).logical < 64)).length else 0

/-- The physical tile of a logical one. -/
def physOf (s : State) (t : Nat) : Option Nat := allTiles.find? (fun p => (getTile s p).logical == t && t < 64)

/-- Spare tiles left, ascending; a spare being loaded is taken. -/
def sparesLeft (s : State) : List Nat :=
  allTiles.filter (fun p => (getTile s p).st == 1 && !s.prf.loads.any (fun l => l.spare == p))

def getLt (s : State) (t : Nat) : LTile := tget {} s.eng.ltiles t
def setLt (s : State) (t : Nat) (x : LTile) : State := { s with eng := { s.eng with ltiles := tset {} s.eng.ltiles t x } }

/-! Frames (R264 to R266, R287). -/

/-- The entries of a tile in frame f, in table order (R538). -/
def entriesAt (s : State) (t f : Nat) : List Place :=
  sortBy (fun a b => decide (a.k < b.k) || (a.k == b.k && decide (a.task ≤ b.task)))
    (s.adm.places.filter (fun p => p.tile == t && f % p.k == p.phi))

/-- A tile has run every entry of the frame in hand. -/
def frameDone (s : State) (t : Nat) (x : LTile) : Bool :=
  match x.frame with
  | none => true
  | some f => decide (x.ran ≥ (entriesAt s t f).length)

/-- One more skipped frame (R287). -/
def countSkip (s : State) : State := { s with eng := { s.eng with skips := satAdd 4095 s.eng.skips 1 } }

/-- The frame in hand is withheld, and one that waits behind it falls too: the spare begins at a tick (R491, R493). -/
def withhold (s : State) (t : Nat) : State :=
  setLt s t { getLt s t with frame := none, ran := 0, held := [], owed := none }

/-- The next frame begins on one tile: it starts, waits behind a frame that overruns, or displaces a frame not started. A barred
frame is withheld (R491). -/
def tileFrame (s : State) (t g : Nat) : State :=
  let x := getLt s t
  if x.lost || s.adm.late.contains t then s
  else if x.barred == some g then setLt (withhold s t) t { getLt (withhold s t) t with barred := none }
  else if frameDone s t x || s.prf.loads.any (fun l => l.logical == t) then
    setLt s t { x with frame := some g, ran := 0, held := [], owed := none }
  else if x.ran == 0 then countSkip (setLt s t { x with frame := some g, owed := none })
  else match x.owed with
    | some _ => countSkip (setLt s t { x with owed := some g })
    | none =>
      let s := setLt s t { x with owed := some g }
      let s := { s with eng := { s.eng with overrunFrames := 0 } }
      raiseU s 0x0C (packW [(7, 0, t), (18, 8, (x.frame.getD 0) % 1200)])

def tileFrames (s : State) (g : Nat) : List Nat → State
  | [] => s
  | t :: ts => tileFrames (tileFrame s t g) g ts

/-- The tiles that ran a background segment in the frame that ends (R482): the healthy logical ones whose frame has been published,
or all of them while no frames run (R499). -/
def bgTiles (s : State) : List Nat :=
  allTiles.filter (fun p =>
    let t := getTile s p
    let x := getLt s t.logical
    t.st == 0 && t.logical < 64 && (!s.eng.framesOn || (x.frame.isSome && frameDone s t.logical x)))

def bgSegments (s : State) : List Nat → State
  | [] => s
  | p :: ps => bgSegments (setTile s p { getTile s p with bg := (getTile s p).bg + 1 }) ps

/-- The logical tiles present, ascending. -/
def logicals (s : State) : List Nat :=
  let here := allTiles.map (fun p => (getTile s p).logical)
  (rangeFrom 0 64).filter here.contains

/-- A minor frame starts on every logical tile; a major frame without overrun ends the cause of FRAME_OVERRUN. -/
def nextFrame (s : State) : State :=
  let s := if s.eng.framesOn then bgSegments s (bgTiles s) else s
  let g := if s.eng.framesOn then s.eng.frames + 1 else 0
  let n := satAdd 1200 s.eng.overrunFrames 1
  let s := { s with eng := { s.eng with frames := g, framesOn := true, lastTick := s.now, overrunFrames := n } }
  let s := tileFrames s g (logicals s)
  if s.eng.overrunFrames ≥ 1200 then causeOff s 0x0C else s

/-! The run of an entry (R765, R766, R772). -/

/-- What instances of the task have answered in this run: instance, inputs, result. -/
abbrev RunLog := List (Nat × List (Option BIn) × BRes)

/-- The outputs of KIND 0 of a result, by value index. -/
def kind0 (c : InstCfg) (r : BRes) : List (Nat × BIn) :=
  (c.outs.zip r.outs).filterMap (fun o => match o.2 with
    | none => none
    | some x => if o.1.kind == 0 && o.1.target != 0xFFF then some (o.1.target, x) else none)

/-- An input (R766): an output of an earlier instance of this run, else the value table; a forced value is read from the
table. -/
def readIn (s : State) (now : List (Nat × BIn)) (v : Nat) : Option BIn :=
  if v == 0xFFF then none
  else if (getVal s v).forced then some (readVal s v)
  else match now.find? (fun x => x.1 == v) with
    | some x => some x.2
    | none => some (readVal s v)

/-- The calendar window of AERATE (R820). -/
def aerWindow (s : State) (c : InstCfg) : Bool :=
  let p := c.params.getD 6 0#40
  if bitOf p 16 then true
  else
    let e := fun (n : Nat) => s.plt.plate.scheds.find? (·.entry == n)
    match e (fld p 7 0), e (fld p 15 8) with
    | some o, some z => if calUsable s.cal then windowOpen o z (calLocal s.cal) else o.fb
    | _, _ => false

/-- The COLUMN that a DISCH controls: its state, parameters and inputs of this run (R813). -/
def dischCol (s : State) (log : RunLog) (c : InstCfg) : Option (ColSt × List Word × List (Option BIn)) :=
  let n := fld (c.params.headD 0#40) 15 0
  match log.find? (fun x => x.1 == n), s.plt.plate.insts.find? (·.inst == n) with
  | some x, some k => match x.2.2.st with
    | .column y => some (y, k.params, x.2.1)
    | _ => none
  | _, _ => none

/-- The persistent items that an instance names (R771). -/
def itemsOf (s : State) (c : InstCfg) : List (Option Word) :=
  if c.pindex == 0xFFFF then []
  else [tget none s.nvm.items c.pindex, tget none s.nvm.items (c.pindex + 1)]

/-- What a run of an instance sees beside its inputs; dt spans the frames since its last published run (R765). -/
def instEnv (s : State) (f period : Nat) (log : RunLog) (c : InstCfg) : BEnv :=
  let x := tget {} s.eng.insts c.inst
  { p := c.params, st := x.st, last := x.outs
    dt := match x.frame with | none => period | some g => 50 * (f - g)
    nowMs := 50 * f
    opSec := s.cal.opSec
    window := c.type == 0x47 && aerWindow s c
    col := if c.type == 0x43 then dischCol s log c else none
    sub := tget none s.eng.subs c.inst
    items := itemsOf s c }

/-- Run the instances of a task in order. -/
def runInsts (s : State) (f period : Nat) : List InstCfg → List (Nat × BIn) → RunLog → RunLog
  | [], _, log => log
  | c :: cs, now, log =>
    let ins := c.ins.map (readIn s now)
    match runBlock c.type c.outs.length (instEnv s f period log c) ins with
    | none => runInsts s f period cs now log
    | some r => runInsts s f period cs (kind0 c r ++ now) (log ++ [(c.inst, ins, r)])

/-- Saturations count at the run (R272), and a SUB's record is taken (R790). -/
def afterRun (s : State) (tile : Nat) : RunLog → State
  | [] => s
  | x :: xs =>
    let s := countSats s x.1 (0x40 + tile) x.2.2.sats
    afterRun { s with eng := { s.eng with subs := tset none s.eng.subs x.1 none } } tile xs

/-- Run a task's entry on a tile in frame f. -/
def runEntry (s : State) (tile f task : Nat) : State :=
  match s.plt.plate.tasks.find? (·.task == task) with
  | none => s
  | some t =>
    let log := runInsts s f (periodMs t.period) (taskInsts s.plt.plate t) [] []
    let s := afterRun s tile log
    let x := getLt s tile
    setLt s tile { x with ran := x.ran + 1, held := x.held ++ log.map (fun y => (y.1, y.2.2)) }

/-! Publication (R266, R770). -/

/-- One output is delivered by its KIND (Table 20-1). -/
def deliver (s : State) (tile : Nat) (o : OutCfg) (x : BIn) : State :=
  if o.kind == 0 then (if o.target == 0xFFF then s else putVal s o.target (qWord x.v) x.q (0x40 + tile))
  else { s with eng := { s.eng with dem := tset none s.eng.dem (o.kind * 256 + o.target) (some x) } }

def delivers (s : State) (tile : Nat) : List (OutCfg × Option BIn) → State
  | [] => s
  | (o, some x) :: os => delivers (deliver s tile o x) tile os
  | (_, none) :: os => delivers s tile os

/-- The alarm state of an ALARM instance (R787, R796). -/
def publishAlarm (s : State) (tile : Nat) (c : InstCfg) (on : Bool) : State :=
  let n := fld (c.params.headD 0#40) 3 0
  let was := s.flt.alarms.contains (n, c.inst)
  if on == was then s
  else if on then raise { s with flt := { s.flt with alarms := s.flt.alarms ++ [(n, c.inst)] } } (0x50 + n) (pw c.inst) (0x40 + tile)
  else
    let left := s.flt.alarms.filter (· != (n, c.inst))
    let s := { s with flt := { s.flt with alarms := left } }
    if left.any (fun a => a.1 == n) then s else causeOff s (0x50 + n)

/-- The start-freeze request of an SFRZ instance (R788). -/
def publishSfrz (s : State) (inst : Nat) (on : Bool) : State :=
  let left := s.eng.sfrz.filter (· != inst)
  freezeDrop { s with eng := { s.eng with sfrz := if on then left ++ [inst] else left } }

/-- The record of a PUB instance (R789). -/
def publishPub (s : State) (c : InstCfg) (x : BIn) : State :=
  let p := c.params.headD 0#40
  pubSend s (fld p 1 0) (fld p 9 2) (fld p 19 10) (c.ins.headD 0xFFF) x

/-- The words that an instance keeps in its persistent items (R771, R775, R812, R823). -/
def itemWords (st : BSt) : List Word :=
  match st with
  | .latch q => [pw (b2n q)]
  | .cnt n _ => [qWord n]
  | .total a _ => [pw a, pw (a / 2 ^ 40)]
  | .column c => [c.b]
  | .shrink w d _ => [qWord w, qWord d]
  | _ => []

def putItems (t : Tab (Option Word)) (i : Nat) : List Word → Tab (Option Word)
  | [] => t
  | w :: ws => putItems (tset none t i (some w)) (i + 1) ws

/-- One instance's result is published. -/
def publishInst (s : State) (tile f : Nat) (c : InstCfg) (r : BRes) : State :=
  let old := tget {} s.eng.insts c.inst
  let outs := (r.outs.zip (rangeFrom 0 r.outs.length)).map (fun x => match x.1 with
    | some y => y.v
    | none => old.outs.getD x.2 0)
  let y : InstSt := { st := r.st, outs := outs, frame := some f }
  let s := { s with eng := { s.eng with insts := tset {} s.eng.insts c.inst y } }
  let s := delivers s tile (c.outs.zip r.outs)
  let s := match r.alarm with | none => s | some b => publishAlarm s tile c b
  let s := match r.sfrz with | none => s | some b => publishSfrz s c.inst b
  let s := match r.pub with | none => s | some x => publishPub s c x
  if c.pindex == 0xFFFF then s
  else { s with nvm := { s.nvm with items := putItems s.nvm.items c.pindex (itemWords r.st) } }

def publishAll (s : State) (tile f : Nat) : List (Nat × BRes) → State
  | [] => s
  | x :: xs =>
    publishAll (match s.plt.plate.insts.find? (·.inst == x.1) with
      | none => s
      | some c => publishInst s tile f c x.2) tile f xs

/-- The frame in hand of a tile is published, and a frame that waited starts (R266, R287). -/
def publishFrame (s : State) (tile f : Nat) : State :=
  let x := getLt s tile
  let ran := if x.owed.isSome then 0 else x.ran
  publishAll (setLt s tile { x with frame := some (x.owed.getD f), ran := ran, held := [], owed := none, first := none }) tile f x.held

/-! Logical tiles (R467). -/

/-- Logical numbers in ascending physical order over the healthy tiles; those beyond the 64th are spares. -/
def assignTile (x : Tab Tile × Nat) (p : Nat) : Tab Tile × Nat :=
  let t := tget {} x.1 p
  if t.st ≥ 2 then (tset {} x.1 p { t with logical := 127 }, x.2)
  else if x.2 < 64 then (tset {} x.1 p { t with st := 0, logical := x.2 }, x.2 + 1)
  else (tset {} x.1 p { t with st := 1, logical := 127 }, x.2)

def assignTiles (s : State) : State :=
  { s with prf := { s.prf with tiles := (allTiles.foldl assignTile (s.prf.tiles, 0)).1 } }

/-! The cycle tables (R538). -/

/-- The CRC-32 of a logical tile's cycle table, one word per entry: task, every k-th frame, phase (DESIGN CHOICE, assumption 53: the
layout of a cycle table is the model's). -/
def tableCrc (ps : List Place) (t : Nat) : Nat :=
  crc32 (wordsBytes ((ps.filter (fun p => p.tile == t)).map (fun p => packW [(39, 24, p.task), (23, 12, p.k), (11, 0, p.phi)])))

/-- A tile takes logical tile t's table with its CRC from the master copy. -/
def loadTable (s : State) (t p : Nat) : State := setTile s p { getTile s p with crc := tget 0 s.adm.crcs t }

/-- Every logical tile takes its table. -/
def loadTables (s : State) : List Nat → State
  | [] => s
  | t :: ts =>
    loadTables (match physOf s t with | none => s | some p => loadTable s t p) ts

/-- A tile's copy of logical tile t's table matches its CRC. -/
def tableOk (s : State) (t p : Nat) : Bool := (getTile s p).crc == tget 0 s.adm.crcs t

/-! The loss of a tile (R481 to R497). -/

/-- PRF_MIGRATE (Table 12-12). -/
def migNote (s : State) (logical from_ dst minor : Nat) : State :=
  { s with prf := { s.prf with migLogical := logical, migFrom := from_, migTo := dst, migMinor := minor % 1200 } }

/-- The tiles hold cycle tables: admission has ended, and no second run is due (R296, R557). -/
def tablesHeld (s : State) : Bool :=
  s.plt.admitted && (!s.adm.rerun || s.adm.reran) && (s.start.state == .starting || s.start.state == .armed)

/-- A tile that holds no cycle table retires as a spare does (R482, R499). While the start goes on the tiles left are numbered afresh
(R467), in step 8 by the second admission run that a logical tile's loss calls for (R557). -/
def retireSpare (s : State) (p : Nat) : State :=
  let held := decide ((getTile s p).logical < 64)
  let s := setTile s p { getTile s p with st := 4, logical := 127 }
  let s := if held then rerunDue s else s
  let s := if s.start.state == .starting && !tablesHeld s && s.start.step < 8 then assignTiles s else s
  newDefect s (mapEntry 1 p)

/-- A frame is withheld, whether it is in hand or still to come (R491). -/
def barFrame (s : State) (t g : Nat) : State :=
  setLt (withhold s t) t { getLt (withhold s t) t with barred := some g }

/-- The frame after which a keeper tile out of the vote waits for the next major-frame boundary. -/
def frameNow (g : Eng) : Option Nat := if g.framesOn then some g.frames else none

/-- A migration ends: keeper tiles return at a major-frame boundary after it (R289). -/
def migEnds (s : State) : State := { s with eng := { s.eng with leftIn := List.replicate 3 (frameNow s.eng) } }

/-- A load joins those of the same frame that have not begun, in ascending logical order; each takes the lowest spare left
(R490). -/
def addLoad (ls : List MigLoad) (x : MigLoad) : List MigLoad :=
  let (stay, move) : List MigLoad × List MigLoad :=
    (ls.take 1 ++ (ls.drop 1).filter (fun l => l.minor != x.minor), (ls.drop 1).filter (fun l => l.minor == x.minor))
  let spares := (move ++ [x]).map (·.spare)
  let sorted := sortBy (fun a b => decide (a.logical ≤ b.logical)) (move ++ [x])
  stay ++ (sorted.zip spares).map (fun (p : MigLoad × Nat) => { p.1 with spare := p.2 })

/-- The load of a spare for a logical tile, which begins with frame g, or TILE_LOST (R484, R496). -/
def migrate (s : State) (t p minor g : Nat) : State :=
  match (sparesLeft s).head? with
  | some q =>
    let s := setLt s t { getLt s t with first := some g }
    { s with prf := { s.prf with loads := addLoad s.prf.loads { logical := t, retired := p, spare := q, minor := minor } } }
  | none =>
    let s := mapStore (migNote (setLt (migEnds s) t { lost := true }) t p 127 minor) (mapEntry 1 p)
    raiseU s 0x0D (pw t)

/-- A logical tile that holds its cycle table fails its runtime check (R481, R484): the frame in hand is withheld. A spare that fails
after its load and before its first frame costs that frame (R491). -/
def tableFail (s : State) (t p : Nat) : State :=
  let x := getLt s t
  let minor := x.frame.getD s.eng.frames
  let s := withhold (setTile s p { getTile s p with st := 4 }) t
  match x.frame, x.first with
  | none, some g => migrate (barFrame s t g) t p (g - 1) g
  | _, _ => migrate s t p minor (if s.eng.framesOn then minor + 1 else 0)

/-- A logical tile fails its runtime check. In step 8 admission runs again without it, or after the second run it fails once the plant
arms (R557). -/
def tileFail (s : State) (t : Nat) : State :=
  match physOf s t with
  | none => s
  | some p =>
    if !tablesHeld s || (s.start.step == 8 && !s.adm.reran) then retireSpare s p
    else if s.start.step == 8 then
      let s := withhold (setTile s p { getTile s p with st := 4 }) t
      { s with adm := { s.adm with late := s.adm.late ++ [t] } }
    else tableFail s t p

/-- The tiles that failed in step 8 after the second admission run (R557). -/
def lateFails (s : State) : List Nat → State
  | [] => s
  | t :: ts =>
    let s := { s with adm := { s.adm with late := s.adm.late.filter (· != t) } }
    lateFails (match physOf s t with | none => s | some p => tableFail s t p) ts

/-- The spare being loaded for a logical tile fails too (R491). -/
def loadFail (s : State) (l : MigLoad) : State :=
  let g := (getLt s l.logical).first.getD (l.minor + 1)
  let s := setTile s l.spare { getTile s l.spare with st := 4 }
  let s := { s with prf := { s.prf with loads := removeFirst (fun x => decide (x = l)) s.prf.loads } }
  migrate (mapStore (barFrame s l.logical g) (mapEntry 1 l.spare)) l.logical l.retired l.minor g

/-- TILE_SPARES_LOW where one spare or none remains (R486, R497). -/
def sparesLow (s : State) : State := if (sparesLeft s).length ≤ 1 then raiseU s 0x18 (pw 6) else s

/-- The load at the head ends (Table 12-9 steps 3 and 4): the map changes; a load that ends 8 ms or more after the tick
withholds the frame (R490). -/
def loadEnd (s : State) (x : MigLoad) : State :=
  let (t, p, q) := (x.logical, x.retired, x.spare)
  let s := setTile (setTile s p { getTile s p with logical := 127 }) q { getTile s q with st := 0, logical := t }
  let s := loadTable s t q
  let s := { s with prf := { s.prf with loads := s.prf.loads.drop 1, migCount := satAdd 255 s.prf.migCount 1 } }
  let s := migNote (migEnds s) t p q x.minor
  let late : Bool := decide (s.eng.lastTick + 8000 < s.now)
  let s := if late then withhold s t else s
  sparesLow (pulse (mapStore s (mapEntry 1 p)) 0x17 (packW [(6, 0, t), (14, 8, p), (22, 16, q)]))

/-! The keeper (R260 to R263). -/

/-- A keeper tile is retired until the next chip reset (R263). -/
def keeperRetire (s : State) (k : Nat) : State :=
  let s := { s with eng := { s.eng with kRetired := listSet s.eng.kRetired k true, voting := listSet s.eng.voting k false } }
  raiseU s 0x0E (pw k)

/-- The cause of KEEPER_MISCOMPARE goes with the last tile back in the vote. -/
def keeperCause (s : State) : State :=
  if (rangeFrom 0 3).all (fun k => s.eng.voting.getD k false || s.eng.kRetired.getD k false) then causeOff s 0x0F else s

/-- A keeper tile miscompares (R262, R263, R291): the tile in bits 7:0 of the parameter, the port in bits 15:8. -/
def miscompare (s : State) (k port : Nat) : State :=
  let at_ := s.now :: (s.eng.miscAt.getD k []).filter (fun t => decide (s.now < t + 3600000000))
  let s := { s with eng := { s.eng with
    voting := listSet s.eng.voting k false
    misc := listSet s.eng.misc k (satAdd 255 (s.eng.misc.getD k 0) 1)
    miscAt := listSet s.eng.miscAt k at_
    leftIn := listSet s.eng.leftIn k (frameNow s.eng) } }
  let s := raiseU s 0x0F (packW [(7, 0, k), (15, 8, port)])
  if at_.length ≥ 3 then keeperCause (keeperRetire s k) else s

/-- The keeper tiles in the vote. -/
def voters (s : State) : List Nat := (rangeFrom 0 3).filter (fun k => s.eng.voting.getD k false)

/-- KEEPER_SPLIT (R291). -/
def keeperSplit (s : State) : State := raiseFatal s 0x02 (pw 1)

end Sys2Proof.Machine
end

