-- ==== Sys2Proof/Machine/SpineOps.lean ====
section
/-! DEFINITION. Operations on the spine (chapter 05): link directions and their ports, corrections, poisoned transfers,
and the freeze bits that the keeper and the factory write. -/

namespace Sys2Proof.Machine

open Sys2Proof

def getLink (s : State) (d : Nat) : Link := tget {} s.spn.links d
def setLink (s : State) (d : Nat) (x : Link) : State := { s with spn := { s.spn with links := tset {} s.spn.links d x } }

/-- The register of a link direction. -/
def linkReg (d : Nat) : Nat := if d < 256 then 0x08100 + d else 0x08200 + (d - 256)

/-! Freeze bits (R197, R198). -/

/-- Set the freeze bit of an instance of index 0 to 21 or of a router port; a scan sequencer discards its choice. -/
def setFreeze (s : State) (n : Nat) : State :=
  let s := modArb s n (arbFreeze n)
  if 12 ≤ n ∧ n < 18 then
    let l := (getSlice s (n - 12)).list
    if l < 7 then setList s l { getList s l with next := none } else s
  else s

/-- Clear it: the instance decides afresh. -/
def clearFreeze (s : State) (n : Nat) : State :=
  if (getArb s n).frozen then
    let s := arbMoved (modArb s n (arbUnfreeze n)) n
    if 12 ≤ n ∧ n < 18 then
      let l := (getSlice s (n - 12)).list
      if l < 7 then setList s l { getList s l with next := chooseNext s l (getList s l).pos } else s
    else if 18 ≤ n ∧ n < 22 then canFresh s (n - 18)
    else s
  else s

def setFreezes (s : State) : List Nat → State
  | [] => s
  | n :: ns => setFreezes (setFreeze s n) ns

def clearFreezes (s : State) : List Nat → State
  | [] => s
  | n :: ns => clearFreezes (clearFreeze s n) ns

/-! Corrections and poison (R208, R209). -/

/-- Spare lanes of a direction that are in use, or that a waiting swap will use. -/
def lanesUsed (s : State) (d : Nat) : Nat :=
  let x := getLink s d
  b2n (x.bad0 != 63) + b2n (x.bad1 != 63) + (s.spn.swaps.filter (fun y => y.1 == d)).length

/-- A lane corrected for the 16th time within one hour: SPINE_LANE, with WHERE of a KIND 5 entry as parameter (DESIGN
CHOICE, assumption 12); with a spare lane left the keeper freezes the ports and swaps. The lane's hits are counted anew from
here, so that the next raise takes 16 more (DESIGN CHOICE, assumption 48). -/
def laneWorn (s : State) (d lane : Nat) : State :=
  let x := getLink s d
  let s := setLink s d { x with hits := x.hits.filter (fun h => h.1 != lane) }
  let s := pulse { s with spn := { s.spn with lane := true } } 0x14 (packW [(16, 8, d), (5, 0, lane)])
  if lanesUsed s d < 2 && !s.spn.swaps.contains (d, lane) && keeperRuns s then
    setFreezes { s with spn := { s.spn with swaps := s.spn.swaps ++ [(d, lane)] } } (linkPorts d)
  else s

/-- One word corrected at one lane (R173). -/
def laneCorrected (s : State) (d lane : Nat) : State :=
  let x := getLink s d
  let hits := (lane, s.now) :: x.hits.filter (fun h => decide (s.now < h.2 + 3600000000))
  let s := setLink s d { x with corr := satAdd 65535 x.corr 1, hits := hits }
  if (hits.filter (fun h => h.1 == lane)).length ≥ 16 then laneWorn s d lane else s

/-- A physical tile's spine fault fails its runtime check (R209, Table 12-8). -/
def portTileFail (s : State) (port : Nat) : State :=
  let p := port - 64
  if port < 64 || p ≥ 72 || !keeperRuns s || !s.prf.done then s
  else
    let t := (getTile s p).logical
    match s.prf.loads.find? (fun l => l.spare == p) with
    | some l => loadFail s l
    | none =>
      if t < 64 && (getTile s p).st == 0 then tileFail s t
      else if (getTile s p).st == 1 then retireSpare s p
      else s

/-- A transfer with a poisoned word reaches its destination, which discards it, and its source sends it once more; the second
one on the route within 1 s raises SPINE_UNCORR, source port in bits 15:8 and destination port in bits 7:0 (R209; DESIGN
CHOICE, assumption 12). -/
def poisoned (s : State) (src dst : Nat) : State :=
  let k := 256 * src + dst
  let again := match tget none s.spn.poison k with | none => false | some t => decide (s.now < t + 1000000)
  let s := { s with spn := { s.spn with
    poison := tset none s.spn.poison k (some s.now)
    resend := tset 0 s.spn.resend k (tget 0 s.spn.resend k + 1) } }
  if again then
    let s := pulse { s with spn := { s.spn with uncorr := true } } 0x13 (packW [(15, 8, src), (7, 0, dst)])
    portTileFail (portTileFail s src) dst
  else s

/-! Packets on links (R173, R177, R178). -/

def getCross (s : State) (d : Nat) : Option Cross := tget none s.spn.cross d
def setCross (s : State) (d : Nat) (c : Option Cross) : State :=
  { s with spn := { s.spn with cross := tset none s.spn.cross d c } }

/-- The link before a link of a route. -/
def linkBefore (d : Nat) : List Nat → Option Nat
  | [] => none
  | [_] => none
  | a :: b :: ls => if b == d then some a else linkBefore d (b :: ls)

/-- The input of the router that a link direction feeds. -/
def fedInput (d : Nat) : Nat := match (linkEnds d).2 with | none => 0 | some n => (n - 256) % 5

/-- The input of its router from which a packet reaches a link of its route: a tile's local port, or the port that the link
before it feeds. -/
def inputOf (route : List Nat) (d : Nat) : Nat :=
  match linkBefore d route with
  | none => 0
  | some p => fedInput p

/-- The last link of a route. -/
def lastLink (s : State) (c : Cross) : Option Nat := (routeOf s.spn c.src c.dst).bind (·.getLast?)

/-- The local output port through which a packet leaves the last link of its route for a tile (R175). -/
def localPort (s : State) (c : Cross) (d : Nat) : Option Nat :=
  if 64 ≤ c.dst ∧ lastLink s c == some d then some (256 + 5 * (c.dst - 64)) else none

/-- A port that a packet needs is granted to the input that it comes from. -/
def granted (s : State) (port : Option Nat) (input : Nat) : Bool :=
  match port with
  | none => true
  | some n => (getArb s n).owner == some input

/-- A header may cross: the router port that drives the link is granted to the packet's input, and on the last link to a tile
the local output port too, since no router of the spec keeps words between the two (R178; DEDUCED, assumption 12). -/
def mayEnter (s : State) (c : Cross) (route : List Nat) (d : Nat) : Bool :=
  granted s (linkEnds d).1 (inputOf route d) && granted s (localPort s c d) (fedInput d)

/-- The packet that a word crossing a link belongs to: the one on its way there, else a new one that its header begins. -/
def crossing (s : State) (d : Nat) (c : Cross) : Cross :=
  match getCross s d with
  | some x => x
  | none => { c with num := tget 0 s.spn.begun (65536 * d + 256 * c.src + c.dst) + 1, left := c.len + 1 }

/-- A word of the route's packet crosses the link direction d of it: the header first, then the payload. -/
def wordFits (s : State) (d : Nat) (c : Cross) : Bool :=
  match routeOf s.spn c.src c.dst with
  | none => false
  | some route =>
    route.contains d &&
      (match getCross s d with
        | some x => x.src == c.src && x.dst == c.dst
        | none => decide (1 ≤ c.len ∧ c.len ≤ 16) && mayEnter s c route d)

/-- A router port is released (Table 5-4 step 3). -/
def releasePort (s : State) (port : Option Nat) : State :=
  match port with
  | none => s
  | some n => modArb s n phaseRelease

/-- The packet has left a link: the port that drives it is released, and at the end of its route the tile's local port. -/
def leaveLink (s : State) (d : Nat) : State :=
  let port := (getCross s d).bind (fun c => localPort s c d)
  releasePort (releasePort (setCross s d none) (linkEnds d).1) port

/-- The last word of a packet has reached its destination, which takes the transfer, or discards it with a poisoned word in
it (R173). -/
def arrive (s : State) (c : Cross) : State :=
  let k := 256 * c.src + c.dst
  if s.spn.bad.contains (k, c.num) then
    poisoned { s with spn := { s.spn with bad := s.spn.bad.filter (· != (k, c.num)) } } c.src c.dst
  else s

/-- A word crosses a link: the packet goes on there, or ends, and a word with two or more wrong bits poisons it. -/
def crossWord (s : State) (d : Nat) (c : Cross) (wrong : Bool) : State :=
  let k := 256 * c.src + c.dst
  let x := crossing s d c
  let fresh := (getCross s d).isNone
  let f := { s.spn with
    begun := tset 0 s.spn.begun (65536 * d + k) x.num
    bad := if wrong && !s.spn.bad.contains (k, x.num) then (k, x.num) :: s.spn.bad else s.spn.bad
    resend := if fresh && linkBefore d ((routeOf s.spn c.src c.dst).getD []) == none
      then tset 0 s.spn.resend k (tget 0 s.spn.resend k - 1) else s.spn.resend }
  let s := { s with spn := f }
  if x.left ≤ 1 then
    let s := leaveLink s d
    if lastLink s x == some d then arrive s x else s
  else setCross s d (some { x with left := x.left - 1 })

/-- The links of a route that a packet is crossing. -/
def crossLinks (s : State) (c : Cross) : List Nat :=
  (s.spn.cross.filter (fun e => match e.2 with
    | none => false
    | some x => x.src == c.src && x.dst == c.dst && x.num == c.num)).map (·.1)

def leaveLinks (s : State) : List Nat → State
  | [] => s
  | d :: ds => leaveLinks (leaveLink s d) ds

/-- No link of the route sees a packet of this number any more. -/
def passLinks (s : State) (c : Cross) : List Nat → State
  | [] => s
  | d :: ds =>
    let k := 65536 * d + 256 * c.src + c.dst
    passLinks { s with spn := { s.spn with begun := tset 0 s.spn.begun k (max c.num (tget 0 s.spn.begun k)) } } c ds

/-- A packet that a router ends (R210): the rest of it is discarded on every link of its route, and its destination gets a
poisoned last word, so that it discards the transfer. -/
def endPacket (s : State) (c : Cross) : State :=
  let s := passLinks (leaveLinks s (crossLinks s c)) c ((routeOf s.spn c.src c.dst).getD [])
  let k := 256 * c.src + c.dst
  poisoned { s with spn := { s.spn with bad := s.spn.bad.filter (· != (k, c.num)) } } c.src c.dst

/-- The packet that holds a router port (R178): on the link that the port drives, or at a local port on the last link of its
route to the tile. -/
def packetAt (s : State) (n : Nat) : Option Cross :=
  (s.spn.cross.filterMap (fun e => match e.2 with
    | none => none
    | some x => if (linkEnds e.1).1 == some n || localPort s x e.1 == some n then some x else none)).head?

/-- A packet is on its way through a router port. -/
def portBusy (s : State) (n : Nat) : Bool := (packetAt s n).isSome

/-! The shared SRAM scrub (R489). -/

/-- The KIND 3 entry of a row that reads uncorrectable: the next spare row of its bank, or 7 (R474, R489). -/
def sramEntry (s : State) (row : Nat) : State :=
  if s.prf.sramNoted.contains row || row ≥ 1024 then s
  else
    let b := row / 128
    let used := s.prf.sramUsed.getD b 0
    let wher := packW [(18, 16, b), (14, 8, row % 128), (2, 0, if used < 4 then used else 7)]
    let f := { s.prf with sramNoted := row :: s.prf.sramNoted, sramUsed := listSet s.prf.sramUsed b (min 4 (used + 1)) }
    mapStore { s with prf := f } (mapEntry 3 wher.toNat)

def sramEntries (s : State) : List Nat → State
  | [] => s
  | r :: rs => sramEntries (sramEntry s r) rs

/-- The scrub's packet at a bank has ended: correctable words are rewritten, and rows that read uncorrectable entered. -/
def sramEnd (s : State) (b : Nat) : State :=
  let found := (s.prf.sramTurns.filter (fun x => x.1 == b)).flatMap (·.2)
  sramEntries { s with prf := { s.prf with sramTurns := s.prf.sramTurns.filter (fun x => x.1 != b) } } found

/-- The steering moves past a lane (R174). -/
def steer (x : Link) (lane : Nat) : Link := if x.bad0 == 63 then { x with bad0 := lane } else { x with bad1 := lane }

/-- The swap at the head, with its ports drained: the map entry, the record, the freezes cleared (R208). -/
def swapLane (s : State) (d lane : Nat) : State :=
  let s := setLink s d (steer (getLink s d) lane)
  let f := { s.spn with swaps := s.spn.swaps.drop 1, spareLeft := s.spn.spareLeft - 1 }
  let s := addRecord { s with spn := f } 0x0008 8 (pw (linkReg d)) (pw lane)
  let s := mapStore s (mapEntry 5 (256 * d + lane))
  let busy := f.swaps.flatMap (fun x => linkPorts x.1)
  clearFreezes s ((linkPorts d).filter (fun p => !busy.contains p))

end Sys2Proof.Machine
end

