-- ==== Sys2Proof/Machine/NvmOps.lean ====
section
/-! DEFINITION. Operations of the non-volatile array (chapter 08): what the end of a store means to its owner, erase
sequences, the scrubber (R325 to R328) and row retirement (Table 8-5). -/

namespace Sys2Proof.Machine

open Sys2Proof

/-! Ends of word stores. -/

/-- One more cycle for a row of bank 3, to be added to its wear word by the next pass (R319, R320). -/
def wearAdd (n : Nvm) (row k : Nat) : Nvm :=
  { n with wearPend := tset 0 n.wearPend (wearLoc row) (tget 0 n.wearPend (wearLoc row) + k) }

/-- Control-row stores that the periodic pass does not make count in the row's pending count (assumption 15). -/
def countsControl (o : Owner) : Bool :=
  match o with | .authCount _ | .slotCount _ | .preferred => true | _ => false

/-- One pending count for a row stored by step 4, at most once per row and flush (R320). -/
def flushCount (n : Nvm) (row : Nat) : Nvm :=
  if n.flushRows.contains row then n else { wearAdd n row 1 with flushRows := row :: n.flushRows }

/-- What a completed program counts: in a flush its row once (R320), else a control-row store on its own; a stored wear word
takes its increments out of the pending count (R319); a rewritten write-once word and an operating-seconds word in Table 8-4's
counts. `old` is the wear word that stood before. -/
def countStore (n : Nvm) (t : Store) (l : Nat) (old : Nat) : Nvm :=
  if t.flush then flushCount n (locRow l)
  else
    match t.owner with
    | .wear => { n with wearPend := tset 0 n.wearPend l (tget 0 n.wearPend l - (wearWord n (locRow l) - old)) }
    | .opSeconds => { n with opStores := n.opStores + 1 }
    | .scrubRewrite =>
      if writeOnceRow (locBank l) (locRow l) then { n with rewrites := tset 0 n.rewrites l (tget 0 n.rewrites l + 1) } else n
    | o => if countsControl o && locBank l == 3 && locRow l == 0 then wearAdd n 0 1 else n

/-- A word programmed in a row under retirement after its copy is logged (R332, Table 8-5 step 2). -/
def retireLog (n : Nvm) (l : Nat) : Nvm :=
  match n.retire with
  | none => n
  | some r =>
    if r.step ≥ 2 && r.bank == locBank l && r.row == locRow l && decide (locWord l < r.copied) then
      { n with retire := some { r with log := l :: r.log.filter (· != l) } }
    else n

/-- WRITTEN_ONCE (R312): the flag and the record. -/
def onceWritten (s : State) (l : Nat) (w : Word) : State :=
  addRecord { s with svc := { s.svc with onceViol := true } } 0x3007 4 (pw l) w

/-- The rest of a store asks for its next turn, ahead of the others of its bank. -/
def storeRest (s : State) (t : Store) : State :=
  match t.words.tail with
  | [] => s
  | w :: ws =>
    let x := getBank s.nvm (locBank w.1)
    let turns := { t with words := w :: ws, second := false, started := true } :: x.turns
    { s with nvm := setBank s.nvm (locBank w.1) { x with turns := turns } }

/-- The second store of R304: a turn of its own, ahead of every other store of the bank, with a check of its own. The rest of the
store waits for it, so that copy B of a repair-map entry is not written before copy A (R336). -/
def secondStore (s : State) (b : Nat) (t : Store) : State :=
  let y := getBank s.nvm b
  { s with nvm := setBank s.nvm b { y with turns := { t with second := true, started := false } :: y.turns } }

/-- A correction rewrite of the word at a location. -/
def rewriteOf (l : Nat) (t : Store) : Bool := t.owner == .scrubRewrite && (t.words.map (·.1)).head? == some l

/-- The correction rewrites of a word are cancelled where another owner programs it (R326, R337). -/
def dropRewrites (s : State) (l : Nat) : State :=
  let f := fun (ts : List Store) => ts.filter (fun t => !rewriteOf l t)
  let x := getBank s.nvm (locBank l)
  { s with
    nvm := setBank s.nvm (locBank l) { x with turns := f x.turns }
    pwr := { s.pwr with queue := f s.pwr.queue, waiting := f s.pwr.waiting } }

/-- What the copy into the spare row makes of a word: the wear word starts at 0 (R322); corrected where it was CORRECTED; in a
repair-map row the other copy's word where it reads UNCORR (R330, R479). -/
def copyCell (n : Nvm) (l : Nat) (c : NvCell) : NvCell :=
  if locBank l == 3 && locRow l ≤ 143 && locWord l == 511 && c != .erased then .clean 0#40
  else match c with
  | .corrected w => .clean w
  | .uncorr w =>
    if locBank l ≤ 1 && 816 ≤ locRow l && locRow l ≤ 831 then
      match nvWord n (locOf (1 - locBank l) (locRow l) (locWord l)) with | some v => .clean v | none => .uncorr w
    else .uncorr w
  | y => y

/-- A word of the row under retirement is copied to the spare row (Table 8-5 steps 2 and 4). -/
def putCopy (n : Nvm) (l : Nat) : Nvm :=
  match n.retire with
  | none => n
  | some r =>
    let c := copyCell n l (tget .erased n.cells l)
    { n with spareCells := tset .erased n.spareCells (spareKey r.bank r.spare (locWord l)) c }

/-- What a program leaves in its word: the new codeword, or where its verify differs an open pattern (R304). A program to a row
under retirement is logged, whatever its verify finds (R332). -/
def programWord (s : State) (t : Store) (x : Nat × Word) (differs : Bool) : State :=
  if t.owner == .retireCopy then (if differs then s else { s with nvm := putCopy s.nvm x.1 })
  else
    let s := if differs then tearWord s x else { s with nvm := nvPut s.nvm x.1 x.2 }
    let s := markW0 { s with nvm := retireLog s.nvm x.1 } t x.1 (!differs)
    if t.owner == .scrubRewrite then s else dropRewrites s x.1

/-- The first word of a unit that holds another value. -/
def onceDiffers (n : Nvm) (ws : List (Nat × Word)) : Nat × Word :=
  (ws.find? (fun x => cellAt' n x.1 != .erased && nvRaw n x.1 != x.2)).getD (ws.headD (0, 0#40))

/-- A word program and its verify end their turn (R304): the bank is released, the second store or the rest of the store
asking first. -/
def wordTurn (s : State) (b : Nat) (t : Store) (x : Nat × Word) (o : WordOut) : State :=
  let s := dropHand s b
  let old := wearWord s.nvm (locRow x.1)
  let s := match o with
    | .refused => onceWritten s (onceDiffers s.nvm t.words).1 (onceDiffers s.nvm t.words).2
    | .skipped => s
    | .programmed => programWord s t x false
    | .differs => programWord s t x true
  let s := match o with
    | .programmed => { s with nvm := countStore s.nvm t x.1 old }
    | _ => s
  if o == .refused then s
  else if o == .differs && !t.second then secondStore s b t
  else storeRest s t

/-! Erase sequences. -/

/-- The last row of an image region, and its first. -/
def imgRows (engine : Bool) : Nat × Nat := if engine then (768, 799) else (0, 767)

/-- The index of an image region in Tables 8-13 and 11-9: keeper A, engine A, keeper B, engine B. -/
def imgIndex (slot : Nat) (engine : Bool) : Nat := 2 * slot + b2n engine

/-- The erase of an image region goes on with its next row, or ends and is counted (R323, Table 25-8); an erase of an
abandoned write ends with its row. -/
def imageErased (s : State) (slot row : Nat) : State :=
  let g := s.svc.img
  if g.st != 1 || g.row != row || imgIndex g.slot g.engine != slot then s
  else if row < (imgRows g.engine).2 then
    requestErase { s with svc := { s.svc with img := { g with row := row + 1 } } } g.slot (row + 1) (.eraseImage slot)
  else
    let l := locOf 3 0 (10 + slot)
    let n := match nvWord s.nvm l with | some w => satTo 1023 w.toNat | none => 0
    storeWord { s with svc := { s.svc with img := { g with st := 2 } } } (.slotCount slot) l (pw (satAdd 1023 n 1))

/-- A blank row: its owner goes on (R305). -/
def eraseDone (s : State) (b : Nat) (e : EraseSeq) : State :=
  let x := getBank s.nvm b
  let s := { s with nvm := nvErase (setBank s.nvm b { x with erase := none }) b e.row }
  match e.owner with
  | .eraseRing =>
    if e.row == 32 + s.recr.aheadRow then { s with recr := { s.recr with aheadOk := true, aheadChecked := true } } else s
  | .eraseImage i => imageErased s i e.row
  | _ => s

/-- A row whose erase has failed and that no spare can stand in for: the recorder skips it (R421), and an image region goes on
with its next row (assumption 15). -/
def eraseSkipped (s : State) (row : Nat) (o : Owner) : State :=
  match o with
  | .eraseRing => skipRow s (row - 32)
  | .eraseImage i => imageErased s i row
  | _ => s

/-- A failed erase sequence (R305, R329): the row is retired and erased again in its spare. -/
def eraseFailed (s : State) (b : Nat) (e : EraseSeq) : State :=
  let x := getBank s.nvm b
  let out := decide (x.spares.length ≥ 32)
  let n := setBank s.nvm b { x with erase := none }
  let s := wantRetire { s with nvm := { n with torn := locOf b e.row 0 :: n.torn } } b e.row
  if out then eraseSkipped s e.row e.owner else requestErase s b e.row e.owner

/-- No spare row is left for a row whose retirement was due: a failed erase that waits for it is given up (R421), and any other
erase of the row goes on. -/
def sparesGone (s : State) (b row : Nat) : State :=
  let s := raiseU s 0x24 (pw (locOf b row 0))
  let x := getBank s.nvm b
  match x.eraseWait.find? (fun e => e.1 == row) with
  | some e =>
    if s.nvm.torn.contains (locOf b row 0) then
      nextErase (eraseSkipped { s with nvm := setBank s.nvm b { x with eraseWait := removeFirst (fun y => y == e) x.eraseWait } } row e.2) b
    else nextErase s b
  | none => nextErase s b

/-- An erase pulse and its blank check end (R305, R306). -/
def pulseEnd (s : State) (b : Nat) (e : EraseSeq) (blank : Bool) : State :=
  let s := dropHand s b
  let x := getBank s.nvm b
  let e := { e with pulses := e.pulses + 1 }
  let s := { s with nvm := setBank s.nvm b { x with erase := some e } }
  if blank then
    let s := checkWear (eraseDone s b e) b e.row
    bankRelease (nextErase s b) b
  else if e.pulses ≥ 16 then bankRelease (nextErase (eraseFailed s b e) b) b
  else
    let s := if s.pwr.pfw then s else requestStore s { kind := .erase, owner := e.owner, bank := b, row := e.row }
    bankRelease s b

/-! Scrub. -/

/-- Words of a bank. -/
def bankWords : Nat := 524288

/-- What the word's cells have become since they were last read: CORRECTED with the same data, or UNCORR with open data. -/
def degrade (s : State) (x : Nat × Bool) : State :=
  let c := tget .erased s.nvm.cells x.1
  let put := fun (t : State) (y : NvCell) => { t with nvm := { t.nvm with cells := tset .erased t.nvm.cells x.1 y } }
  if x.2 then
    let (f, s) := takeFree s
    put s (.uncorr f)
  else match c with
    | .clean w => put s (.corrected w)
    | _ => s

def degrades (s : State) : List (Nat × Bool) → State
  | [] => s
  | x :: xs => degrades (degrade s x) xs

/-- CORRECTED words of a row found in this pass. -/
def rowCorr (n : Nvm) (l : Nat) : Nat := (n.corrNow.filter (fun k => k / 512 == l / 512)).length

/-- The scrubber reads one word (R326, R329, R342). -/
def scrubWord (s : State) (l : Nat) : State :=
  if isErasing s.nvm (locBank l) (locRow l) then s
  else
    match cellAt' s.nvm l with
    | .corrected w =>
      let s := correctedFound s l
      let s := { s with nvm := { s.nvm with corrNow := l :: s.nvm.corrNow } }
      let s := if s.pwr.pfw then s else storeWord s .scrubRewrite l w
      if rowCorr s.nvm l ≥ 4 || s.nvm.corrLast.contains l then wantRetire s (locBank l) (locRow l) else s
    | .uncorr _ => uncorrFound s l
    | _ => s

def scrubWords (s : State) : List Nat → State
  | [] => s
  | l :: ls => scrubWords (scrubWord s l) ls

/-- One packet of a bank: 16 words, ascending (R325). -/
def scrubPacket (s : State) (b : Nat) : State :=
  let x := getBank s.nvm b
  if x.scrubAt ≥ bankWords then s
  else
    let s := scrubWords s (rangeFrom (b * bankWords + x.scrubAt) 16)
    let y := getBank s.nvm b
    { s with nvm := setBank s.nvm b { y with scrubAt := y.scrubAt + 16 } }


/-- The bank that is furthest behind in the pass. -/
def scrubLag (n : Nvm) : Nat := min (min n.bank0.scrubAt n.bank1.scrubAt) (min n.bank2.scrubAt n.bank3.scrubAt)

/-- The progress word (R327). -/
def progressWord (n : Nvm) : Word := packW [(39, 16, n.scrubFrom / 3600), (15, 4, n.scrubPass % 4096)]

/-- After each 1/64 of a pass in every bank the progress is stored, outside warnings (R327, R333); the first argument bounds the
points. -/
def scrubProgress : Nat → State → State
  | 0, s => s
  | k + 1, s =>
    let m := s.nvm.scrubMark
    if scrubLag s.nvm / 8192 ≤ m then s
    else
      let s := { s with nvm := { s.nvm with scrubPoint := m, scrubMark := m + 1 } }
      scrubProgress k (if s.pwr.pfw then s else storeWord s .scrubProgress (locOf 3 1008 m) (progressWord s.nvm))

def setScrubAt (n : Nvm) (k : Nat) : Nvm :=
  { n with
    scrubGoal := k
    bank0 := { n.bank0 with scrubAt := k }
    bank1 := { n.bank1 with scrubAt := k }
    bank2 := { n.bank2 with scrubAt := k }
    bank3 := { n.bank3 with scrubAt := k } }

/-- The pass ends when every bank has ended it; all four start the next one together (R325, R328). -/
def scrubPassEnd (s : State) : State :=
  if scrubLag s.nvm < bankWords then s
  else
    let n := { setScrubAt s.nvm 0 with
      scrubPass := s.nvm.scrubPass + 1
      scrubMark := 0
      scrubLastMin := satTo 1048575 ((s.cal.opSec - s.nvm.scrubFrom) / 60)
      scrubFrom := s.cal.opSec
      corrLast := s.nvm.corrNow
      corrNow := []
      late := false }
    causeOff { s with nvm := n } 0x25

/-- The read turn in hand of a bank ends: a packet of the scrubber, with the progress it makes (R327), of a retirement's
read-back, or of a recorder read. -/
def readEnd (s : State) (b : Nat) (t : Store) : State :=
  let s := if t.owner == .scrubRead then scrubPassEnd (scrubProgress 64 (scrubPacket s b)) else s
  bankRelease (dropHand s b) b

/-- Read turns of an owner that the bank serves one after the other; the first argument bounds them. -/
def readsRun (b : Nat) (o : Owner) : Nat → State → State
  | 0, s => s
  | k + 1, s =>
    match (getBank s.nvm b).hand with
    | none => s
    | some t => if t.kind == .read && t.owner == o then readsRun b o k (readEnd s b t) else s

/-- Read packets of an owner ask for turns of a bank. -/
def askReads (s : State) (b : Nat) (o : Owner) (k : Nat) : State :=
  let x := getBank s.nvm b
  let new := List.replicate k { kind := .read, owner := o, bank := b }
  bankAsk { s with nvm := setBank s.nvm b { x with turns := x.turns ++ new } } b

/-- A read packet of the recorder waits for bank 2, or has its turn. -/
def recReading (s : State) : Bool :=
  let x := s.nvm.bank2
  x.turns.any (fun t => t.owner == .recRead) || (match x.hand with | some t => t.owner == .recRead | none => false)

/-- Read packets of 16 words that n stored records take. -/
def recPackets (n : Nat) : Nat := (5 * n + 15) / 16

/-- The recorder's read packets for n records have their turns of bank 2 at once; none where they would wait for another
requester or for a freeze. -/
def recReads (s : State) (n : Nat) : Option State :=
  let t := readsRun 2 .recRead (recPackets n + 1) (askReads s 2 .recRead (recPackets n))
  if recReading t then none else some t

/-- Read turns of the scrubber that wait or are in hand. -/
def scrubWaits (x : Bank) : Nat :=
  (x.turns.filter (fun t => t.owner == .scrubRead)).length +
    (match x.hand with | some t => b2n (t.owner == .scrubRead) | none => 0)

/-- A bank asks for the packets between it and the schedule, up to 8 in succession (R325). -/
def scrubBank (s : State) (b : Nat) : State :=
  let x := getBank s.nvm b
  let k := min 8 ((min bankWords s.nvm.scrubGoal - x.scrubAt + 15) / 16) - scrubWaits x
  readsRun b .scrubRead 9 (askReads s b .scrubRead k)

def scrubBanks (s : State) : List Nat → State
  | [] => s
  | b :: bs => scrubBanks (scrubBank s b) bs

/-! Row retirement (Table 8-5). -/

/-- The lowest-numbered unused spare row of a bank. -/
def freeSpare (x : Bank) : Option Nat := (rangeFrom 0 32).find? (fun k => !x.spares.contains k)

/-- The journal word (R331; its layout with the sequence number: assumption 9). -/
def journalWord (r : Retire) (done : Bool) : Word :=
  packW [(1, 0, r.bank), (11, 2, r.row), (16, 12, r.spare), (17, 17, b2n done), (39, 20, r.seq)]

def journalLoc (slot : Nat) : Nat := locOf 3 1008 (64 + slot % 64)

/-- The journal word that a retirement begins in; the next one follows in turn (R331). -/
def takeSlot (n : Nvm) : Nvm := { n with journalNext := (n.journalNext + 1) % 64, journalSeq := n.journalSeq + 1 }

/-- A spare row is taken. -/
def takeSpare (n : Nvm) (b k : Nat) : Nvm :=
  let x := getBank n b
  setBank n b { x with spares := k :: x.spares }

/-- NVM_SPARES_LOW, once per start and bank (R335). -/
def sparesCheck (s : State) (b : Nat) : State :=
  let x := getBank s.nvm b
  if x.spares.length ≥ 28 && !x.sparesLow then
    raiseU { s with nvm := setBank s.nvm b { x with sparesLow := true } } 0x23 (pw b)
  else s

def setRetire (s : State) (r : Option Retire) : State := { s with nvm := { s.nvm with retire := r } }

/-- A turn or waiting store of the retirement in hand. -/
def retireOwner (t : Store) : Bool :=
  match t.owner with | .journal _ | .retireCopy | .retireRead | .retireMap => true | _ => false

/-- A store or read of the retirement is still on its way. -/
def retireBusy (s : State) : Bool :=
  (rangeFrom 0 4).any (fun b =>
    let x := getBank s.nvm b
    x.turns.any retireOwner || (match x.hand with | some t => retireOwner t | none => false)) ||
    s.pwr.queue.any retireOwner || s.pwr.waiting.any retireOwner

/-- A repair-map copy is intact: MAGIC and every entry read CLEAN or CORRECTED (R478). -/
def copyIntact (n : Nvm) (copy indices : Nat) : Bool :=
  nvWord n (mapLoc copy 0) == some 0x4D50525747#40 &&
    (rangeFrom 2 indices).all (fun i => (nvWord n (mapLoc copy i)).isSome)

/-- REPAIR_MAP_COPY goes once both copies are intact (R479). -/
def mapRestored (s : State) (b row : Nat) : State :=
  if b ≤ 1 && 816 ≤ row && row ≤ 831 then
    let a := copyIntact s.nvm 0 s.prf.indices
    let c := copyIntact s.nvm 1 s.prf.indices
    let s := { s with prf := { s.prf with mapA := a, mapB := c } }
    if a && c then causeOff s 0x1A else s
  else s

/-- The repair-map entry of a retired row (Table 12-5, KIND 4). -/
def rowEntry (b row spare : Nat) : Word := mapEntry 4 (b * 2097152 + row * 1024 + spare)

/-- The row is redirected to its spare at the second copy's verify (Table 8-5 step 4): the mapped row holds what the spare
holds, the spare's count starts at 0 (R322), and the freeze is cleared. -/
def redirectCells (n : Nvm) (r : Retire) : Nvm :=
  { enterSpare n r.bank r.row r.spare with retired := true }

/-- A wear store of a row waits. -/
def wearOf (row : Nat) (t : Store) : Bool := t.owner == .wear && (t.words.map (·.1)).head? == some (wearLoc row)

/-- The spare row's count starts at 0 (R322): a wear store that waits counts the pass that it belongs to alone. -/
def wearReset (s : State) (row : Nat) : State :=
  let f := fun (ts : List Store) => ts.map (fun t => if wearOf row t then { t with words := [(wearLoc row, 1#40)] } else t)
  let x := getBank s.nvm 3
  let due := (x.turns ++ s.pwr.queue ++ s.pwr.waiting).any (wearOf row)
  let n := setBank s.nvm 3 { x with turns := f x.turns }
  { s with
    nvm := { n with wearPend := tset 0 n.wearPend (wearLoc row) (b2n due) }
    pwr := { s.pwr with queue := f s.pwr.queue, waiting := f s.pwr.waiting } }

def redirectRow (s : State) (r : Retire) : State :=
  let c := rawCycles s r.bank r.row
  let s := { s with nvm := redirectCells s.nvm r }
  let s := if r.bank == 3 && r.row ≤ 143 then wearReset s r.row
    else { s with nvm := { s.nvm with wearBase := tset 0 s.nvm.wearBase (locOf r.bank r.row 0) c } }
  let s := mapRestored s r.bank r.row
  clearFreeze (setRetire s (some { r with step := 5 })) (8 + r.bank)

/-- The next word that step 2 copies: one that is ERASED in both rows needs no copy. -/
def nextCopy (n : Nvm) (r : Retire) : Option Nat :=
  (rangeFrom r.copied (512 - r.copied)).find? (fun w =>
    tget .erased n.cells (locOf r.bank r.row w) != .erased || tget .erased n.spareCells (spareKey r.bank r.spare w) != .erased)

/-- A copy into the spare row asks for its turn, a background store (R330). -/
def askCopy (s : State) (l : Nat) : State :=
  requestStore s { kind := .word, owner := .retireCopy, words := [(l, nvRaw s.nvm l)] }

/-- What the present step of Table 8-5 asks for. Step 3's read-back is judged by ROW_RETIREMENT. -/
def retireAsk (s : State) (r : Retire) : State :=
  match r.step with
  | 1 => storeWord s (.journal r.slot) (journalLoc r.slot) (journalWord r false)
  | 2 =>
    match nextCopy s.nvm r with
    | some w => askCopy (setRetire s (some { r with copied := w })) (locOf r.bank r.row w)
    | none => setRetire s (some { r with step := 3, copied := 512, reads := (packetLens 512).length })
  | 3 => askReads (setRetire s (some { r with reads := 0 })) r.bank .retireRead r.reads
  | 4 =>
    if s.prf.noMap then setRetire (clearFreeze s (8 + r.bank)) none
    else
      let s := setFreeze s (8 + r.bank)
      if !drained (getArb s (8 + r.bank)) then s
      else
        match r.log with
        | l :: _ => askCopy s l
        | [] => mapStoreAs s .retireMap (rowEntry r.bank r.row r.spare)
  | _ => storeWord s (.journal r.slot) (journalLoc r.slot) (journalWord r true)

/-- A retirement ends: the record, the spares left, the erases that waited (Table 8-5 step 5, R332, R335). -/
def retireDone (s : State) (r : Retire) : State :=
  let s := addRecord (setRetire s none) 0x5001 4 (pw (locOf r.bank r.row 0)) (pw r.spare)
  nextErase (sparesCheck s r.bank) r.bank

/-- A store of the retirement in hand has completed. -/
def retireStored (s : State) (o : Owner) (l : Nat) : State :=
  match s.nvm.retire with
  | none => s
  | some r =>
    match o with
    | .journal slot =>
      if slot != r.slot then s
      else if r.step == 1 then setRetire s (some { r with step := 2, copied := 0, log := [] })
      else if r.step == 5 then retireDone s r
      else s
    | .retireCopy =>
      if r.step == 2 then
        let r := { r with copied := locWord l + 1 }
        if s.pwr.pfw then setRetire s (some r) else retireAsk (setRetire s (some r)) r
      else
        let r := { r with log := r.log.filter (· != l) }
        if s.pwr.pfw then setRetire s (some r) else retireAsk (setRetire s (some r)) r
    | .retireMap => if locBank l == 1 then redirectRow s r else s
    | _ => s

/-- A spare row that reads back wrong is marked used in the map, and the next one is taken (R472). -/
def retireSpareBad (s : State) (r : Retire) : State :=
  match freeSpare (getBank s.nvm r.bank) with
  | none => sparesGone (setRetire s none) r.bank r.row
  | some k =>
    let s := mapStore s (rowEntry r.bank (1024 + r.spare) r.spare)
    let r := { r with step := 1, spare := k, slot := s.nvm.journalNext, seq := s.nvm.journalSeq }
    setRetire { s with nvm := takeSlot (takeSpare s.nvm r.bank k) } (some r)

/-- The retirement in hand goes on: `differs` tells the result of step 3's read-back. -/
def retireStep (s : State) (r : Retire) (differs : Bool) : State :=
  let s := readsRun r.bank .retireRead 33 s
  if retireBusy s then s
  else if r.step == 3 && r.reads == 0 then
    if differs then retireSpareBad s r
    else
      let r := { r with step := 4 }
      retireAsk (setRetire s (some r)) r
  else retireAsk s r

/-- A retirement whose journal word stands goes on from step 2, any other from step 1 (R331). -/
def resumed (n : Nvm) (r : Retire) : Retire :=
  { r with step := if nvWord n (journalLoc r.slot) == some (journalWord r false) then 2 else 1 }

/-- A retirement begins with the first row that waits (R329). -/
def retireNext (s : State) : State :=
  match s.nvm.retire, s.nvm.journaled, s.nvm.retireWait with
  | none, r :: rs, _ => setRetire { s with nvm := { s.nvm with journaled := rs } } (some (resumed s.nvm r))
  | none, [], (b, row) :: rest =>
    let s := { s with nvm := { s.nvm with retireWait := rest } }
    match freeSpare (getBank s.nvm b) with
    | none => sparesGone s b row
    | some k =>
      let r : Retire := { bank := b, row := row, spare := k, slot := s.nvm.journalNext, seq := s.nvm.journalSeq }
      setRetire { s with nvm := takeSlot (takeSpare s.nvm b k) } (some r)
  | _, _, _ => s

/-! What a completed store means to its owner. -/

/-- What the last word of a store completes for its owner. -/
def ownerDone (s : State) (t : Store) (x : Nat × Word) : State :=
  match t.owner with
  | .powerCycle => { s with pwr := { s.pwr with pccStored := true } }
  | .layoutId => if locWord x.1 == 9 then { s with nvm := { s.nvm with pidWait := false } } else s
  | .chunk => recStored s x
  | .calHistory => { s with nvm := { s.nvm with calLast := some (511 * (locRow x.1 - 128) + locWord x.1) } }
  | .journal _ | .retireCopy | .retireMap => retireStored s t.owner x.1
  | _ => s

/-- A word program and its verify complete in their turn (R304): what follows for the bank, the row and the owner. -/
def wordEnd (s : State) (b : Nat) (t : Store) (x : Nat × Word) (differs : Bool) : State :=
  let o := wordOut s.nvm t x differs
  let s := bankRelease (wordTurn s b t x o) b
  -- the second copy of a repair-map unit lies in the other bank
  let s := match t.words.tail with | [] => s | w :: _ => if locBank w.1 == b then s else bankAsk s (locBank w.1)
  let s := if o == .differs && t.second then wantRetire s b (locRow x.1) else s
  let s := if o == .programmed || o == .skipped then ownerDone s t x else s
  chunkOver (checkWear s b (locRow x.1))

/-- The words of the chunk in hand take their turns one after the other, each verifying (R393); the first argument bounds
them. A turn of another requester, or a second store, stops the run. -/
def chunkRun : Nat → State → State
  | 0, s => s
  | k + 1, s =>
    match (getBank s.nvm 2).hand with
    | some t =>
      match t.kind, t.words with
      | .chunk, x :: _ => if t.second then s else chunkRun k (wordEnd s 2 t x false)
      | _, _ => s
    | none => s

/-! Clearing the ring (R407 to R410). -/

/-- The clear itself, once no chunk is in progress: the number of records that stop being present, and the state after it. -/
def startClear (s : State) (port : Word) : Nat × State :=
  let s := { s with recr := { s.recr with lastClear := some s.now } }
  if s.recr.etchedNext < 2048 then (0, beginChunk s chunkStore [clearedRecord s port 0] none)
  else
    let n := ringCount s
    let x := clearedRecord s port n
    let r := sectorOpened s.recr
    let s := { s with recr := { r with oldest := 2048 + 64 * (r.seq - 1) } }
    (n, eraseNext (beginChunk s chunkStore [x] (some (presentHeader s.recr true))))

/-- The refusals of Table 10-6, and before the gate has passed that of R98; the fourth of the table is found as the chunk
starts. -/
def clearRefusal (s : State) : Option Nat :=
  let soon := match s.recr.lastClear with | none => false | some t => decide (s.now < t + 60000000)
  let service := s.start.state == .bootService || s.start.state == .fatalService
  if soon || s.pwr.pfw || service then some stBusy else if !s.pwr.gate then some stEnergy else none

/-- The clear may take place: the recorder may start a chunk, between two others (R408, R415), and has the slot that it needs: a
free etched slot once the blank check of R424 has been made, or the ahead sector, whose erase has ended (R392). -/
def clearReady (s : State) : Bool :=
  chunkMay s && s.recr.aheadChecked && (decide (s.recr.etchedNext < 2048) || s.recr.aheadOk)

/-- The first turn of the chunk in progress has started. -/
def chunkStarted (s : State) : Bool :=
  match s.nvm.bank2.hand with | some t => t.owner == .chunk | none => false

/-- The clears that wait are answered in order (R407): refused, or made where the chunk with RING_CLEARED can start at once;
otherwise they wait on (DEDUCED, assumption 16). The first argument bounds them. -/
def clearServe : Nat → State → State
  | 0, s => s
  | k + 1, s =>
    match s.recr.clears with
    | [] => s
    | c :: cs =>
      let rest := fun (t : State) => { t with recr := { t.recr with clears := cs } }
      match clearRefusal s with
      | some st =>
        let t := rest s
        clearServe k (clearAnswer (if st == stEnergy then energyRefused t chunkStore else t) c st 0)
      | none =>
        let s := if chunkMay s then aheadCheck s else s
        if !clearReady s then s
        else
          let s := readPin s
          if !canStore s chunkStore then clearServe k (clearAnswer (energyRefused (rest s) chunkStore) c stEnergy 0)
          else
            let (n, t) := startClear (rest s) c.port
            if chunkStarted t then clearServe k (clearAnswer t c stOk n) else s

/-- Every clear that waits is looked at. -/
def clearsServe (s : State) : State := clearServe s.recr.clears.length s

/-- A clear by any port (R407): it is answered as it is refused, or as its chunk has started. -/
def recClear (s : State) (c : ClearReq) : State :=
  clearsServe { s with recr := { s.recr with clears := s.recr.clears ++ [c] } }

/-! The periodic pass (R319 to R324). -/

/-- Location of persistent item p (R303). -/
def itemLoc (p : Nat) : Nat := locOf 3 (1 + p / 511) (p % 511)

/-- The plate's kind of a persistent item; none where it declares none. -/
def itemKind (s : State) (p : Nat) : Option Nat := (s.plt.plate.pitems.find? (·.index == p)).map (·.kind)

/-- Items whose value differs from the stored one, with their kinds and locations (R108, R319). -/
def itemChanges (s : State) : List (Nat × Nat × Word) :=
  s.nvm.items.filterMap (fun e =>
    match e.2, itemKind s e.1 with
    | some w, some k => if nvWord s.nvm (itemLoc e.1) == some w then none else some (e.1, k, w)
    | _, _ => none)

/-- The wear word that a pass stores for a row: k more, the pending count, and the further increment of R320 in the first
pass of a start. The increments stay pending until the word is stored, so that a word that a full queue or a warning drops
loses none (R102, R109). -/
def wearStore (s : State) (row k : Nat) : State :=
  let s := { s with nvm := wearAdd s.nvm row (k + (if s.nvm.passed then 0 else 1)) }
  storeWord s .wear (wearLoc row) (pw (wearWord s.nvm row + tget 0 s.nvm.wearPend (wearLoc row)))

/-- The pass stores the changed words of one row, then its wear word. -/
def passRow (s : State) (cs : List (Nat × Nat × Word)) (row : Nat) : State :=
  let xs := cs.filter (fun c => locRow (itemLoc c.1) == row)
  if xs.isEmpty then s
  else
    let s := xs.foldl (fun (t : State) c => storeWord t (.persistent c.1 c.2.1) (itemLoc c.1) c.2.2) s
    wearStore s row 1

def passRows (s : State) (cs : List (Nat × Nat × Word)) : List Nat → State
  | [] => s
  | r :: rs => passRows (passRow s cs r) cs rs

/-- Location of entry k of the calibration-history sequence (R321). -/
def calLoc (k : Nat) : Nat := locOf 3 (128 + k / 511 % 16) (k % 511)

/-- Entries of the sequence are stored at their places; `pass` tells a periodic pass from a flush. -/
def calStores (s : State) (pass : Bool) : List Word → State
  | [] => s
  | w :: ws =>
    let k := s.nvm.calNext
    let row := 128 + k / 511 % 16
    let s := storeWord { s with nvm := { s.nvm with calNext := (k + 1) % 8176 } } .calHistory (calLoc k) w
    let s := if k % 511 != 0 then s else if pass then wearStore s row 1 else { s with nvm := wearAdd s.nvm row 1 }
    calStores s pass ws

/-- Rows of the calibration history that the waiting entries reach without their first word: the further increment of R320
applies to them too. -/
def calFirst (s : State) : List Nat :=
  let rows := ((rangeFrom s.nvm.calNext s.nvm.calWait.length).map (fun k => 128 + k / 511 % 16)).eraseDups
  if s.nvm.passed then [] else rows.filter (fun r =>
    !(rangeFrom s.nvm.calNext s.nvm.calWait.length).any (fun k => k % 511 == 0 && 128 + k / 511 % 16 == r))

/-- The wear word of such a row with the further increment alone. -/
def wearFurther (s : State) (row : Nat) : State := wearStore s row 0

/-- The plate's persistent layout identity, stored by the pass (R324). -/
def passLayout (s : State) : State :=
  if !s.nvm.pidWait then s
  else
    let h := s.plt.plate.hdr
    let s := storeWord s .layoutId (locOf 3 0 8) (h.getD 4 0#40)
    wearStore (storeWord s .layoutId (locOf 3 0 9) (h.getD 5 0#40)) 0 1

/-- The periodic pass. -/
def persistentPass (s : State) : State :=
  let s := passLayout s
  let s := passRows s (itemChanges s) (rangeFrom 1 127)
  let s := (calFirst s).foldl wearFurther s
  let es := s.nvm.calWait
  let s := calStores { s with nvm := { s.nvm with calWait := [] } } true es
  { s with nvm := { s.nvm with passed := true, lastPass := s.now } }

/-! The power-fail flush (Table 3-7). -/

/-- The step of Table 3-7 that an owner's stores belong to. -/
def flushStepOf (o : Owner) : Nat :=
  match o with
  | .powerCycle => 0
  | .chunk | .mirror => 1
  | .opSeconds => 2
  | .authCount _ => 4
  | .persistent _ k => 4 + k
  | _ => 8

/-- Stores of a step that wait for a turn of their bank, or are in hand. -/
def flushTurns (s : State) (k : Nat) : Bool :=
  let f := fun (t : Store) => t.kind != .erase && t.kind != .read && listed37 t.owner && flushStepOf t.owner == k
  (rangeFrom 0 4).any (fun b => (getBank s.nvm b).turns.any f || (match (getBank s.nvm b).hand with | some t => f t | none => false))

/-- Stores of a step that wait. -/
def flushQueued (s : State) (k : Nat) : Bool :=
  (s.pwr.queue ++ s.pwr.waiting).any (fun t => flushStepOf t.owner == k)

/-- No erased slot is left for another record (R398). -/
def noSlot (s : State) : Bool := sectorFull s && !s.recr.aheadOk

/-- The chunk in progress waits in the store queue, refused as its turn started (R397). -/
def chunkBack (s : State) : Bool := (s.pwr.queue ++ s.pwr.waiting).any (fun t => t.kind == .chunk && !t.words.isEmpty)

/-- A step is finished, or can store nothing more (R107, R398). -/
def flushOver (s : State) (k : Nat) : Bool :=
  if k == 1 || k == 3 then
    if s.recr.chunk.isSome then chunkBack s && !canStore s chunkStore
    else (chunkFrom s).isEmpty || noSlot s || !canStore s chunkStore
  else !flushTurns s k && (!flushQueued s k || decide (s.pwr.energyUj < 2 * eWord))

/-- A store of step 4. -/
def flushWord (s : State) (o : Owner) (l : Nat) (w : Word) : State :=
  requestStore s { kind := .word, owner := o, words := [(l, w)], flush := true }

/-- The changed items of a kind. -/
def flushItems (s : State) : List (Nat × Nat × Word) → State
  | [] => s
  | c :: cs => flushItems (flushWord s (.persistent c.1 c.2.1) (itemLoc c.1) c.2.2) cs

/-- Failed-authentication words that differ from the stored ones (step 4a, R965). -/
def storeAuth (s : State) (flush : Bool) : List (Nat × Option Word) → State
  | [] => s
  | (k, v) :: ks =>
    storeAuth (match v with
      | none => s
      | some w =>
        if nvWord s.nvm (locOf 3 0 k) == some w then s
        else if flush then flushWord s (.authCount k) (locOf 3 0 k) w
        else storeWord s (.authCount k) (locOf 3 0 k) w) flush ks

/-- A record step begins: the recorder looks whether the ahead sector is erased (R398, R424). -/
def flushChunks (s : State) : State := startFlush (if s.recr.located then aheadCheck s else s)

/-- The work of a step as it begins. -/
def flushBegin (s : State) (k : Nat) : State :=
  match k with
  | 1 => flushChunks s
  | 2 => storeWord s .opSeconds (nextRot s.nvm 0 (·.toNat)) (pw s.cal.opSec)
  | 3 => flushChunks s
  | 4 => storeAuth { s with nvm := { s.nvm with flushRows := [] } } true s.svc.authWords
  | 5 => flushItems s ((itemChanges s).filter (fun c => c.2.1 == 1))
  | 6 => flushItems s ((itemChanges s).filter (fun c => c.2.1 == 2))
  | 7 => flushItems s ((itemChanges s).filter (fun c => c.2.1 == 3))
  | 8 =>
    let es := s.nvm.calWait
    calStores { s with nvm := { s.nvm with calWait := [] } } false es
  | _ => s

/-- The flush passes to its next step (R107, R115). Nothing is stored before the gate has passed (R120). -/
def flushStep (s : State) : State :=
  match s.pwr.flush with
  | none => s
  | some k =>
    if !s.pwr.gate then (if s.pwr.pfw then s else { s with pwr := { s.pwr with flush := none } })
    else if !flushOver s k then s
    else if !s.pwr.pfw || k ≥ 8 then { s with pwr := { s.pwr with flush := none } }
    else flushBegin { s with pwr := { s.pwr with flush := some (k + 1) } } (k + 1)

/-! The store queue (R100 to R104). -/

/-- The entry that is retried: the head; in a flush the first of the present step or of one before it (R107). -/
def retryPick (s : State) : Option Store :=
  match s.pwr.pfw, s.pwr.flush with
  | true, some k => (s.pwr.queue.filter (fun t => decide (flushStepOf t.owner ≤ k))).head?
  | _, _ => s.pwr.queue.head?

/-- HOLDUP_LOW's cause goes with the last entry (R104). -/
def queueGone (s : State) : State := if queueTaken s == 0 then causeOff s 0x26 else s

/-- The retry of an entry (R100): it is passed to its bank where E allows it; a chunk takes the records of the buffer. -/
def retryStore (s : State) (t : Store) : State :=
  if mayStoreNow s && canStore s t then
    let s := { s with pwr := { s.pwr with queue := removeFirst (fun x => decide (x = t)) s.pwr.queue } }
    queueGone (refillQueue (if t.kind == .chunk && t.words.isEmpty then tryChunk s t else startStore s t))
  else energyRefused s t

/-- The entries of the queue, those passed to their banks included. -/
def queueEntries (s : State) : List Store :=
  s.pwr.queue ++ (rangeFrom 0 4).flatMap (fun b => (getBank s.nvm b).turns.filter passedOn)

/-- The longest wait of an entry outside warnings in µs (R104). -/
def headWait (s : State) : Nat :=
  (queueEntries s).foldl (fun m t => max m ((s.now - t.since.getD s.now) - (warnUs s - t.warn))) 0

end Sys2Proof.Machine
end

