-- ==== Sys2Proof/Machine/Can.lean ====
section
/-! DEFINITION. CAN controllers (chapter 23): MAILBOX_LOAD, MAILBOX_ABORT, FRAME_TRANSMITTED, CAN_ERROR,
RECOVERY_DELAY_END, RECOVERY_COMPLETE, MOORED_JOIN, PROTOCOL_EXCEPTION, BUS_INTEGRATION, BUS_LOAD_WINDOW. -/

namespace Sys2Proof.Machine

open Sys2Proof

/-- The island of controller n takes part: neither STOPPED nor in RESYNC, and the chip runs. -/
def canRuns (s : State) (n : Nat) : Bool := decide (n < 4) && !s.rst.held && !s.flt.fatal && islRuns s (1 + n)

/-! Transmission. -/

/-- The mailbox takes the frame; telemetry and frames to the host are counted. -/
def mbTake (s : State) (n m : Nat) (e : LoadEnt) : State :=
  let x := getCan s n
  let f := { e.frame with data := refreshed s e.frame.data e.stat }
  let old := x.telem.filter (fun t => decide (s.now < t.1 + 1000000))
  let y := { x with
    mbs := tset none x.mbs m (some { frame := f })
    telem := if e.telem then old ++ [(s.now, frameTimeQ x f)] else old
    hostAt := if e.host.isSome then hostRecent s x ++ [s.now] else hostRecent s x }
  canDecide (setCan s n y) n

/-- The next frame of the recorder transfer enters an empty load queue while a telemetry mailbox is free for it (R929, R931), once
its records have been read from bank 2; unreadable words are found (R419). -/
def xferLoad (s : State) (n : Nat) : State :=
  match s.syn.xfer with
  | none => s
  | some x =>
    if n != hostBus s || !synServes s n || !(getCan s n).load.isEmpty then s
    else
      let (f, x') := xferFrame s n x
      let e : LoadEnt := { frame := f, telem := true }
      if !loadFits s n e || (mbFor s n e).isNone then s
      else
        match recReads s (xferLocs s x).length with
        | none => s
        | some t => entryFaultsAll (setCan { t with syn := { t.syn with xfer := x' } } n { getCan t n with load := [e] }) (xferLocs s x)

/-- The load queue with every frame in it that may go: what the keeper holds, and into an empty queue the next frame of a
recorder transfer. -/
def loadReady (s : State) (n : Nat) : State := xferLoad (canPump s n) n

/-- MAILBOX_LOAD (R872, R223): the frame at the head of the load queue takes or replaces a mailbox; with none free it waits. -/
def execMailboxLoad (n : Nat) (s : State) : Res :=
  if !canRuns s n then .next s
  else
    let s := loadReady s n
    match (getCan s n).load with
    | [] => .next s
    | e :: es =>
      match mbFor s n e with
      | none => .next s
      | some m => .next (mbTake (setCan s n { getCan s n with load := es }) n m e)

/-- Free a mailbox. -/
def mbFree (s : State) (n m : Nat) : State := let x := getCan s n; setCan s n { x with mbs := tset none x.mbs m none }

/-- MAILBOX_ABORT (R875): free, a withdrawal after grant, or the last attempt. -/
def execMailboxAbort (n m : Nat) (s : State) : Res :=
  let x := getCan s n
  let a := getArb s (18 + n)
  match tget none x.mbs m with
  | none => .next s
  | some b =>
    if !canRuns s n then .next s
    else if a.owner == some m then .next (setCan s n { x with mbs := tset none x.mbs m (some { b with abort := true }) })
    else if a.next == some m then .next (modArb (mbFree s n m) (18 + n) (fun a => { a with next := none, deadDue := true }))
    else .next (mbFree s n m)

/-- The turn of a controller ends; a selection whose decision was none decides from the frames that wait by then (R192). -/
def canTurnEnd (s : State) (n m : Nat) : State := canDecide (modArb (mbFree s n m) (18 + n) (fun a => { a with owner := none })) n

/-- FRAME_TRANSMITTED (R874): the frame succeeds, its mailbox frees and the turn ends; `tdc` is the transmitter delay
measured in data tq (R868). -/
def execFrameTransmitted (n tdc : Nat) (s : State) : Res :=
  let x := getCan s n
  match (getArb s (18 + n)).owner with
  | none => .next s
  | some m =>
    if !canRuns s n || !onBus x then .next s
    else
      match tget none x.mbs m, x.cfg with
      | some b, some c =>
        let q := frameQ c b.frame.data.length
        let y := { x with
          txCnt := (x.txCnt + 1) % 2 ^ 40
          tec := x.tec - 1
          busQ := x.busQ + q
          telQ := if m ≥ 24 then x.telQ + q else x.telQ
          tdc := if b.frame.fdf && b.frame.brs && c.dataBps > 1000000 then satTo 127 tdc else x.tdc }
        .next (canConfine (canTurnEnd (setCan s n y) n m) n)
      | _, _ => .next s

/-! Errors. -/

/-- The counts after an error, as ISO 11898-1 changes them (R880): a transmitter 8, a receiver 1, 8 more for a dominant
bit after the flag; an error-passive transmitter that misses an acknowledgment stops at its count (R898). -/
def errCounts (x : CanSt) (err : Nat) (tx dom : Bool) : Nat × Nat :=
  if tx then
    let quiet := err == 4 && x.st == 3 && !dom
    (if quiet then x.tec else satTo 256 (x.tec + 8), x.recN)
  else (x.tec, satTo 255 (x.recN + if dom then 9 else 1))

/-- An error of the given kind on controller n. -/
def canErr (s : State) (n err : Nat) (data tx dom : Bool) : State :=
  let x := getCan s n
  if !canRuns s n || err == 0 || err > 5 then s
  else if x.st == 6 then setCan s n { x with goodRx := 0 }
  else if !onBus x || x.pexWait then s
  else
    let k := errCounts x err tx dom
    let s := setCan s n { x with tec := k.1, recN := k.2, lastErr := err, errData := data }
    let s := match (getArb s (18 + n)).owner with
      | none => s
      | some m => match tget none (getCan s n).mbs m with
        | none => s
        | some b => if tx && b.abort then canTurnEnd s n m else s
    canConfine s n

/-- CAN_ERROR (R880 to R882): `err` as LAST_ERR codes it, in the data phase, as transmitter, followed by a dominant
bit. -/
def execCanError (n err : Nat) (data tx dom : Bool) (s : State) : Res := fin (canErr s n err data tx dom)

/-! Recovery. -/

/-- Attempts within the last 3 600 operating seconds. -/
def attemptsNow (s : State) (x : CanSt) : List Nat := x.attempts.filter (fun t => decide (s.cal.opSec < t + 3600))

/-- A recovery request: an attempt counts, the sequence begins (R883, R884). -/
def canRequest (s : State) (n : Nat) : State :=
  let x := getCan s n
  setCan s n { x with st := 5, attempts := s.cal.opSec :: attemptsNow s x, pendAt := none }

/-- RECOVERY_DELAY_END (R884): the automatic request, or CAN_RECOVERY_OUT. -/
def execRecoveryDelayEnd (n : Nat) (s : State) : Res :=
  let x := getCan s n
  match x.pendAt, x.cfg with
  | some t, some c =>
    if !canRuns s n || s.now < t || x.st != 4 || s.isl.onRc then .next s
    else
      let k := (attemptsNow s x).length
      if k < c.recovN then .next (addRecord (canRequest s n) 0x000F (0x12 + n) (pw n) (pw (k + 1)))
      else fin (raise (setCan s n { x with pendAt := none, out := true }) 0x49 (pw n) (0x12 + n))
  | _, _ => .next s

/-- RECOVERY_COMPLETE (R883): error-active with both counts 0, selection decides afresh. -/
def execRecoveryComplete (n : Nat) (s : State) : Res :=
  let x := getCan s n
  if !canRuns s n || x.st != 5 then .next s
  else
    let s := setCan s n { x with st := 2, tec := 0, recN := 0, out := false }
    fin (canDecide (canCauses s) n)

/-! Joining. -/

/-- A controller takes part in the bus again, in the state that its counts give: a flush keeps them (R895). -/
def canJoin (s : State) (n : Nat) : State :=
  let x := getCan s n
  canCauses (setCan s n { x with st := canState x.tec x.recN })

/-- MOORED_JOIN (R887): 8 consecutive good frames, or `recessive` for 1 s. -/
def execMooredJoin (recessive : Bool) (s : State) : Res :=
  let x := getCan s 0
  if canRuns s 0 && x.st == 6 && (recessive || x.goodRx ≥ 8) then .next (canDecide (canJoin s 0) 0) else .next s

/-- BUS_INTEGRATION (R890, R900): 11 consecutive recessive bits. -/
def execBusIntegration (n : Nat) (s : State) : Res :=
  let x := getCan s n
  if !canRuns s n then .next s
  else if x.st == 1 then fin (canDecide (canJoin s n) n)
  else .next (setCan s n { x with pexWait := false })

/-- PROTOCOL_EXCEPTION (R890): counted; the controller takes no part until 11 recessive bits. -/
def execProtocolException (n : Nat) (s : State) : Res :=
  let x := getCan s n
  match x.cfg with
  | none => .next s
  | some c =>
    if canRuns s n && c.fd && (onBus x || x.st == 6) && !x.pexWait then
      .next (setCan s n { x with pex := satAdd 255 x.pex 1, pexWait := true })
    else .next s

/-! Load. -/

/-- BUS_LOAD_WINDOW (chapter 24): the 1 s window ends; five windows above 800 ‰ raise SYN_BUDGET, by each controller of its own
(R372), 60 s within budget end its cause. -/
def execBusLoadWindow (n : Nat) (s : State) : Res :=
  let x := getCan s n
  if !canRuns s n then .next s
  else
    let pm := x.busQ * 1000 / secondQ
    let past := decide (pm > 800)
    let k := if past then satAdd 5 x.overN 1 else 0
    let since := if past then none else some (x.underSince.getD s.now)
    let s := setCan s n { x with
      busQ := 0
      telQ := 0
      loadPm := satTo 1023 pm
      telPm := satTo 1023 (x.telQ * 1000 / secondQ)
      overN := k
      underSince := since }
    let calm := (rangeFrom 0 4).all (fun m =>
      let y := getCan s m
      y.cfg.isNone || (match y.underSince with | none => false | some t => decide (s.now ≥ t + 60000000)))
    if k == 5 && x.overN != 5 then fin (raiseU s 0x4C (pw n))
    else if calm then fin (causeOff s 0x4C)
    else .next s

end Sys2Proof.Machine
end

