-- ==== Sys2Proof/Machine/Supply.lean ====
section
/-! DEFINITION. Resets, supplies, straps and ball limits (chapters 02 to 04): RESET_N_ASSERT, CHIP_RESET_RELEASE,
the supervisors of Table 3-2, VCORE_MEASUREMENT, SPEED_MONITOR_READING, JUNCTION_TEMP_READING, STRAP_CHANGE_CHECK,
HOLDUP_SENSE, PFW_N_FALL, PFW_N_RISE, OUT_SHORT, OUT_SHORT_RETRY, BOUNDARY_SCAN_EXTEST. -/

namespace Sys2Proof.Machine

open Sys2Proof

/-! Chip resets (R86, R123). -/

/-- RESET_N_ASSERT (R141). -/
def execResetNAssert (s : State) : Res := .next (chipReset s 0)

/-- VCORE_SUPERVISOR_TRIP (R87): a chip reset that keeps the fatal latch. -/
def execVcoreSupervisorTrip (s : State) : Res := .next (chipReset s 1)

/-- VCORE_POWER_ON_RESET (R87): the fatal latch is cleared too. -/
def execVcorePowerOnReset (s : State) : Res := .next (chipReset s 2)

/-- VIO_SUPERVISOR_TRIP (R86). -/
def execVioSupervisorTrip (s : State) : Res := .next (chipReset s 3)

/-- VANA_POWER_ON_RESET (R57): the trip unit too is reset. -/
def execVanaPowerOnReset (s : State) : Res := .next (chipReset s 4)

/-! Straps (R56, R76, R77). -/

/-- The straps as sampled: a ball reads both times the same, or is open and takes Table 2-10's level, 0. -/
def strapLevels (up down : List Bool) : List Bool :=
  (rangeFrom 0 11).map (fun i => up.getD i false && down.getD i false)
def strapOpens (up down : List Bool) : List Bool :=
  (rangeFrom 0 11).map (fun i => up.getD i false != down.getD i false)

/-- The strap unit after sampling; the TRIP_SEL balls are latched only where `trip` (R56). -/
def sampleStraps (t : Straps) (up down : List Bool) (trip : Bool) : Straps :=
  let lv := strapLevels up down
  let op := strapOpens up down
  let n := if trip then maskOf (lv.take 4) else t.tripN
  { latched := (rangeFrom 0 4).map (fun i => bitsN n i i == 1) ++ lv.drop 4
    isOpen := (if trip then op.take 4 else t.isOpen.take 4) ++ op.drop 4
    present := (rangeFrom 0 11).map (fun i => if op.getD i false then none else some (lv.getD i false))
    tripN := n }

/-- SYS_STRAPS (Table 2-12). -/
def sysStraps (t : Straps) : Word :=
  packW [(3, 0, t.tripN), (6, 4, maskOf ((t.latched.drop 4).take 3)), (7, 7, b2n (t.latched.getD 7 false)),
    (9, 8, maskOf ((t.latched.drop 8).take 2)), (10, 10, b2n (t.latched.getD 10 false)), (22, 12, maskOf t.isOpen),
    (23, 23, b2n t.changed), (31, 24, 60 + 5 * t.tripN)]

/-- TESTMODE latched high (R64). -/
def testmode (s : State) : Bool := s.straps.latched.getD 10 false

/-! The release. -/

/-- The source whose release ended the reset (R123): the one named, or the lowest holder. -/
def releaseCause (s : State) (cause : Nat) : Nat :=
  if s.rst.holders.contains cause then cause else s.rst.holders.foldl min 15

/-- MAIN on the RC oscillator (R246, R253). A start on it sets SWITCHED and counts one in XT_STOPS, as XT40_STOP is raised for
it (DESIGN CHOICE, assumption 7). -/
def xtSwitch (s : State) : State :=
  let i := { s.isl with xtOk := false, onRc := true, switched := true, xtStops := satAdd 255 s.isl.xtStops 1 }
  causeOn { s with isl := i } 0x09 (pw 9)

/-- Units whose cause is present when the collector starts: VANA_LOW, the hard-trip latch (R459), open straps, a lockout
that runs on (R966), the crystal. -/
def releaseFaults (s : State) (xtal : Bool) : State :=
  let s := if s.straps.isOpen.any id then raiseU s 0x10 (pw (maskOf s.straps.isOpen)) else s
  let s := if s.fan.trip then raiseU s 0x3C (pw 0x0D) else s
  let s := if s.pwr.vanaLow then raiseU s 0x08 (pw 5) else s
  let s := if lockLeft s > 0 then raiseU s 0x4D (pw 0x16) else s
  if xtal then s else xtSwitch s

/-- The events of a session that the reset ended: OVERRIDE_END with the number of its overrides (R39), and SESSION_CLOSE
(R960). -/
def sessionCut (s : State) (cut : Option (Nat × Nat)) : State :=
  match cut with
  | none => s
  | some x =>
    let s := if x.2 == 0 then s else addRecord s 0x2005 0x16 (pw x.2) 0#40
    addRecord s 0x3002 0x16 (pw x.1) (pw 2)

/-- CHIP_RESET_RELEASE (R86): `up` and `down` hold the strap balls read under pull-up and pull-down, `xtal` says that the 40 MHz
crystal runs (R253). -/
def execChipResetRelease (cause : Nat) (up down : List Bool) (xtal : Bool) (s : State) : Res :=
  if !s.rst.held then .next s
  else
    let c := releaseCause s cause
    let cut := s.rst.sessCut
    let (f, s) := takeFree s
    let t := sampleStraps s.straps up down s.rst.latchTrip
    let n := storedPcc s.nvm
    let p := { s.pwr with powerCycles :=
      if s.flt.fatal || ((t.isOpen.drop 4).take 3).any id then n else satTo 16777215 (n + 1) }
    let s := { s with
      rst := { held := false, por := s.rst.por, cause := c, t0 := s.now }
      straps := t
      pwr := p
      isl := { s.isl with tmoNs := 64000 + f.toNat % 176001 }
      cal := { s.cal with opSec := storedOpSec s.nvm } }
    let s := if s.flt.fatal then locate { s with start := { s.start with state := .fatalService } } else s
    let s := addRecord s 0x0001 0 (pw c) (sysStraps t)
    let s := sessionCut s cut
    .next (pfwRefresh (releaseFaults s xtal))

/-! Supplies. -/

/-- VANA_LOW (R118): E reads 0, local analog values read FAULT. -/
def execVanaLow (s : State) : Res :=
  let s := { s with pwr := { s.pwr with vanaLow := true, energyUj := 0, snsBadSince := none } }
  if s.rst.held then .next s
  else
    let s := if frontOn s then pairsAgree (vanaFaults s s.plt.plate.scans) 0 s.plt.plate.pairs else s
    fin (causeOn s 0x08 (pw 5))

/-- The monitors whose last two readings lie above the limit, and the VCORE cause (R166). -/
def speedMask (s : State) : Nat :=
  maskOf (s.pwr.monSlow.map (fun n => decide (n ≥ 2))) % 65536 + 65536 * b2n (decide (s.pwr.vcoreLowN ≥ 2))

/-- SPEED_MARGIN follows its causes: gone after 10 s with VCORE and every monitor in range (Table 9-6). -/
def speedMargin (s : State) : State :=
  let ok := s.pwr.vcoreLowN == 0 && s.pwr.monSlow.all (· == 0)
  let since := if ok then some (s.pwr.speedOkSince.getD s.now) else none
  let s := { s with pwr := { s.pwr with speedOkSince := since } }
  let m := speedMask s
  if m != 0 then causeOn s 0x06 (pw m)
  else if heldFor s.now since 10000000 then causeOff s 0x06
  else s

/-- VCORE_MEASUREMENT (R88): the rails in mV; two consecutive readings of VCORE below 0.90 V are the cause. -/
def execVcoreMeasurement (vcore vio vana vbkup : Nat) (s : State) : Res :=
  if !keeperRuns s then .next s
  else
    let n := if vcore < 900 then satAdd 2 s.pwr.vcoreLowN 1 else 0
    let p := { s.pwr with vcoreMv := satTo 4095 vcore, vioMv := satTo 8191 vio, vcoreLowN := n }
    let p := { p with
      vanaMv := satTo 8191 vana
      vbkupMv := satTo 4095 vbkup
      vbkupLow := s.pwr.vbkupLow && decide (vbkup ≤ 2000) }
    fin (speedMargin { s with pwr := p })

/-- The limit of a monitor reading in ps (R166, R184). -/
def monLimit (s : State) : Nat := if s.isl.onRc then 4973 else 4875

/-- The period in ps of a ring that runs through n periods in 25 µs, to the nearest ps (R183); a ring that stands still reads
as the slowest. -/
def ringPs (n : Nat) : Nat := if n == 0 then 8191 else satTo 8191 ((50000000 + n) / (2 * n))

/-- 10 ms have passed since the last reading of the monitors (R183). -/
def monDue (s : State) : Bool := match s.pwr.monAt with | none => true | some t => decide (t + 10000 ≤ s.now)

/-- SPEED_MONITOR_READING (R183): the periods that each of the sixteen rings counts in 25 µs. The reading trims the crossing timeout (R232) and the
watchdog window (R364), whose values within their bounds are free. -/
def execSpeedMonitorReading (counts : List Nat) (s : State) : Res :=
  if !keeperRuns s || !monDue s then .next s
  else
    let (f, s) := takeFree s
    let now := (rangeFrom 0 16).map (fun m => ringPs (counts.getD m 0))
    let p := { s.pwr with
      monNow := now
      monAt := some s.now
      monMin := (rangeFrom 0 16).map (fun m => min (s.pwr.monMin.getD m 8191) (now.getD m 0))
      monMax := (rangeFrom 0 16).map (fun m => max (s.pwr.monMax.getD m 0) (now.getD m 0))
      monRc := s.isl.onRc
      monSlow := (rangeFrom 0 16).map (fun m =>
        if now.getD m 0 > monLimit s then satAdd 2 (s.pwr.monSlow.getD m 0) 1 else 0) }
    let i := { s.isl with trimmed := true, tmoNs := 64000 + f.toNat % 8001 }
    let l := { s.flt with wdogTrimmed := true, earlyMs := 35 + (f.toNat / 8192) % 6, lateMs := 400 + (f.toNat / 65536) % 51 }
    fin (speedMargin { s with pwr := p, isl := i, flt := l })

/-- JUNCTION_TEMP_READING (R165): the four temperature codes; 844 is 147 °C, 816 is 140 °C (R170). The parameter is
the index of the first sensor at the limit (R350). -/
def execJunctionTempReading (codes : List Nat) (s : State) : Res :=
  if !keeperRuns s then .next s
  else
    let now := (rangeFrom 0 4).map (fun k => satTo 1023 (codes.getD k 0))
    let hot := (rangeFrom 0 4).map (fun k => if now.getD k 0 ≥ 844 then satAdd 2 (s.pwr.tjHot.getD k 0) 1 else 0)
    let peak := (rangeFrom 0 4).map (fun k => max (s.pwr.tjPeak.getD k 0) (now.getD k 0))
    let s := { s with pwr := { s.pwr with tj := now, tjPeak := peak, tjHot := hot } }
    if hot.any (· ≥ 2) then fin (causeOn s 0x07 (pw (hot.findIdx (· ≥ 2))))
    else if now.all (· < 816) then fin (causeOff s 0x07)
    else fin s

/-- One strap ball at the check of R74. -/
def strapCheck (s : State) (levels : List Bool) (i : Nat) : State :=
  let t := s.straps
  if t.isOpen.getD i false then s
  else
    let lv := levels.getD i false
    let was := t.latched.getD i false
    let n := if lv == was then 0 else satAdd 2 (t.diffs.getD i 0) 1
    let hit := decide (n ≥ 2)
    let s := { s with straps := { t with
      present := listSet t.present i (some lv)
      diffs := listSet t.diffs i n
      changed := t.changed || hit
      recorded := if hit then listSet t.recorded i true else t.recorded } }
    if hit && !t.recorded.getD i false then
      addRecord s 0x0003 0x18 (pw i) (packW [(0, 0, b2n was), (1, 1, b2n lv)])
    else s

def strapChecks (s : State) (levels : List Bool) : List Nat → State
  | [] => s
  | i :: is => strapChecks (strapCheck s levels i) levels is

/-- STRAP_CHANGE_CHECK (R74). -/
def execStrapChangeCheck (levels : List Bool) (s : State) : Res :=
  if s.rst.held then .next s else .next (strapChecks s levels (rangeFrom 0 11))

/-- HOLDUP_SENSE (R119): a reading of HOLDUP_SNS that ends 60 s at full scale, near zero, or in range. -/
def execHoldupSense (code : Nat) (s : State) : Res :=
  if s.rst.held then .next s
  else
    let s := senseHoldup s code
    if heldFor s.now s.pwr.snsBadSince 60000000 then fin (causeOn s 0x27 (pw 5))
    else if heldFor s.now s.pwr.snsGoodSince 60000000 then fin (causeOff s 0x27)
    else fin s

/-! The power-fail pin (Table 3-6). -/

/-- PFW_N_FALL (R105): low for 2 µs. -/
def execPfwNFall (s : State) : Res :=
  let s := { s with pwr := { s.pwr with pfwPin := true } }
  if s.rst.held then .next s else fin (pfwRefresh s)

/-- PFW_N_RISE (R105): high for 20 ms. -/
def execPfwNRise (s : State) : Res :=
  let s := { s with pwr := { s.pwr with pfwPin := false } }
  if s.rst.held then .next s else fin (pfwRefresh s)

/-! Open-drain balls at their limit (R163, R164). Rows are numbered A 0 to AC 21, columns 1 to 22. -/

/-- The open-drain ball at a row and column, the rows of the ball map numbered in its order from A 0 to AC 21 (DESIGN CHOICE,
assumption 12: the manual gives them letters alone): the unit code OUT_SHORT carries, and whether it is exempt from release
(FAULT_N, SHUTDOWN_N). -/
def odBall (row col : Nat) : Option (Nat × Bool) :=
  if 7 ≤ row ∧ row ≤ 10 ∧ 1 ≤ col ∧ col ≤ 7 then some (0x0A, false)
  else if row == 11 ∧ 1 ≤ col ∧ col ≤ 4 then some (0x0A, false)
  else if row == 11 ∧ col == 5 then some (0x02, true)
  else if row == 11 ∧ col == 7 then some (0x0D, true)
  else if 7 ≤ row ∧ row ≤ 14 ∧ col == 17 then some (0x10, false)
  else if 7 ≤ row ∧ row ≤ 14 ∧ 19 ≤ col ∧ col ≤ 22 then some (0x0F, false)
  else if 18 ≤ row ∧ row ≤ 20 ∧ col % 3 == 1 ∧ col ≤ 19 then some (0x0E, false)
  else if row == 21 ∧ col % 3 == 1 ∧ col ≤ 7 then some (0x0E, false)
  else none

/-- OUT_SHORT (R163): the ball has stayed at its current limit for 5 ms; it is released for 1 s unless exempt. -/
def execOutShort (row col : Nat) (s : State) : Res :=
  match odBall row col with
  | none => .next s
  | some (unit, exempt) =>
    if s.rst.held then .next s
    else
      let key := row * 32 + col
      let rest := s.pwr.shorts.filter (·.1 != key)
      let p := { s.pwr with shorts := if exempt then rest else rest ++ [(key, s.now)], shortAt := s.now }
      fin (raise { s with pwr := p } 0x16 (packW [(7, 0, col), (15, 8, row)]) unit)

/-- OUT_SHORT_RETRY (R163): after 1 s the ball is driven again as its owner requires. -/
def execOutShortRetry (row col : Nat) (s : State) : Res :=
  let key := row * 32 + col
  match s.pwr.shorts.find? (·.1 == key) with
  | none => .next s
  | some x =>
    if s.now < x.2 + 1000000 then .next s
    else .next { s with pwr := { s.pwr with shorts := s.pwr.shorts.filter (·.1 != key) } }

/-- BOUNDARY_SCAN_EXTEST (R441): an EXTEST instruction takes the balls in the moored state or boot-ROM service, or
releases them where it held them; in any other state it acts as BYPASS. -/
def execBoundaryScanExtest (s : State) : Res :=
  let may := !s.rst.held && !s.flt.fatal && (s.start.state == .moored || s.start.state == .bootService)
  .next { s with rst := { s.rst with extest := may && !s.rst.extest } }

end Sys2Proof.Machine
end

