-- ==== Sys2Proof/Machine/IslOps.lean ====
section
/-! DEFINITION. Operations on islands: configuration (R245, R252, R254), the stop of an island (R240 to R243), and the
flush of Table 6-8. -/

namespace Sys2Proof.Machine

open Sys2Proof

/-- The keeper configures an island: while moored CAN0 and PWM alone, else every island from step 9 on (R252, R254). -/
def mayConfigure (s : State) (i : Nat) : Bool :=
  keeperRuns s && (if s.start.state == .moored then i == 1 || i == 5 else decide (s.start.step ≥ 9))

/-- The configuration words of a CAN island (R878, R887): the BUS entry of the controller, or the moored settings. -/
def canSettings (s : State) (n : Nat) : State :=
  if s.start.state == .moored then (if n == 0 then canConfigure s 0 mooredCan true else s)
  else match s.plt.plate.cans.find? (·.ctrl == n) with
    | none => s
    | some c => canConfigure s n c false

/-- The freezes that R214 holds until the island is CONFIGURED. -/
def islFreezes (i : Nat) : List Nat :=
  if i == 6 then rangeFrom 12 6 else if 1 ≤ i ∧ i ≤ 4 then [17 + i] else []

/-- An island takes its configuration and is CONFIGURED. -/
def islConfigure (s : State) (i : Nat) : State :=
  let s := if 1 ≤ i ∧ i ≤ 4 then canSettings s (i - 1) else s
  let s := setIsl s i { getIsl s i with st := 2 }
  clearFreezes s (islFreezes i)

/-- Toggles of an island return to the matched level, its queues and late entries are empty. -/
def islEmpty (s : State) (i : Nat) : State :=
  let mine := fun (k : Nat) => k / 4096 == i
  { s with isl := { s.isl with
    toggles := s.isl.toggles.filter (fun e => !mine e.1)
    queues := s.isl.queues.filter (fun e => !mine e.1)
    late := s.isl.late.filter (fun e => !mine e.1)
    work := s.isl.work.filter (fun e => !mine e.1) } }

/-- What an island's own unit loses: the queues of a controller (R243, R895), the samples of CONV, the settings of the PWM
pins (R242, Table 6-10), the power-fail source of the mains watch (R672). -/
def islUnit (s : State) (i : Nat) : State :=
  let s := islEmpty s i
  if 1 ≤ i ∧ i ≤ 4 then canFlush s (i - 1)
  else if i == 5 then
    { s with
      fan := { s.fan with chs := s.fan.chs.map (fun e => (e.1, { e.2 with pin := none })) }
      htd := { s.htd with chs := s.htd.chs.map (fun e => (e.1, { e.2 with pin := 0 })) } }
  else if i == 6 then { s with fe := { s.fe with conv := [], conns := s.fe.conns.filter (fun x => x.port.slice == none) } }
  else if i == 7 then pfwRefresh { s with mns := { s.mns with lowN := 0, highN := 0 }, pwr := { s.pwr with pfwMns := false } }
  else s

/-- An island stops (Table 6-7). -/
def islStop (s : State) (i : Nat) : State :=
  let x := getIsl s i
  let s := islUnit (setIsl s i { x with st := 3, tmo := true, timeouts := satAdd 255 x.timeouts 1, cfgPend := false }) i
  raiseU s 0x0A (pw i)

/-- The bit rate of the service port after a flush: the divisor is a configuration word, which goes to the island again where the
keeper configures it; an island left DEFAULT has 115 200 bit/s (R245, Table 6-10). -/
def islBaud (s : State) (i : Nat) : State :=
  if i == 8 && !mayConfigure s i then { s with svc := { s.svc with baud := 115200, baudAt := none } } else s

/-- The flush of Table 6-8 to its end, and the configuration sent again (R244, R245). -/
def islFlush (s : State) (i : Nat) : State :=
  let x := getIsl s i
  let s := islUnit (setIsl s i { x with st := 1, resets := satAdd 15 x.resets 1, cfgPend := false }) i
  let s := islBaud (addRecord s 0x0006 9 (pw i) 0#40) i
  let s := if mayConfigure s i then islConfigure s i else s
  let s := if i == 6 && s.fe.grid then feRestart s else s
  islCause s

end Sys2Proof.Machine
end

