-- ==== Sys2Proof/Machine/KeyOps.lean ====
section
/-! DEFINITION. Key cells and site identity (R962 to R964, Table 13-5 checks 6 and 9). -/

namespace Sys2Proof.Machine

open Sys2Proof

/-- Location of word w of key cell (r, g). -/
def keyLoc (r g w : Nat) : Nat := locOf 1 800 (8 * (4 * r + g) + w)

/-- The seven words of a cell. -/
def keyCells (n : Nvm) (r g : Nat) : List NvCell := (rangeFrom 0 7).map (fun w => cellAt' n (keyLoc r g w))

/-- All seven words are written (R962); an incomplete cell is empty for use (R314). -/
def keyWritten (n : Nvm) (r g : Nat) : Bool := (keyCells n r g).all (· != .erased)

/-- Every word reads CLEAN or CORRECTED. -/
def keyUsable (n : Nvm) (r g : Nat) : Bool := (rangeFrom 0 7).all (fun w => (nvWord n (keyLoc r g w)).isSome)

/-- The current generation of a set: its highest one whose words are all written. -/
def keyGen (n : Nvm) (r : Nat) : Option Nat := [3, 2, 1, 0].find? (fun g => keyWritten n r g)

/-- The 32 key bytes of a cell: byte k lies in word k div 5. -/
def keyBytes (n : Nvm) (r g : Nat) : List Byte :=
  (wordsBytes ((rangeFrom 0 7).map (fun w => nvRaw n (keyLoc r g w)))).take 32

/-- The words that a use of the current generation's key reads (R342). -/
def keyRead (n : Nvm) (r : Nat) : List Nat :=
  match keyGen n r with
  | none => []
  | some g => (rangeFrom 0 7).map (keyLoc r g)

/-- The key of the current generation; none where there is none or it is unusable. -/
def keyNow (n : Nvm) (r : Nat) : Option (Nat × List Byte) :=
  match keyGen n r with
  | none => none
  | some g => if keyUsable n r g then some (g, keyBytes n r g) else none

/-- The site identity: bank 1 row 801 words 0 to 3; none while unwritten or incomplete. -/
def siteLoc (w : Nat) : Nat := locOf 1 801 w
def siteLocs : List Nat := (rangeFrom 0 4).map siteLoc
def siteId (n : Nvm) : Option (List Word) :=
  let ws := (rangeFrom 0 4).filterMap (fun w => nvWord n (siteLoc w))
  if ws.length == 4 then some ws else none

end Sys2Proof.Machine
end

