-- ==== Sys2Proof/Machine/ProofOps.lean ====
section
/-! DEFINITION. Operations of the proof (chapter 12): the repair map (R476 to R480), spine reach under the turn rule (R179,
R213), the findings of Table 12-4, and the assignment of logical tiles (R467). -/

namespace Sys2Proof.Machine

open Sys2Proof

/-- A copy's word at an index is UNCORR. -/
def mapBad (n : Nvm) (copy i : Nat) : Bool :=
  match cellAt' n (mapLoc copy i) with | .uncorr _ => true | _ => false

/-- One copy is damaged: its MAGIC does not read, or an entry reads UNCORR. -/
def copyBad (n : Nvm) (copy used : Nat) : Bool :=
  !magicOk n copy || (rangeFrom 0 used).any (fun i => mapBad n copy (2 + i))

/-- Indices that only one copy holds are completed in the other (R314). -/
def mapComplete (s : State) : List Nat → State
  | [] => s
  | i :: is =>
    let a := cellAt' s.nvm (mapLoc 0 (2 + i))
    let b := cellAt' s.nvm (mapLoc 1 (2 + i))
    let s := match nvWord s.nvm (mapLoc 0 (2 + i)), nvWord s.nvm (mapLoc 1 (2 + i)) with
      | some w, none => if b == .erased then storeWord s .repairMap (mapLoc 1 (2 + i)) w else s
      | none, some w => if a == .erased then storeWord s .repairMap (mapLoc 0 (2 + i)) w else s
      | _, _ => s
    mapComplete s is

/-! Applying the entries. -/

/-- A tile that the map retires: 2 by the factory, 3 at an earlier start. -/
def mapTile (t : Tab Tile) (e : Word) : Tab Tile :=
  let p := fld e 6 0
  let x := tget {} t p
  tset {} t p { x with st := if x.st == 2 || !entField e then 2 else 3 }

/-- A local SRAM row mapped to a spare. -/
def mapRow (t : Tab Tile) (e : Word) : Tab Tile :=
  let p := fld e 22 16
  let x := tget {} t p
  tset {} t p { x with sramSpare := satAdd 2 x.sramSpare 1 }

/-- A shared SRAM row: mapped to a spare, or left out. -/
def mapSram (p : Prf) (e : Word) : Prf :=
  let b := fld e 18 16
  let r := fld e 14 8
  if fld e 2 0 == 7 then { p with sramOut := (b * 128 + r) :: p.sramOut }
  else { p with
    sramUsed := listSet p.sramUsed b (satAdd 4 (p.sramUsed.getD b 0) 1)
    sramMapped := (b * 128 + r) :: p.sramMapped }

/-- The spare of a retired row is used, or a spare marked used. -/
def mapNvm (n : Nvm) (e : Word) : Nvm :=
  let b := fld e 22 21
  let k := fld e 4 0
  let x := getBank n b
  let x := { x with spares := if x.spares.contains k then x.spares else k :: x.spares }
  let x := { x with factory := if entField e then x.factory else satAdd 8 x.factory 1 }
  setBank n b x

/-- One entry applies. -/
def mapApply (s : State) (e : Word) : State :=
  match entKind e with
  | 1 => { s with prf := { s.prf with
      tiles := mapTile s.prf.tiles e
      factory := if entField e then s.prf.factory else satAdd 3 s.prf.factory 1 } }
  | 2 => { s with prf := { s.prf with
      tiles := mapRow s.prf.tiles e
      rowsOut := (64 * fld e 22 16 + fld e 13 8) :: s.prf.rowsOut } }
  | 3 => { s with prf := mapSram s.prf e }
  | 4 => { s with nvm := mapNvm s.nvm e }
  | 5 => { s with spn := { s.spn with links := mapLane s.spn.links e } }
  | 6 =>
    let k := fld e 2 0
    if s.prf.retired.contains k then s else { s with prf := { s.prf with retired := k :: s.prf.retired } }
  | _ => s

def mapApplies (s : State) : List Word → State
  | [] => s
  | e :: es => mapApplies (mapApply s e) es

/-- Nothing of the map stands before it is read again. -/
def mapClear (s : State) : State :=
  let f := fun (x : Bank) => { x with spares := [], factory := 0 }
  let n := s.nvm
  { s with nvm := { n with
    bank0 := f n.bank0
    bank1 := f n.bank1
    bank2 := f n.bank2
    bank3 := f n.bank3 } }

/-- The newest journal word, by its sequence number: its place and that number. -/
def newestJournal (n : Nvm) : Option (Nat × Nat) :=
  (rangeFrom 0 64).foldl (fun (m : Option (Nat × Nat)) k =>
    match nvWord n (journalLoc k) with
    | none => m
    | some w => match m with
      | none => some (k, fld w 39 20)
      | some x => if fld w 39 20 ≥ x.2 then some (k, fld w 39 20) else some x) none

/-- The journal goes on at the word after the newest one (R331): the 64 words are written in turn. -/
def journalFrom (n : Nvm) : Nvm :=
  match newestJournal n with
  | none => { n with journalNext := 0, journalSeq := 1 }
  | some (k, q) => { n with journalNext := (k + 1) % 64, journalSeq := q + 1 }

/-- A journal word without DONE whose row the map does not show as retired (R331). -/
def journalRow (n : Nvm) (slot : Nat) : Option Retire :=
  match nvWord n (journalLoc slot) with
  | none => none
  | some w =>
    let b := fld w 1 0
    let row := fld w 11 2
    if bitOf w 17 || tget 0 n.redirect (locOf b row 0) != 0 then none
    else some { bank := b, row := row, spare := fld w 16 12, step := 2, slot := slot, seq := fld w 39 20 }

/-- The spares of retirements that a reset cut off stay theirs (R472). -/
def journalSpares (n : Nvm) : List Nat → Nvm
  | [] => n
  | k :: ks =>
    journalSpares (match journalRow n k with
      | none => n
      | some r => if (getBank n r.bank).spares.contains r.spare then n else takeSpare n r.bank r.spare) ks

/-- Phase 7's reading of the map (R478, R480): REPAIR_MAP_COPY with 3 for both MAGIC words, else 1 for copy A and 2 for
copy B. -/
def mapLoad (s : State) : State :=
  let s := mapClear s
  if !magicOk s.nvm 0 && !magicOk s.nvm 1 then
    raiseU { s with prf := { s.prf with noMap := true, indices := 0, mapA := false, mapB := false } } 0x1A (pw 3)
  else
    let used := mapEnd s.nvm 8190 0
    let badA := copyBad s.nvm 0 used
    let badB := copyBad s.nvm 1 used
    let es := mapEntries s.nvm used
    let s := mapApplies { s with nvm := redirectTo s.nvm (es.foldl mapRedirect []) } es
    let s := { s with nvm := journalSpares s.nvm (rangeFrom 0 64) }
    let s := mapComplete { s with prf := { s.prf with indices := used, mapA := !badA, mapB := !badB } } (rangeFrom 0 used)
    let s := if badA then raiseU s 0x1A (pw 1) else s
    let s := if badB then raiseU s 0x1A (pw 2) else s
    wordsFound s ((rangeFrom 0 (2 + used)).map (mapLoc 0) ++ (rangeFrom 0 (2 + used)).map (mapLoc 1))

/-! The spine (R179, R181, R213). -/

/-- The dead link directions. -/
def deadDirs (s : State) : List Nat := (s.spn.links.filter (fun e => e.2.dead)).map (·.1)

/-- Spare lanes left, over 254 link directions and 68 edge links (Table 5-6). -/
def lanesLeft (s : State) : Nat :=
  2 * 322 - (s.spn.links.map (fun e => b2n (e.2.bad0 != 63) + b2n (e.2.bad1 != 63))).foldl (· + ·) 0

/-- The proof loads the route tables and writes its part of SPN_STATUS (R179, R181). -/
def spineStatus (s : State) : State :=
  let dead := deadDirs s
  { s with spn := { s.spn with
    tables := some dead
    spareLeft := lanesLeft s
    deadLinks := satTo 63 dead.length
    detour := dead.any (fun d => decide (d < 256))
    maxLinks := longestRoute dead } }

/-! Findings (Table 12-4). -/

/-- A wrong lane found by phase 1 (R174, R200): steered around; the third one of a direction makes it dead. -/
def proofLane (s : State) (wher : Nat) : State :=
  let d := bitsN wher 16 8
  let l := bitsN wher 5 0
  let x := getLink s d
  if !linkExists d || x.dead || (l != 63 && (x.bad0 == l || x.bad1 == l)) then s
  else if l != 63 && l ≥ 50 then s
  else if l == 63 || (x.bad0 != 63 && x.bad1 != 63) then
    newDefect (setLink s d { x with dead := true }) (mapEntry 5 (256 * d + 63))
  else newDefect (setLink s d (steer x l)) (mapEntry 5 (256 * d + l))

def proofLanes (s : State) : List Nat → State
  | [] => s
  | w :: ws => proofLanes (proofLane s w) ws

/-- A keeper tile fails its cross-check: retired for this start only. -/
def proofKeepers (s : State) : List Nat → State
  | [] => s
  | k :: ks => proofKeepers (if k < 3 && !s.eng.kRetired.getD k false then keeperRetire s k else s) ks

/-- A tile fails: retired at this start (KIND 1). -/
def proofTile (s : State) (p : Nat) : State :=
  let x := getTile s p
  if p ≥ 72 || x.st ≥ 2 then s else newDefect (setTile s p { x with st := 4 }) (mapEntry 1 p)

def proofTiles (s : State) : List Nat → State
  | [] => s
  | p :: ps => proofTiles (proofTile s p) ps

/-- A local SRAM row fails that is not mapped yet: mapped to the next spare, or the tile is retired (KIND 2, KIND 1). -/
def proofRow (s : State) (x : Nat × Nat) : State :=
  let t := getTile s x.1
  if x.1 ≥ 72 || x.2 ≥ 64 || t.st ≥ 2 || s.prf.rowsOut.contains (64 * x.1 + x.2) then s
  else if t.sramSpare ≥ 2 then proofTile s x.1
  else
    let s := setTile s x.1 { t with sramSpare := t.sramSpare + 1 }
    newDefect { s with prf := { s.prf with rowsOut := (64 * x.1 + x.2) :: s.prf.rowsOut } }
      (mapEntry 2 (65536 * x.1 + 256 * x.2 + t.sramSpare))

def proofRows (s : State) : List (Nat × Nat) → State
  | [] => s
  | x :: xs => proofRows (proofRow s x) xs

/-- A shared SRAM row fails that is not mapped yet: mapped to the next spare of its bank, or left out with SPARE 7 (R474). -/
def proofSram (s : State) (x : Nat × Nat) : State :=
  let k := 128 * x.1 + x.2
  let used := s.prf.sramUsed.getD x.1 0
  if x.1 ≥ 8 || x.2 ≥ 128 || s.prf.sramOut.contains k || s.prf.sramMapped.contains k then s
  else if used ≥ 4 then
    newDefect { s with prf := { s.prf with sramOut := k :: s.prf.sramOut } } (mapEntry 3 (65536 * x.1 + 256 * x.2 + 7))
  else
    newDefect { s with prf := { s.prf with sramUsed := listSet s.prf.sramUsed x.1 (used + 1), sramMapped := k :: s.prf.sramMapped } }
      (mapEntry 3 (65536 * x.1 + 256 * x.2 + used))

def proofSrams (s : State) : List (Nat × Nat) → State
  | [] => s
  | x :: xs => proofSrams (proofSram s x) xs

/-- A weak word in a mapped row: the proof chooses the spare and writes the journal word of step 1 (R472); the entry follows
at retirement. -/
def weakMapped (s : State) (b row : Nat) : State :=
  match freeSpare (getBank s.nvm b) with
  | none => wantRetire s b row
  | some k =>
    let r : Retire := { bank := b, row := row, spare := k, slot := s.nvm.journalNext, seq := s.nvm.journalSeq }
    let s := pulse { s with prf := { s.prf with newN := satAdd 255 s.prf.newN 1 } } 0x19 (rowEntry b row k)
    let n := takeSlot (takeSpare s.nvm b k)
    storeWord { s with nvm := { n with journaled := n.journaled ++ [r] } } (.journal r.slot) (journalLoc r.slot)
      (journalWord r false)

/-- The row that a spare row has replaced. -/
def rowOfSpare (n : Nvm) (b k : Nat) : Option Nat :=
  (n.redirect.find? (fun e => locBank e.1 == b && e.2 == 1024 + k)).map (fun e => locRow e.1)

/-- A weak row of the sample set (R471, R472): bank, physical row 0 to 1 055. A spare row in use is retired as the row that it
has replaced; one that is not is marked used. -/
def proofWeak (s : State) (x : Nat × Nat) : State :=
  let b := x.1
  if b ≥ 4 || x.2 ≥ 1056 || x.2 / 128 != s.prf.nvmSet then s
  else if x.2 < 1024 then
    if retiring s.nvm b x.2 || tget 0 s.nvm.redirect (locOf b x.2 0) != 0 then s else weakMapped s b x.2
  else
    let k := x.2 - 1024
    if (getBank s.nvm b).spares.contains k then
      (match rowOfSpare s.nvm b k with
        | none => s
        | some row => if retiring s.nvm b row then s else weakMapped s b row)
    else newDefect { s with nvm := takeSpare s.nvm b k } (rowEntry b x.2 k)

def proofWeaks (s : State) : List (Nat × Nat) → State
  | [] => s
  | x :: xs => proofWeaks (proofWeak s x) xs

/-- A slice fails Table 12-3: retired (KIND 6), with PROOF_NEW_DEFECT as every new retirement (R470); SLICE_LOST follows for
all. -/
def proofSlices (s : State) : List Nat → State
  | [] => s
  | k :: ks =>
    proofSlices (if k ≥ 6 || s.prf.retired.contains k then s
      else newDefect { s with prf := { s.prf with retired := k :: s.prf.retired } } (mapEntry 6 k)) ks

/-- NVM_SPARES_LOW of every bank, once per start (R335). -/
def sparesChecks (s : State) : List Nat → State
  | [] => s
  | b :: bs => sparesChecks (sparesCheck s b) bs

/-- The faults that every start repeats: slices retired, spare tiles, spare rows (R475, R497, R335). -/
def proofFaults (s : State) : State :=
  let s := if s.prf.retired.isEmpty then s
    else
      let s := raiseU s 0x2E (pw (retiredMask s))
      if (slicesIn s).length ≤ 5 then raiseU s 0x2F (pw 0x0A) else s
  sparesChecks (sparesLow s) [0, 1, 2, 3]

end Sys2Proof.Machine
end

