-- ==== Sys2Proof/Machine/StartOps.lean ====
section
/-! DEFINITION. Operations of the start (chapter 11): images and pairing (R429 to R434), the moored state and boot-ROM service
(R440), the reading of a plate (chapter 13), and admission's completion (R552, R553). -/

namespace Sys2Proof.Machine

open Sys2Proof

/-! Images. -/

/-- Location of word n of image i: 0 keeper A, 1 engine A, 2 keeper B, 3 engine B. -/
def imgLoc (i n : Nat) : Nat := locOf (i / 2) ((if i % 2 == 0 then 0 else 768) + n / 512) (n % 512)

/-- A word of an image, as the boot ROM reads it. -/
def imgWord (n : Nvm) (i k : Nat) : Word := nvRaw n (imgLoc i k)

def imgMagic (i : Nat) : Word := if i % 2 == 0 then 0x52504B5747#40 else 0x474E455747#40
def imgLimit (i : Nat) : Nat := if i % 2 == 0 then 393152 else 6144

def imgListN (n : Nvm) (i : Nat) : Nat := fld (imgWord n i 2) 26 22
def imgBodyLen (n : Nvm) (i : Nat) : Nat := fld (imgWord n i 2) 19 0
def imgVersion (n : Nvm) (i : Nat) : Nat := fld (imgWord n i 1) 31 0

/-- The tested-partner list. -/
def imgList (n : Nvm) (i : Nat) : List Word := (rangeFrom 4 (min 16 (imgListN n i))).map (imgWord n i)

/-- Reserved header fields are 0 (Tables 11-2 and 11-3). -/
def imgReserved (n : Nvm) (i : Nat) : Bool :=
  let w := imgWord n i
  fld (w 1) 39 32 == 0 && fld (w 2) 39 27 == 0 && fld (w 3) 39 32 == 0 && fld (w 26) 39 16 == 0 && fld (w 33) 39 16 == 0 &&
    (rangeFrom 34 30).all (fun k => w k == 0#40) && (imgList n i).all (fun e => fld e 38 32 == 0)

/-- A signature component: seven words, lowest first (Table 11-2). -/
def imgSig (n : Nvm) (i base : Nat) : Nat :=
  (rangeFrom 0 7).foldl (fun (a : Nat) k => a + (imgWord n i (base + k)).toNat * 2 ^ (40 * k)) 0

/-- Every word of the header and the body reads. -/
def imgReads (n : Nvm) (i : Nat) : Bool := (rangeFrom 0 (64 + imgBodyLen n i)).all (fun k => (nvWord n (imgLoc i k)).isSome)

/-- The signature (R430): over header words 0 to 19 and the body. -/
def imgSigned (n : Nvm) (i : Nat) : Bool :=
  let ks := rangeFrom 0 20 ++ rangeFrom 64 (imgBodyLen n i)
  let key := fld (imgWord n i 2) 21 20
  ecdsaVerify (Config.romKeyX key).toNat (Config.romKeyY key).toNat (imgSig n i 20) (imgSig n i 27)
    (sha256 (wordsBytes (ks.map (imgWord n i))))

/-- MAGIC matches the image kind. -/
def imgPresent (n : Nvm) (i : Nat) : Bool := nvWord n (imgLoc i 0) == some (imgMagic i)

/-- `valid` of R432. -/
def imgValid (n : Nvm) (i : Nat) : Bool :=
  imgPresent n i && decide (imgBodyLen n i ≤ imgLimit i) && decide (imgListN n i ≤ 16) && imgReserved n i && imgReads n i &&
    imgSigned n i

/-- The list names the stepping (KIND 0), or a partner version (KIND 1). -/
def namesStep (ls : List Word) : Bool := ls.any (fun e => !bitOf e 39 && fld e 31 0 == Config.stepping.toNat)
def namesPartner (ls : List Word) (v : Nat) : Bool := ls.any (fun e => bitOf e 39 && fld e 31 0 == v)

/-- The result of one image (Table 11-9). -/
def imgResult (n : Nvm) (i : Nat) : ImgRes :=
  if !imgPresent n i then {}
  else
    let j := if i % 2 == 0 then i + 1 else i - 1
    { present := true
      valid := imgValid n i
      stepOk := namesStep (imgList n i)
      partnerOk := imgPresent n j && namesPartner (imgList n i) (imgVersion n j)
      version := imgVersion n i
      list := imgList n i }

/-- why(p) of R432. -/
def pairWhy (xs : List ImgRes) (p : Nat) : Nat :=
  let k := xs.getD (2 * p) {}
  let e := xs.getD (2 * p + 1) {}
  let w := b2n (!k.valid) + 2 * b2n (!e.valid)
  if w != 0 then w
  else
    4 * b2n (!namesStep k.list || !namesStep e.list) +
      8 * b2n (!namesPartner k.list e.version || !namesPartner e.list k.version)

/-- The preferred pair (R431): true for pair B. -/
def preferredB (n : Nvm) : Bool := match nvWord n (locOf 3 0 14) with | some w => bitOf w 0 | none => false

/-! Service states. -/

/-- Boot-ROM service: MOORED reason 2 (Table 11-4). -/
def bootService (s : State) : State :=
  let x := { s.start with state := .bootService, moorWhy := 2, running := false, fallback := false }
  addRecord { s with start := x } 0x000E 0 (pw 2) 0#40

/-- The moored state is entered (R438, R64). -/
def moorEnter (s : State) (why : Nat) : State :=
  addRecord { s with start := { s.start with state := .moored, moorWhy := why } } 0x000E 1 (pw why) 0#40

/-- While moored the keeper configures CAN0 and the PWM island (R254). -/
def moorIslands (s : State) : State :=
  let s := if islRuns s 1 then islConfigure s 1 else s
  if islRuns s 5 then islConfigure s 5 else s

def moor (s : State) (why : Nat) : State := moorIslands (moorEnter s why)

/-- The pair that runs (R432). -/
def runPair (s : State) (q : Nat) : State :=
  let xs := s.start.imgs
  { s with start := { s.start with
    running := q == 1
    keeperVer := (xs.getD (2 * q) {}).version
    engineVer := (xs.getD (2 * q + 1) {}).version } }

/-- Step 2 (R432, R433). -/
def pairImages (s : State) : State :=
  let xs := (rangeFrom 0 4).map (imgResult s.nvm)
  let pb := preferredB s.nvm
  let p := b2n pb
  let s := { s with start := { s.start with
    imgs := xs
    whyA := pairWhy xs 0
    whyB := pairWhy xs 1
    preferred := pb } }
  if pairWhy xs p == 0 then runPair s p
  else if pairWhy xs (1 - p) == 0 then
    let s := runPair s (1 - p)
    raiseU { s with start := { s.start with fallback := true } } 0x1B (pw (16 * p + pairWhy xs p))
  else
    bootService (raiseU { s with start := { s.start with service := true } } 0x1D (pw 1))

/-! Step 6. -/

/-- Retirements that a reset cut off go on from step 2. -/
def resumeRetire (s : State) : List Nat → State
  | [] => s
  | k :: ks =>
    resumeRetire (match journalRow s.nvm k with
      | none => s
      | some r =>
        if s.nvm.journaled.any (fun x => x.bank == r.bank && x.row == r.row) then s
        else
          let x := getBank s.nvm r.bank
          let n := if x.spares.contains r.spare then s.nvm else takeSpare s.nvm r.bank r.spare
          { s with nvm := { n with journaled := n.journaled ++ [r] } }) ks


/-- The newest progress word: highest start hours, then highest number (R327). -/
def newestPoint (n : Nvm) : Option (Nat × Word) :=
  (rangeFrom 0 64).foldl (fun (m : Option (Nat × Word)) k =>
    match nvWord n (locOf 3 1008 k) with
    | none => m
    | some w => match m with
      | none => some (k, w)
      | some x => if fld w 39 16 ≥ fld x.2 39 16 then some (k, w) else some x) none

/-- The number of a pass from its number modulo 4 096 and the operating hours at its start: the greatest that passes of
13 107 s each leave time for (R316, R325; DEDUCED, assumption 15). -/
def passOf (p hours : Nat) : Nat :=
  let most := hours * 3600 / 13107
  if most < p then p else p + 4096 * ((most - p) / 4096)

/-- The scrub goes on at the point after the newest word, or begins its first pass (R327, R346). -/
def resumeScrub (s : State) : State :=
  match newestPoint s.nvm with
  | none => { s with nvm := { setScrubAt s.nvm 0 with scrubFrom := s.cal.opSec, lastScrub := s.now } }
  | some (k, w) =>
    let pass := passOf (fld w 15 4) (fld w 39 16)
    let n := if k == 63 then
        { setScrubAt s.nvm 0 with scrubPass := pass + 1, scrubFrom := s.cal.opSec, scrubPoint := 63 }
      else { setScrubAt s.nvm (8192 * (k + 1)) with
        scrubPass := pass, scrubFrom := 3600 * fld w 39 16, scrubPoint := k, scrubMark := k + 1 }
    { s with nvm := { n with lastScrub := s.now } }

/-- Rotation set, scrub progress and journal. -/
def startWords : List Nat := rangeFrom (locOf 2 162 0) 128 ++ rangeFrom (locOf 3 1008 0) 128

/-- Words of the control row, the persistent rows and the calibration history that the cells list. -/
def persistWords (n : Nvm) : List Nat := (n.cells.map (·.1)).filter (fun l => locBank l == 3 && locRow l ≤ 143)

/-- The rows of an image region that a reset left half erased are found blank or not by the next BEGIN; the keeper takes the
calibration sequence up after its last entry (R321). -/
def calTop (n : Nvm) : Nat := match n.calLast with | none => 0 | some k => (k + 1) % 8176

/-- Rows whose counts can reach the wear limits (R322, Table 8-4); the others count too few cycles. -/
def wearRows : List (Nat × Nat) :=
  (rangeFrom 32 131).map (fun r => (2, r)) ++ (rangeFrom 0 144).map (fun r => (3, r)) ++ [(3, 1008)]

/-- The keeper computes the counts of Table 8-4 at its start; NVM_WEAR rises once per row and start (R322). -/
def checkWears (s : State) : List (Nat × Nat) → State
  | [] => s
  | x :: xs => checkWears (checkWear s x.1 x.2) xs

/-- Stores in the operating-seconds set up to a start: one each 360 s, and one in the flush that ended each power cycle
(R112, R317; DEDUCED, assumption 15). -/
def opStoresOf (n : Nvm) : Nat := storedOpSec n / 360 + storedPcc n

/-- The rows of the inactive image slot whose erase a reset cut off are erased again from the first pulse (R338), each with its
record; those of the active slot are protected (R311). -/
def restartErases (s : State) : List Nat → State
  | [] => s
  | l :: ls =>
    let b := locBank l
    restartErases (if b ≤ 1 && locRow l ≤ 799 && b != activeBank s then
        requestErase (addRecord s 0x5002 4 (pw l) 0#40) b (locRow l) (.eraseImage (imgIndex b (decide (locRow l ≥ 768))))
      else s) ls

/-- The keeper's start (R296, R346, R364, R365). `early` and `late` of the watchdog lie within the bounds of R364 at free
values. -/
def keeperStart (s : State) : State :=
  let (f, s) := takeFree s
  let s := { s with
    start := { s.start with step := 6 }
    flt := { s.flt with
      wdogOn := true
      wdogKick := s.now
      earlyMs := 10 + f.toNat % 31
      lateMs := 400 + (f.toNat / 64) % 1101
      beaconAt := s.now } }
  let s := addRecord s 0x4001 0x19 (pw s.start.keeperVer) (pw s.start.engineVer)
  let s := if s.flt.expiryDue then
      addRecord { s with flt := { s.flt with expiryDue := false } } 0x0007 2 (pw s.flt.expiries) 0#40
    else s
  let s := calAtStart s
  let s := { s with nvm := { s.nvm with calNext := calTop s.nvm, opStores := opStoresOf s.nvm } }
  let s := mapLates (checkWears (resumeScrub (resumeRetire s (rangeFrom 0 64))) wearRows) s.prf.lateMap
  wordsFound (restartErases s s.nvm.torn) startWords

/-- The CRC of an image's header is that of its body, whose length the slot holds (Table 11-2). -/
def imgCrcOk (n : Nvm) (i : Nat) : Bool :=
  decide (imgBodyLen n i ≤ imgLimit i) &&
    crc32 (wordsBytes ((rangeFrom 64 (imgBodyLen n i)).map (imgWord n i))) == fld (imgWord n i 3) 31 0

/-- The words of an image slot that the cells list, as far as its header and body reach: what an engine read meets (Table 8-7). -/
def imgStored (n : Nvm) (i : Nat) : List Nat :=
  (n.cells.map (·.1)).filter (fun l => decide (imgLoc i 0 ≤ l) && decide (l < imgLoc i 0 + 64 + min (imgBodyLen n i) (imgLimit i)))

/-- Tiles whose loaded copy of the engine image fails its CRC twice fail as in the proof (R434): those named, and every logical and
spare tile, which all load it (R296), where the image itself does not match its CRC. The tiles left are numbered afresh (R467). -/
def loadTiles (s : State) (bad : List Nat) : State :=
  let loaded := allTiles.filter (fun p => (getTile s p).st < 2)
  let i := if s.start.running then 3 else 1
  let bad := if imgCrcOk s.nvm i then bad else loaded
  let s := wordsFound s (imgStored s.nvm i)
  if bad.isEmpty then s else sparesLow (assignTiles (proofTiles s bad))

/-! Step 7. -/

/-- The registers that their chapters mark plate-locked: FAN_FIX alone (R998). -/
def lockable (a : Nat) : Bool := decide (0xC300 ≤ a ∧ a ≤ 0xC3FF)

/-- What validation takes from the machine. -/
def plateEnv (s : State) (facts : FlashFacts) : PlateEnv :=
  { flash := facts
    key := (keyNow s.nvm 3).map (·.2)
    keyGen := match keyNow s.nvm 3 with | some (g, _) => g | none => 0
    keeper := s.start.keeperVer
    site := siteId s.nvm
    lockable := lockable
    faultDefault := fun n => ((srcRow n).cls.code, (srcRow n).allowed) }

/-- A validation with this result (0 for none) met the array's words of checks 6 and 9: the plate key, then the site identity. -/
def plateReads (n : Nvm) (code : Nat) : List Nat :=
  (if code == 0 || decide (6 ≤ code) then keyRead n 3 else []) ++ (if code == 0 || decide (9 ≤ code) then siteLocs else [])

/-- What PLT_MODE selects for the plate port (Table 2-8, R519): whether data come in on four lines, the address bytes, the read
command and the page-program command. -/
structure PltAccess where
  quad : Bool
  addrBytes : Nat
  readCmd : Nat
  programCmd : Nat
  deriving DecidableEq, Repr

/-- The access of the latched PLT_MODE straps (R63): bit 8 PLT_MODE0, bit 9 PLT_MODE1. -/
def pltAccess (t : Straps) : PltAccess :=
  let four := t.latched.getD 9 false
  if t.latched.getD 8 false then
    { quad := true, addrBytes := if four then 4 else 3, readCmd := if four then 0x6C else 0x6B
      programCmd := if four then 0x12 else 0x02 }
  else
    { quad := false, addrBytes := if four then 4 else 3, readCmd := if four then 0x13 else 0x03
      programCmd := if four then 0x12 else 0x02 }

/-- The flash address that the access puts on its lines for a byte of the plates: its low address bytes. -/
def busAddr (x : PltAccess) (a : Nat) : Nat := a % 256 ^ x.addrBytes

/-- Word n of a slot of the flash (R502), read with the access that PLT_MODE selects. -/
def flashWord (x : PltAccess) (f : Tab Byte) (slot n : Nat) : Word :=
  BitVec.ofNat 40 (bytesNat ((rangeFrom (slot * 0x400000 + 5 * n) 5).map (fun k => tget 0xFF#8 f (busAddr x k))))

/-- The words of a slot: the header alone where LENGTH is out of range. -/
def slotWords (x : PltAccess) (f : Tab Byte) (slot : Nat) : List Word :=
  let len := fld (flashWord x f slot 1) 19 0
  (rangeFrom 0 (if 71 ≤ len ∧ len ≤ 838860 then len else 64)).map (flashWord x f slot)

/-- A plate refused: the raise of R438, and what follows. -/
def plateRefused (s : State) (slot step : Nat) : State :=
  if slot == 0 then raiseU { s with plt := { s.plt with cand := none } } 0x1C (pw step)
  else moor (raiseU { s with plt := { s.plt with cand := none } } 0x1D 0#40) 0

/-- Which slot step 7 reads: A, then B once A has been refused (R437). -/
def slotTried (s : State) : Nat := if s.plt.resultA == 0xFF#40 then 0 else 1

/-- Record the result of a slot. -/
def setResult (s : State) (slot : Nat) (w : Word) : State :=
  if slot == 0 then { s with plt := { s.plt with resultA := w } } else { s with plt := { s.plt with resultB := w } }

/-- Step 7 for one plate. The SFDP data is read once, before plate A (R503, R528). -/
def readPlate (s : State) (facts : FlashFacts) : State :=
  let slot := slotTried s
  let facts := if slot == 0 then facts else s.plt.facts
  let s := { s with plt := { s.plt with facts := facts, candSlot := slot }, start := { s.start with step := 7 } }
  let ws := slotWords (pltAccess s.straps) s.plt.flash slot
  let found := validatePlate (plateEnv s facts) ws
  let s := wordsFound s (plateReads s.nvm ((found.map (·.code)).getD 0))
  match found with
  | some r =>
    let s := addRecord (setResult s slot r.param) 0x4002 0x17 (pw slot) r.param
    plateRefused s slot 0
  | none =>
    let s := setResult s slot 0#40
    { s with plt := { s.plt with cand := some (decodePlate ws) } }

/-! Step 8. -/

/-- ADM registers of a refusal (R553). -/
def admRefuse (s : State) (slot : Nat) (f : AdmFail) : State :=
  let a := { s.adm with
    result := 2
    code := f.code
    subjKind := f.kind
    subjPlate := slot
    subjIdx := f.index
    need := f.need
    limit := f.limit }
  let s := { s with adm := { a with plate := 3, places := [], lists := [], crcs := [] } }
  let s := { s with plt := { s.plt with admitted := false, plate := {} }, start := { s.start with plate := 3 } }
  plateRefused (addRecord s 0x4003 7 (pw slot) (pw f.code)) slot 1

/-- ADM registers of a pass. -/
def admPass (s : State) (p : Plate) (slot : Nat) (r : AdmRun) : State :=
  let w := worstChain p r.lists
  let s := { s with adm := { s.adm with
    result := 1
    plate := slot
    tasks := r.places.length
    chains := p.chains.length
    entries := (r.lists.map (·.length)).foldl (· + ·) 0
    worstChain := w.1
    worstMargin := w.2
    lists := r.lists
    places := r.places
    crcs := ((rangeFrom 0 64).foldl (fun (t : Tab Nat) k => tset 0 t k (tableCrc r.places k)) []) } }
  loadTables s (rangeFrom 0 64)

/-- FAULTS section (R381): classes and reactions; sources already raised keep their effective class. -/
def loadFaults (f : Flt) (p : Plate) : Flt :=
  let cfg := p.faults.foldl (fun (t : Tab (Option (FClass × Nat))) c => tset none t c.src (some (classOf c.cls, c.react))) []
  { f with cfg := cfg, faultNClass := match p.faultN.head? with | some n => classOf n | none => .degraded }

/-- The persistent layout identity (R324). -/
def loadLayout (s : State) (p : Plate) : State :=
  let w := fun k => p.hdr.getD k 0#40
  let a := nvWord s.nvm (locOf 3 0 8)
  let b := nvWord s.nvm (locOf 3 0 9)
  if a == some (w 4) && b == some (w 5) then
    let items := p.pitems.foldl (fun (t : Tab (Option Word)) c => tset none t c.index (nvWord s.nvm (itemLoc c.index))) []
    let learned := p.dips.foldl (fun (t : Tab (Option Int)) d =>
      if d.pindex == 0x1FFFF then t
      else tset none t d.ch ((nvWord s.nvm (itemLoc d.pindex)).map qOf)) s.stb.learned
    { s with nvm := { s.nvm with items := items }, stb := { s.stb with learned := learned } }
  else
    let s := { s with nvm := { s.nvm with items := [], pidWait := true, pdataReset := true } }
    addRecord s 0x5003 4 (nvRaw s.nvm (locOf 3 0 8)) (w 4)

/-- The hard-trip fan group and its level (R35, R694), and whether the latch stands as they are loaded (R459). -/
def loadTrip (f : Fan) (p : Plate) : Fan :=
  match p.dryers.find? (·.trip) with
  | none => { f with loaded := true, tripLoaded := false, dryer := 15, full := false, group := [], groupLow := [] }
  | some d =>
    { f with
      loaded := true
      tripLoaded := f.trip
      dryer := d.dryer
      full := d.tripFull
      group := (p.fans.filter (fun c => c.group == d.dryer)).map (·.ch)
      groupLow := (p.fans.filter (fun c => c.group == d.dryer && c.pol)).map (·.ch) }

/-- The static level of a local fan pin as a duty: true for 100 % (R62). An open FAN_SAFE counts with its latched bit, 0 (DESIGN
CHOICE, assumption 52: Table 2-10 substitutes no level for it). -/
def strapFull (s : State) (c : FanCfg) : Bool := s.straps.latched.getD 7 false != c.pol

/-- The levels that a fan group falls back to: the strap's for local channels, FB_FULL for remote ones (R62, R552). -/
def groupMix (s : State) (p : Plate) (g : Nat) : List Bool × List Bool :=
  let cs := p.fans.filter (fun c => c.group == g)
  ((cs.filter (fun c => c.ch < 32)).map (strapFull s),
   cs.filterMap (fun c => (p.remotes.find? (fun r => r.kind == 0 && r.logical == c.ch)).map (·.fbFull)))

/-- FAN_SAFE_MIX of one group, where the strap level and a node fallback differ. -/
def mixRecord (s : State) (p : Plate) (g : Nat) : State :=
  match groupMix s p g with
  | (a :: as, b :: bs) =>
    let ls := a :: as
    let rs := b :: bs
    match ls.find? (fun l => rs.any (· != l)) with
    | none => s
    | some l => addRecord s 0x4008 7 (pw g) (packW [(0, 0, b2n l), (1, 1, b2n (!l))])
  | _ => s

def mixRecords (s : State) (p : Plate) : List Nat → State
  | [] => s
  | g :: gs => mixRecords (mixRecord s p g) p gs

/-- FIXED_PM of the plate enters FAN_FIX (chapter 18). -/
def loadFix (s : State) : List FanCfg → State
  | [] => s
  | c :: cs => loadFix (setFan s c.ch { getFan s c.ch with fix := c.fixedPm }) cs

/-- Admission completed (R552), and the LOCKS ranges (R516). -/
def admComplete (s : State) (p : Plate) (slot : Nat) : State :=
  let s := { s with
    plt := { s.plt with
      plate := p
      admitted := true
      locks := p.locks.map (fun l => (l.first, l.count)) }
    flt := loadFaults s.flt p
    start := { s.start with plate := slot } }
  let s := loadLayout s p
  let s := { s with
    pwr := { s.pwr with pfwPct := match p.islands.head? with | some c => c.pfwPct | none => s.pwr.pfwPct }
    fan := loadTrip s.fan p }
  let s := mixRecords s p (((p.fans.map (·.group)).eraseDups).filter (· < 4))
  let s := loadFix s p.fans
  let s := addRecord s 0x4004 7 (pw slot) (p.hdr.getD 2 0#40)
  wordsFound s (persistWords s.nvm)

/-- What an admission has loaded is as before it: the second run refuses the plate that the first one had admitted (R20, R557). -/
def unloadPlate (s : State) : State :=
  { s with
    flt := { s.flt with cfg := [], faultNClass := .degraded }
    fan := { s.fan with loaded := false, tripLoaded := false, dryer := 15, full := false, group := [], groupLow := [], chs := [] }
    pwr := { s.pwr with pfwPct := 60 }
    stb := { s.stb with learned := [] }
    nvm := { s.nvm with items := [], pidWait := false, pdataReset := false }
    plt := { s.plt with locks := [] } }

end Sys2Proof.Machine
end

