-- ==== Sys2Proof/Machine/SvcOps.lean ====
section
/-! DEFINITION. Sessions of the service port (chapter 25): which requests a state offers, the frame around each command
(R950 to R954), the end of a session (R960), lockout (R966), and requests whose reply waits for stores (R103). -/

namespace Sys2Proof.Machine

open Sys2Proof

/-! Roles. -/

def roleOperator : Nat := 0
def roleEngineer : Nat := 1
def roleFactory : Nat := 2

/-- Roles of Tables 25-2 and 25-7. -/
def anyRole : List Nat := [0, 1, 2]
def plantRoles : List Nat := [0, 1]
def engFactory : List Nat := [1, 2]
def engOnly : List Nat := [1]

/-- The open session's role. -/
def sessRole (s : State) : Option Nat := s.svc.sess.map (·.role)

/-- Status of the session and role checks of Table 25-5, 0 when both pass. -/
def roleCheck (s : State) (roles : List Nat) : Nat :=
  match sessRole s with
  | none => stNoSession
  | some r => if roles.contains r then stOk else stRole

/-! States. -/

/-- The state offers the command (Table 11-4, R361). -/
def offered (s : State) (cmd : Nat) : Bool :=
  match s.start.state with
    | .fatalService => [0x01, 0x02, 0x10, 0x20, 0x22].contains cmd
    | .bootService => [0x01, 0x02, 0x20, 0x48].contains cmd
    | .moored => cmd != 0x30 && cmd != 0x31
    | _ => true

/-! Frames. -/

/-- A session hears a request that passes its CRC (R960, R961). -/
def heard (s : State) : State :=
  let sess := s.svc.sess.map (fun x => { x with seen := s.now })
  { s with svc := { s.svc with baudAt := none, sess := sess } }

/-- The request repeats the previous one (R951). -/
def isRepeatReq (s : State) (seq cmd : Nat) : Bool :=
  match s.svc.prev with
  | none => false
  | some (r, t) => s.svc.sess.isSome && r.seq == seq % 256 && r.cmd == cmd % 256 && decide (s.now ≤ t + 1000000)

/-- The previous reply again, and no second action (R951). -/
def resend (s : State) : State :=
  match s.svc.prev with
  | none => s
  | some (r, _) => svcSend s r

/-- Any command but READ and WRITE discards the staging (R974). -/
def dropStage (s : State) : State := { s with svc := { s.svc with stage := none } }

/-- A request's reply bytes, none where the reply waits, and the state after it. -/
abbrev Answer := Option (List Byte) × State

/-- An answer of a status alone. -/
def answerSt (st : Nat) (s : State) : Answer := (some [stByte st], s)

/-- The checks of R954 before a command: session, role, then what the state offers. `roles` is none where no session is
needed or each register has its own roles. -/
def gateCmd (s : State) (cmd : Nat) (roles : Option (List Nat)) : Nat :=
  let r := match roles with | none => stOk | some rs => roleCheck s rs
  if r != stOk then r else if offered s cmd then stOk else stBusy

/-- The port hears frames: no reset, no gap to wait for, and the SVC island in service (Table 6-7 step 4). -/
def svcHears (s : State) : Bool := !s.rst.held && !s.svc.deaf && islRuns s 8

/-- A request that a complete frame with a valid CRC carries (R950 to R954). A refused WRITE carries its count of words
too. Nothing is received while the chip reset is held, or until the next gap after an oversize frame. -/
def framed (s : State) (seq cmd : Nat) (roles : Option (List Nat)) (body : State → Answer) : Res :=
  if !svcHears s then .next s
  else
    let s := heard s
    if isRepeatReq s seq cmd then fin (resend s)
    else
      let s := if cmd == 0x10 || cmd == 0x11 then s else dropStage s
      let st := gateCmd s cmd roles
      let extra := if cmd == 0x11 then [0#8, 0#8] else []
      let (r, t) := if st != stOk then (some (stByte st :: extra), s) else body s
      match r with
      | none => fin t
      | some bs => fin (svcReply t seq cmd bs)

/-- A complete frame answered before its command is looked at: LENGTH out of the command's layout, or a command that does not
exist. -/
def answered (s : State) (seq cmd : Nat) (act : State → State) (st : Nat) : Res :=
  if !svcHears s then .next s
  else
    let s := heard s
    if isRepeatReq s seq cmd then fin (resend s)
    else
      let s := if cmd == 0x10 || cmd == 0x11 then s else dropStage s
      fin (svcReply (act s) seq cmd [stByte st])

/-- SVC_COUNT bits 7:0. -/
def countFrame (s : State) : State := { s with svc := { s.svc with frameReplies := satAdd 255 s.svc.frameReplies 1 } }

/-- A request whose payload does not have its command's layout (R954, Table 25-3). -/
def badLayout (s : State) (seq cmd : Nat) : Res := answered s seq cmd countFrame stFrame

/-! The end of a session. -/

/-- A session event (Table 10-7). -/
def svcEvent (s : State) (code : Nat) (a b : Word) : State := addRecord s code 0x16 a b

/-- A force ends (R282, R977): the value keeps its word with quality STALE and UNIT 0x20 until its producer writes. AGE_MS,
held at 0 until now, counts on from here (DEDUCED). -/
def unforce (s : State) (n : Nat) : State :=
  let v := getVal s n
  let s := { s with eng := { s.eng with vals := tset {} s.eng.vals n { v with q := .stale, unit := 0x20, at_ := some s.now, forced := false } } }
  svcEvent { s with svc := { s.svc with forces := s.svc.forces.filter (· != n) } } 0x2007 (pw n) 0#40

def unforces (s : State) : List Nat → State
  | [] => s
  | n :: ns => unforces (unforce s n) ns

/-- Every override of the session ends (R39). -/
def endOverrides (s : State) : State :=
  let n := s.svc.ovr.length
  let s := { s with svc := { s.svc with ovr := [] } }
  if n == 0 then s else svcEvent s 0x2005 (pw n) 0#40

/-- What the end of a session releases and discards (R960). -/
def sessRelease (s : State) : State :=
  let s := unforces (endOverrides s) s.svc.forces
  let s := if s.stb.session then sessionFreeze s 0#40 false else s
  imgAbandon (imgAnswer (pltAbandon (pltAnswer (dropStage s) stNoSession) 3) stNoSession) false

/-- A session ends (R960): reason 0 CLOSE or AUTH, 1 idle. -/
def endSession (s : State) (reason : Nat) : State :=
  match s.svc.sess with
  | none => s
  | some x =>
    let s := sessRelease s
    let v := { s.svc with sess := none, baud := 115200, baudAt := none }
    svcEvent { s with svc := v } 0x3002 (pw x.role) (pw reason)

/-! Lockout. -/

/-- A failed-authentication word changes: held, and stored at once but in fatal service (R965, R361) and before the gate, which
stores it as it passes (R120). -/
def setAuth (s : State) (k v : Nat) : State :=
  if authWord s k == v then s
  else
    let s := { s with svc := { s.svc with authWords := tset none s.svc.authWords k (some (pw v)) } }
    if s.start.state == .fatalService || !s.pwr.gate then s else storeWord s (.authCount k) (locOf 3 0 k) (pw v)

/-- A failure (R966): counted, and at the fifth a lockout starts. -/
def authFail (s : State) (role : Nat) : State :=
  let n := authWord s 0 % 256 + 1
  let s := svcEvent s 0x3003 (pw role) (pw n)
  if n < 5 then setAuth s 0 n
  else
    let l := authWord s 1 % 8
    let t := min (60 * 2 ^ l) 3600
    let s := setAuth (setAuth (setAuth s 0 0) 1 (min (l + 1) 6)) 2 (s.cal.opSec + t)
    svcEvent (causeOn s 0x4D (pw 0x16)) 0x3004 (pw t) 0#40

/-- A session opens (R957, R958): the earlier one ends, the counters return to 0. -/
def openSession (s : State) (role gen : Nat) : State :=
  let s := setAuth (setAuth (endSession s 0) 0 0) 1 0
  let s := { s with svc := { s.svc with sess := some ⟨role, gen, s.now⟩ } }
  svcEvent s 0x3001 (pw role) (pw gen)

/-- The serial bytes in the order of Table 25-4. -/
def serialBytes : List Byte := wordBytes (Config.serial 0) ++ wordBytes (Config.serial 1)

/-- The tag that R957 asks of a role, with its generation; none for a role without a usable key. -/
def authTag (s : State) (role : Nat) (nonce : List Byte) : Option (Nat × List Byte) :=
  (keyNow s.nvm role).map (fun k => (k.1, hmac k.2 (nonce ++ serialBytes)))

/-- E or the gate refuses the check of a tag (R957, R991). -/
def authEnergy (s : State) : Bool :=
  !(s.pwr.gate || s.flt.fatal) || decide (s.pwr.energyUj < 2 * eWord)

/-- AUTH (R957): the nonce is spent in every case but the first. -/
def authCmd (s : State) (role : Nat) (tag : List Byte) : Answer :=
  match s.svc.nonce with
  | none => answerSt stRange s
  | some nonce =>
    let s := readPin { s with svc := { s.svc with nonce := none } }
    if lockLeft s > 0 then answerSt stLockout s
    else if authEnergy s then answerSt stEnergy (energyRefused s { kind := .word, owner := .authCount 0 })
    else if role > 2 then answerSt stRange s
    else
      let s := wordsFound s (keyRead s.nvm role)
      match authTag s role nonce with
      | none => answerSt stRole (authFail s role)
      | some (g, t) =>
        if tag == t then (some [stByte stOk, BitVec.ofNat 8 g], openSession s role g) else answerSt stRole (authFail s role)

/-! Stores before a reply. -/

/-- A store of a service request is still on its way: it waits for its turn, or has it (R103). -/
def svcStoring (s : State) : Bool :=
  [0, 1, 2, 3].any (fun b =>
    let x := getBank s.nvm b
    x.turns.any svcStore || (match x.hand with | some t => svcStore t | none => false))

/-- The REC_READ reply over the records read, which finds their unreadable words (R403 to R405, R419). -/
def recReply (s : State) (ls : List Nat) : List Byte × State :=
  ([stByte stOk, BitVec.ofNat 8 ls.length] ++ ls.flatMap (readEntry s.nvm), entryFaultsAll s ls)

/-- The word was not programmed: it reads erased, or as it read before. -/
def notStored (n : Nvm) (x : Nat × Word) : Bool :=
  match cellAt' n x.1 with
  | .erased => true
  | .clean w => w != x.2
  | .corrected w => w != x.2
  | .uncorr _ => false

/-- ID_IMGi bits 39:36 of an image. -/
def imgFlags (x : ImgRes) : Nat := 8 * b2n x.present + 4 * b2n x.valid + 2 * b2n x.stepOk + b2n x.partnerOk

/-- Step 3 of Table 25-8: `valid` and the stepping test of R432 applied to the written image alone. -/
def imgFinish (s : State) (seq : Nat) : State :=
  let g := s.svc.img
  let x := imgResult s.nvm (imgIndex g.slot g.engine)
  let s := { s with svc := { s.svc with img := { g with st := 4 } } }
  let s := addRecord s 0x4006 0x19 (pw (g.slot + 2 * b2n g.engine)) (pw x.version)
  svcReply s seq 0x48 [stByte stOk, BitVec.ofNat 8 (imgFlags x)]

def addEvents (s : State) : List (Nat × Nat × Word × Word) → State
  | [] => s
  | (code, unit, a, b) :: es => addEvents (addRecord s code unit a b) es

/-- The stores of the request in hand have ended: its events and its reply, or ENERGY where one was refused (R103). -/
def svcFinish (s : State) (w : SvcWait) : State :=
  let bad := s.nvm.svcRefused || w.words.any (notStored s.nvm)
  let s := { s with svc := { s.svc with wait := none }, nvm := { s.nvm with svcRefused := false } }
  if bad then
    let s := if w.image == 0 then s else { s with svc := { s.svc with img := w.img } }
    svcReply s w.seq w.cmd [stByte stEnergy]
  else if w.image == 2 then imgFinish s w.seq
  else
    let s := addEvents s w.events
    svcReply s w.seq w.cmd w.bytes

/-- What follows a turn of a bank: a clear that waits is looked at (R415), the recorder's read packets in hand end, and the reply
that waits is given once its stores or read packets have ended. -/
def svcStores (s : State) : State :=
  let s := clearsServe (readsRun 2 .recRead 12 s)
  match s.svc.wait with
  | none => s
  | some w =>
    match w.read with
    | some (start, down, count) =>
      if recReading s then s
      else
        let (bs, t) := recReply { s with svc := { s.svc with wait := none } } (readLocs s start down count)
        svcReply t w.seq w.cmd bs
    | none => if svcStoring s then s else svcFinish s w

/-- A store of a request is passed to its bank: refused where its turn starts at once and E is too low (R103). -/
def svcStart (s : State) (t : Store) : Bool × State :=
  let s := startStore { s with nvm := { s.nvm with svcRefused := false } } t
  if s.nvm.svcRefused then (false, { s with nvm := { s.nvm with svcRefused := false } }) else (true, s)

/-- A store that the request needs (R103): refused with ENERGY, or made before the reply. While the reply to an earlier
request waits for its stores, another such request is answered BUSY. -/
def storeFirst (s : State) (t : Store) (w : SvcWait) : Answer :=
  if s.svc.wait.isSome then answerSt stBusy s
  else if !s.pwr.gate then answerSt stEnergy (energyRefused s t)
  else
    let (ok, s) := svcStart s t
    if ok then (none, { s with svc := { s.svc with wait := some w } }) else answerSt stEnergy s

end Sys2Proof.Machine
end

