-- ==== Sys2Proof/Machine/Recorder.lean ====
section
/-! DEFINITION. Event recorder (chapter 10): RECORD_CREATE, OLDEST_RECORD_TIMEOUT, CHUNK_START, CHUNK_STORE_END. -/

namespace Sys2Proof.Machine

open Sys2Proof

/-- Event codes of Table 10-7: no other appears (R384). -/
def isEventCode (c : Nat) : Bool :=
  (0x0001 ≤ c && c ≤ 0x000F) || (0x1000 ≤ c && c ≤ 0x12FF && c % 256 < 0x60) || (0x2001 ≤ c && c ≤ 0x200D) ||
    (0x3001 ≤ c && c ≤ 0x3009) || (0x4001 ≤ c && c ≤ 0x400A) || (0x5001 ≤ c && c ≤ 0x5005)

/-- The unit that Table 10-10 gives an event, or Table 9-6 a fault mirror (R386, R1010). -/
def eventUnit (c u : Nat) (a : Word) : Bool :=
  if 0x1000 ≤ c ∧ c ≤ 0x12FF then srcUnit (c % 256) u
  else if c == 0x000E then u == (if a == 2#40 then 0 else 1)
  else if c == 0x0009 then
    (if fld a 39 12 == 0xF then u == 0x0A else if fld a 39 12 == 0xE then u == 0x0D else decide (0x40 ≤ u ∧ u ≤ 0x7F))
  else if [0x000F, 0x200C, 0x3008].contains c then decide (0x12 ≤ u ∧ u ≤ 0x15)
  else if c == 0x3007 then u == 0x16 || u == 4
  else if c == 0x0001 then u == 0
  else if [0x0002, 0x000C, 0x2001, 0x2002, 0x2003, 0x2008, 0x2009].contains c then u == 1
  else if c == 0x0003 then u == 0x18
  else if [0x0004, 0x0005, 0x5004, 0x5005].contains c then u == 5
  else if c == 0x0006 then u == 9
  else if c == 0x0007 then u == 2
  else if c == 0x0008 then u == 8
  else if c == 0x000B then u == 3
  else if c == 0x000D then u == 6
  else if c == 0x200A || c == 0x200B then u == 0x0C
  else if [0x200D, 0x4009, 0x400A].contains c then u == 0x11
  else if [0x4001, 0x4006, 0x4007].contains c then u == 0x19
  else if c == 0x4002 || c == 0x4005 then u == 0x17
  else if [0x4003, 0x4004, 0x4008].contains c then u == 7
  else if 0x5001 ≤ c ∧ c ≤ 0x5003 then u == 4
  else u == 0x16

/-- Table 10-7 names parameter B of an event; it names parameter A of every one but TESTMODE_START. -/
def namesB (c : Nat) : Bool :=
  !(([0x0002, 0x0006, 0x0007, 0x000C, 0x000E, 0x2005, 0x2007, 0x2009, 0x200A, 0x200C, 0x3004, 0x3008, 0x3009, 0x4007, 0x5002] :
    List Nat).contains c)

/-- A parameter that Table 10-7 does not name is 0 (R411). -/
def eventParams (c : Nat) (a b : Word) : Bool := (namesB c || b == 0#40) && (c != 0x0002 || a == 0#40)

/-- RECORD_CREATE (R394): a record of a unit that has no command of its own in hand; the codes that a chapter creates
itself come with their own commands. Reserved codes never appear (R384), each event carries its unit (R386, R1010) and 0 in a
parameter that it does not name (R411), and RING_CLEARED never enters the buffer (R408). -/
def execRecordCreate (code unit : Nat) (a b : Word) (s : State) : Res :=
  if s.rst.held || !isEventCode code || !eventUnit code unit a || !eventParams code a b || code == 0x000A then .next s
  else .next (dropNotice (addRecord s code unit a b))

/-- OLDEST_RECORD_TIMEOUT (R395, Table 10-4): the oldest buffered record has waited 3 600 s. -/
def execOldestRecordTimeout (s : State) : Res :=
  match s.recr.buf.head? with
  | none => .next s
  | some x => if s.rst.held || s.now < x.at_ + 3600000000 then .next s else .next (startFlush s)

/-- CHUNK_START (R396, R397): with a reading of HOLDUP_SNS for the check. -/
def execChunkStart (code : Nat) (s : State) : Res :=
  if s.rst.held then .next s else .next (tryChunk (senseHoldup s code) chunkStore)

/-- CHUNK_STORE_END (R393): the words of the chunk in hand that are still to be programmed take their turns, and its records
count as stored. -/
def execChunkStoreEnd (s : State) : Res :=
  if s.rst.held || s.recr.chunk.isNone then .next s else .next (fatalConfirm (svcStores (chunkRun 90 s)))

end Sys2Proof.Machine
end

