-- ==== Sys2Proof/Machine/Faults.lean ====
section
/-! DEFINITION. Fault collector (chapter 09): FAULT_RAISE, LINE_BREAK, FAULT_CAUSE_GONE, FATAL_RESET_TIMEOUT,
CHIP_RESET_REACTION, FATAL_MIRROR_STORE, WATCHDOG_KICK, WDOG_EXPIRY, BEACON_TOGGLE, COLLECTOR_SELF. FLT_ACK and FLT_INJECT
are register writes of the service port. -/

namespace Sys2Proof.Machine

open Sys2Proof

/-- Sources generated inside the collector, which have no rails (R348). -/
def noRails (n : Nat) : Bool := n == 0x00 || n == 0x01 || n == 0x05

/-- Sources whose cause is gone as soon as the raise is taken (Table 9-6). -/
def atRaise (n : Nat) : Bool :=
  [0x12, 0x13, 0x14, 0x15, 0x17, 0x19, 0x1F, 0x20, 0x21, 0x22].contains n

/-- Sources whose cause lasts to a chip reset or for ever (Table 9-6). -/
def untilReset (n : Nat) : Bool :=
  [0x01, 0x02, 0x03, 0x04, 0x05, 0x09, 0x0D, 0x0E, 0x10, 0x18, 0x1B, 0x1C, 0x1D, 0x1E, 0x23, 0x24, 0x2E, 0x3C].contains n

/-- A unit's rails bring a cause to the collector: that of an instance already reported is no raise (R350), another instance's is a
repeat or none (R372, R374). -/
def railOn (s : State) (n : Nat) (param : Word) (unit : Nat) : State :=
  let x := getSrc s.flt n
  if x.cause && x.own && x.param == param && x.unit == unit && !injected s.flt n then s
  else
    let s := raise s n param unit
    if atRaise n then causeOff s n else s

/-- An uncorrectable word of a keeper fetch: its row, which the parameter names, is retired (R342). -/
def fetchUncorr (s : State) (src : Nat) (param : Word) : State :=
  if src == 0x1E then wantRetire s (locBank param.toNat % 4) (locRow param.toNat) else s

/-- FAULT_RAISE (R350, R355): the unit is one that Table 9-6 names for the source (R386). -/
def execFaultRaise (src : Nat) (param : Word) (unit : Nat) (s : State) : Res :=
  if s.rst.held || !isSrc src || noRails src || !srcUnit src unit then .next s
  else fin (latchReset s.flt.fatal (railOn (fetchUncorr s src param) src param unit))

/-- A line break (R349): the source counts as asserted, and LINE_BREAK is raised with its number. -/
def lineBreak (s : State) (src : Nat) : State :=
  let own := (getSrc s.flt src).own
  let s := if (getSrc s.flt src).cause then s else raiseNow s src (pw (srcRow src).unit) (srcRow src).unit
  let s := { s with flt := setSrc s.flt src { getSrc s.flt src with broken := true, brokenAt := s.now, cause := true, own := own } }
  raiseU s 0x00 (pw src)

/-- LINE_BREAK (R349): both rails of the source hold the same level for 2 µs. -/
def execLineBreak (src : Nat) (s : State) : Res :=
  if s.rst.held || !isSrc src || noRails src || (getSrc s.flt src).broken || injected s.flt src then .next s
  else fin (latchReset s.flt.fatal (lineBreak s src))

/-- The state of the units still holds the cause of a source (Table 9-6). -/
def causeStands (s : State) (n : Nat) : Bool :=
  match n with
  | 0x06 => speedMask s != 0 || !heldFor s.now s.pwr.speedOkSince 10000000
  | 0x07 => s.pwr.tjHot.any (fun k => decide (k ≥ 2)) || s.pwr.tj.any (fun c => decide (c ≥ 816))
  | 0x0A => s.isl.isls.any (fun x => x.st == 3 || x.st == 4)
  | 0x0B => s.eng.chain
  | 0x0C => decide (s.eng.overrunFrames < 1200)
  | 0x0F => !(rangeFrom 0 3).all (fun k => s.eng.voting.getD k false || s.eng.kRetired.getD k false)
  | 0x16 => decide (s.now < s.pwr.shortAt + 10000000)
  | 0x1A => !(s.prf.mapA && s.prf.mapB)
  | 0x25 => s.nvm.late
  | 0x26 => queueTaken s != 0
  | 0x27 => !heldFor s.now s.pwr.snsGoodSince 60000000
  | 0x28 => counting s 1 != 0
  | 0x29 => counting s 2 != 0
  | 0x2A => counting s 4 != 0
  | 0x2B => s.sw.pairs.any (fun e => e.2.dis)
  | 0x2C => !s.fe.blankStale.isEmpty
  | 0x2D => s.fe.drift
  | 0x2F => decide ((slicesIn s).length < 6)
  | 0x32 => s.mns.sag.isSome
  | 0x33 => s.mns.swell.isSome
  | 0x34 => s.mns.intr.isSome
  | 0x35 => !heldFor s.now s.mns.seqOkSince 10000000
  | 0x36 => !heldFor s.now s.mns.unbalOkSince 10000000
  | 0x37 => !heldFor s.now s.mns.freqOkSince 10000000
  | 0x38 => !s.stb.starved.isEmpty
  | 0x39 => s.plt.plate.fans.any (fun c => (getFan s c.ch).stalled)
  | 0x3A => !s.fan.lossSince.isEmpty
  | 0x3B => s.plt.plate.heats.any (fun c => (getHtd s c.ch).plen)
  | 0x3D => s.fan.fog
  | 0x3E => !s.mot.proveBad.isEmpty
  | 0x3F => s.mot.chs.any (fun e => sinks e.2.st && e.2.plugSince.isSome)
  | 0x40 => s.mot.chs.any (fun e => sinks e.2.st && e.2.slipSince.isSome)
  | 0x41 => s.mot.chs.any (fun e => sinks e.2.st && e.2.ovlSince.isSome)
  | 0x42 => !s.mot.fbBad.isEmpty
  | 0x43 => s.plt.plate.motors.any (fun c => (getMot s c.ch).full)
  | 0x44 => !s.gat.travelBad.isEmpty
  | 0x45 => !s.gat.stallBad.isEmpty
  | 0x46 => s.plt.plate.heats.any (fun c => (getHtd s c.ch).pmtBad)
  | 0x47 => s.can.ctl.any (fun e => e.2.st == 4 || e.2.st == 5)
  | 0x48 => s.can.ctl.any (fun e => e.2.st == 3)
  | 0x49 => s.can.ctl.any (fun e => e.2.out)
  | 0x4A => s.syn.nodes.any (fun e => e.2.st == 3)
  | 0x4B => s.syn.nodes.any (fun e => e.2.st == 4)
  | 0x4C => s.can.ctl.any (fun e => e.2.cfg.isSome && !heldFor s.now e.2.underSince 60000000)
  | 0x4D => decide (lockLeft s > 0)
  | 0x4E => !s.cal.valid
  | 0x4F => s.cal.atEnd
  | m => (untilReset m && (getSrc s.flt m).own) || s.flt.alarms.any (fun a => m == 0x50 + a.1)

/-- The unit state that a supervisor's or monitor's own recovery changes: VANA, the crystal that runs again (XT_OK, while the
cause of XT40_STOP lasts: R247), the RC oscillator, excitation, reference. Where both clocks of MAIN were lost and the RC
oscillator returns first, MAIN stays stopped until the crystal runs again or a chip reset (DESIGN CHOICE, assumption 49: R250
does not say). -/
def unitRecovers (s : State) (n : Nat) : State :=
  match n with
  | 0x08 => { s with pwr := { s.pwr with vanaLow := false } }
  | 0x09 => { s with isl := { s.isl with xtOk := true } }
  | 0x11 => { s with isl := { s.isl with rcOk := true } }
  | 0x30 => let s := keepFlags s true (rangeFrom 0 5); { s with fe := { s.fe with excBad := [] } }
  | 0x31 => let s := calsSpoil (keepFlags s false (rangeFrom 0 5)); { s with fe := { s.fe with refBad := false } }
  | _ => s

/-- The rails of a broken pair have held opposite levels for 1 s (R349, R379), which they cannot sooner after the break. -/
def lineMended (s : State) (n : Nat) : State :=
  let x := getSrc s.flt n
  if !x.broken || decide (s.now < x.brokenAt + 1000000) then s
  else
    let s := { s with flt := setSrc s.flt n { x with broken := false } }
    if s.flt.src.any (fun e => e.2.broken) then s else causeOff s 0x00

/-- The rails that the collector sees of a source under injection have held opposite levels for 1 s. -/
def injMended (s : State) (n : Nat) : State :=
  if s.flt.injTrue == s.flt.injFalse then s
  else
    let s := lineMended s n
    if s.flt.injTrue then s else causeOffNow s n

/-- Injected levels reach the collector (R368): equal ones are a line break after 2 µs. -/
def injFeed (s : State) (n : Nat) : State :=
  if s.flt.injTrue == s.flt.injFalse then (if (getSrc s.flt n).broken then s else lineBreak s n)
  else if s.flt.injTrue then
    if (getSrc s.flt n).cause then s
    else
      let s := raiseNow s n (pw (srcRow n).unit) (srcRow n).unit
      if atRaise n then causeOffNow s n else s
  else causeOffNow s n

/-- The injection ends: the collector sees the source's own rails again. -/
def injRelease (s : State) : State :=
  let n := s.flt.injSrc
  let own := s.flt.injUnder
  let s := { s with flt := { s.flt with injEnable := false, injUnder := none } }
  match own with
  | none => causeOff s n
  | some x => if (getSrc s.flt n).cause then s else raise s n x.1 x.2

/-- A write of FLT_INJECT (Table 9-9): the earlier injection ends, and the one it names begins. -/
def injWrite (s : State) (w : Word) : State :=
  let n := fld w 7 0
  let on := fld w 10 10 == 1
  let s := if s.flt.injEnable && (!on || s.flt.injSrc != n) then injRelease s else s
  let x := getSrc s.flt n
  let under := if s.flt.injEnable then s.flt.injUnder else if on && x.cause then some (x.param, x.unit) else none
  let s := { s with flt := { s.flt with
    injEnable := on
    injFalse := fld w 9 9 == 1
    injTrue := fld w 8 8 == 1
    injSrc := n
    injUnder := under } }
  if on then injFeed s n else s

/-- FAULT_CAUSE_GONE (R358): the cause of a source disappears, where the condition of Table 9-6 holds. -/
def execFaultCauseGone (src : Nat) (s : State) : Res :=
  if s.rst.held || !isSrc src || noRails src then .next s
  else if injected s.flt src then fin (injMended s src)
  else
    let s := unitRecovers (lineMended s src) src
    fin (if causeStands s src then s else causeOff s src)

/-- FATAL_RESET_TIMEOUT (Table 9-4 step 3): 1 s after step 1. -/
def execFatalResetTimeout (s : State) : Res :=
  match s.flt.fatalAt with
  | none => .next s
  | some t => if s.rst.held || s.now < t + 1000000 then .next s else .next (chipReset s 6)

/-- The reset that a reaction C has asked for is due: its source's fault mirror is stored, or 20 ms have passed (R354); or that of
RESTART, which comes within 100 ms (R980). -/
def resetDue (s : State) : Bool :=
  (match s.flt.resetAt with
    | none => false
    | some t => s.flt.resetOk || decide (s.now ≥ t + 20000)) || s.svc.restartAt.isSome

/-- CHIP_RESET_REACTION (R354, R980), with CAUSE 6. -/
def execChipResetReaction (s : State) : Res :=
  if s.rst.held || !resetDue s then .next s else .next (chipReset s 6)

/-- The latched fault mirror as fatal service stores it (R361). -/
def fatalRecord (s : State) : Record :=
  let n := s.flt.fatalSrc
  newRecord s (0x1000 + n) s.flt.fatalUnit s.flt.fatalParam (mirrorB (cfgOf s.flt n).1 .fatal 0)

/-- The sector that the record goes to: the present one, or the ahead one, opened without an erase of the next. -/
def fatalSector (s : State) : Option (State × Option (Nat × Word)) :=
  if !sectorFull s then some (s, none)
  else if !rowBlank s.nvm s.recr.aheadRow then none
  else
    let r := sectorOpened s.recr
    let r := { r with aheadRow := nextRing r r.aheadRow }
    some ({ s with recr := r }, some (presentHeader r false))

/-- FATAL_MIRROR_STORE (R361): at a reading of HOLDUP_SNS, fatal service stores the latched mirror as one chunk. -/
def execFatalMirrorStore (code : Nat) (s : State) : Res :=
  if s.rst.held || s.start.state != .fatalService || s.flt.fatalRecorded || s.recr.chunk.isSome then .next s
  else
    let s := senseHoldup s code
    if !mayStoreNow s then .next s
    else if !canStore s chunkStore then .next (energyRefused s chunkStore)
    else
      match fatalSector s with
      | none => .next s
      | some (t, h) => .next (beginChunk t chunkStore [fatalRecord t] h)

/-! The window watchdog (R364, R365). -/

/-- An expiry (R365): counted in a window of 3 600 second ticks from the first; the outputs take their hung-keeper behaviour. -/
def wdogExpires (s : State) : State :=
  let f := s.flt
  let fresh := f.expiries == 0 || decide (s.cal.ticks > f.expiryTick + 3600)
  { s with flt := { f with
    expiries := if fresh then 1 else f.expiries + 1
    expiryTick := if fresh then s.cal.ticks else f.expiryTick
    expiryDue := true
    hungAt := some s.now } }

/-- 1 ms later (R365): the third expiry of the window raises WDOG_FATAL, any other resets the chip with CAUSE 5. -/
def hungEnds (s : State) : State := if s.flt.expiries ≥ 3 && !s.flt.fatal then raiseFatal s 0x01 (pw 2) else chipReset s 5

/-- The watchdog counts. -/
def wdogRuns (s : State) : Bool := !s.rst.held && s.flt.wdogOn && !s.flt.fatal && !isHung s

/-- WATCHDOG_KICK (R364): a kick before the early limit is an expiry; any other shows that the keeper runs, and it gives the plant
responses that have waited (R380). -/
def execWatchdogKick (s : State) : Res :=
  if !wdogRuns s then .next s
  else
    let d := s.now - s.flt.wdogKick
    if d < s.flt.earlyMs * 1000 || d ≥ s.flt.lateMs * 1000 then fin (wdogExpires s)
    else fin (lateResponses { s with flt := { s.flt with wdogKick := s.now } } (rangeFrom 0 0x60))

/-- WDOG_EXPIRY (R365): no kick before the late limit; and the end of the 1 ms that follow an expiry. -/
def execWdogExpiry (s : State) : Res :=
  match s.flt.hungAt with
  | some t => if s.rst.held || s.now < t + 1000 then .next s else .next (hungEnds s)
  | none => if !wdogRuns s || s.now < s.flt.wdogKick + s.flt.lateMs * 1000 then .next s else fin (wdogExpires s)

/-- BEACON_TOGGLE (R363): every 250 ms. -/
def execBeaconToggle (s : State) : Res :=
  if !beaconRuns s then .next { s with flt := { s.flt with beacon := false } }
  else if s.now < s.flt.beaconAt + 250000 then .next s
  else .next { s with flt := { s.flt with beacon := !s.flt.beacon, beaconAt := s.now } }

/-- COLLECTOR_SELF (R378): the two copies of the collector's state differ. -/
def execCollectorSelf (param : Word) (s : State) : Res :=
  if s.rst.held then .next s else .next (raiseFatal s 0x05 param)

end Sys2Proof.Machine
end

