-- ==== Sys2Proof/Machine/Islands.lean ====
section
/-! DEFINITION. Islands and crossings (chapter 06): TOGGLE_EVENT, QUEUE_ENTRY, HOLD_AND_FLAG, PROBE, CROSSING_TIMEOUT,
RESET_FLUSH, XT40_STOP, RC_LOST. What an event or an entry means to the units is the effect of the units' own commands. -/

namespace Sys2Proof.Machine

open Sys2Proof

/-- The key of a toggle, queue or working register of an island. -/
def islKey (i n : Nat) : Nat := i * 4096 + n % 4096

/-- TOGGLE_EVENT (R222, Table 6-3): one event crosses, the acknowledge matches at its end; `more`: the island raises the
event while an acknowledge is pending, so it is counted, and sent in its turn. -/
def execToggleEvent (i n : Nat) (more : Bool) (s : State) : Res :=
  if s.rst.held || i ≥ 10 || !islRuns s i then .next s
  else
    let k := islKey i n
    let t := tget {} s.isl.toggles k
    let t' : Toggle := if more then { t with counted := satAdd 255 t.counted 1 } else { level := !t.level, counted := t.counted - 1 }
    .next { s with isl := { s.isl with toggles := tset {} s.isl.toggles k t' } }

/-- Queues of Table 6-2 that this command fills and empties by entries: depth, and whether the fabric writes it. The
receive queue of a controller and the queue of CONV fill by FRAME_RECEIVED and SLICE_TURN_BOUNDARY. -/
def queueOf (i q : Nat) : Option (Nat × Bool) :=
  match i, q with
  | 7, 0 => some (64, false)
  | 8, 0 => some (64, false)
  | 8, 1 => some (64, true)
  | 9, 0 => some (64, false)
  | 9, 1 => some (64, true)
  | _, _ => none

/-- The reader takes one entry; an entry that waited at the full queue enters (R224). -/
def queueTake (s : State) (k : Nat) : State :=
  let q := tget [] s.isl.queues k
  let l := tget [] s.isl.late k
  if q.isEmpty then s
  else
    { s with isl := { s.isl with
      queues := tset [] s.isl.queues k (q.drop 1 ++ l.take 1)
      late := tset [] s.isl.late k (l.drop 1) } }

/-- The writer puts one entry; an island that finds the queue full discards it (R225), a fabric writer waits (R224). -/
def queuePut (s : State) (i n depth : Nat) (fabric : Bool) (w : Word) : State :=
  let k := islKey i n
  let q := tget [] s.isl.queues k
  if q.length < depth then { s with isl := { s.isl with queues := tset [] s.isl.queues k (q ++ [w]) } }
  else if fabric then { s with isl := { s.isl with late := tset [] s.isl.late k (tget [] s.isl.late k ++ [w]) } }
  else islOverflow s i n

/-- A receive queue or the CONV queue is full. -/
def unitQueueFull (s : State) (i n : Nat) : Bool :=
  n == 0 && ((i == 6 && decide (s.fe.conv.length ≥ 256)) ||
    (decide (1 ≤ i ∧ i ≤ 4) && decide ((getCan s (i - 1)).rx.length ≥ 64)))

/-- QUEUE_ENTRY (R223 to R225): an entry is written, or the reader takes one. -/
def execQueueEntry (i n : Nat) (entry : Option Word) (s : State) : Res :=
  if s.rst.held || i ≥ 10 || !islRuns s i then .next s
  else match queueOf i n, entry with
    | some (d, f), some w => fin (queuePut s i n d f w)
    | some _, none => .next (queueTake s (islKey i n))
    | none, some _ => if unitQueueFull s i n then fin (islOverflow s i n) else .next s
    | none, none => .next s

/-- The words of a set enter the working registers at one clock edge. -/
def putWork (t : Tab Word) (k : Nat) : List Word → Tab Word
  | [] => t
  | w :: ws => putWork (tset 0#40 t k w) (k + 1) ws

/-- HOLD_AND_FLAG (R226 to R228): a word or a set of up to four words is taken. -/
def execHoldAndFlag (i base : Nat) (words : List Word) (s : State) : Res :=
  if s.rst.held || i ≥ 10 || !islRuns s i || words.length > 4 then .next s
  else .next { s with isl := { s.isl with work := putWork s.isl.work (islKey i base) words } }

/-! Clocks and probes. -/

/-- The clock of an island runs: its 32.768 kHz crystal, or the source of MAIN (R218, R251). -/
def islClock (s : State) (i : Nat) : Bool := if i == 0 then s.cal.xtRun else if s.isl.onRc then s.isl.rcOk else s.isl.xtOk

/-- The probe among the toggles of an island, numbered in the order of Table 6-2 (DESIGN CHOICE, assumption 12). -/
def probeToggle (i : Nat) : Nat := if i ≤ 4 then 2 else if i == 6 then 1 else 0

/-- A probe to one island whose crossing is not held in reset: the acknowledge matches, or the transfer times out. -/
def probeIsl (s : State) (i : Nat) : State :=
  if !islRuns s i then s
  else if islClock s i then
    let k := islKey i (probeToggle i)
    let t := tget {} s.isl.toggles k
    { s with isl := { s.isl with toggles := tset {} s.isl.toggles k { t with level := !t.level } } }
  else islStop s i

def probeIsls (s : State) : List Nat → State
  | [] => s
  | i :: is => probeIsls (probeIsl s i) is

/-- 10 ms have passed since the last probe. -/
def probeDue (s : State) : Bool := match s.isl.probeAt with | none => true | some t => decide (t + 10000 ≤ s.now)

/-- PROBE (R231, R251): each island with a clock answers with the acknowledge only, any other stops. -/
def execProbe (s : State) : Res :=
  if s.rst.held || !probeDue s then .next s
  else fin (probeIsls { s with isl := { s.isl with probeAt := some s.now } } (rangeFrom 0 10))

/-- CROSSING_TIMEOUT (R240, Table 6-7): a transfer to an island whose clock has stopped times out. -/
def execCrossingTimeout (i : Nat) (s : State) : Res :=
  if s.rst.held || i ≥ 10 || (getIsl s i).st == 3 then .next s else fin (islStop s i)

/-- RESET_FLUSH (R244, R245, Table 6-8): the island's clock runs for it. -/
def execResetFlush (i : Nat) (s : State) : Res :=
  if s.rst.held || i ≥ 10 || !islClock s i then .next s else fin (islFlush s i)

def canOffs (s : State) : List Nat → State
  | [] => s
  | n :: ns => canOffs (canOffRc s n) ns

/-- XT40_STOP (R246 to R249): MAIN changes to the RC oscillator and the controllers leave the bus; with the RC oscillator
lost as well, MAIN stops (R250). A crystal that ran again and stops while MAIN is on RC is one stop more (R247). -/
def execXt40Stop (s : State) : Res :=
  if s.rst.held || !s.isl.xtOk then .next s
  else if s.isl.rcOk && !s.isl.onRc then fin (canOffs (xtSwitch s) (rangeFrom 0 4))
  else
    let i := { s.isl with xtOk := false, xtStops := satAdd 255 s.isl.xtStops 1 }
    fin (causeOn { s with isl := i } 0x09 (pw 9))

/-- RC_LOST (R250): no RC edge for 1 µs while the crystal runs. MAIN stops where it runs on the RC oscillator. -/
def execRcLost (s : State) : Res :=
  if s.rst.held || !s.isl.rcOk || !s.isl.xtOk then .next s
  else fin (raiseU { s with isl := { s.isl with rcOk := false } } 0x11 (pw 9))

end Sys2Proof.Machine
end

