-- ==== Sys2Proof/Machine/Nvm.lean ====
section
/-! DEFINITION. Deferred stores and the power-fail flush (chapter 03): FLUSH_STEP, STORE_QUEUE_RETRY, HOLDUP_LOW,
OPERATING_SECONDS_STORE; the non-volatile array (chapter 08): WORD_STORE_END, ERASE_PULSE_END, SCRUB_READ, SCRUB_LATE,
ROW_RETIREMENT, PERSISTENT_PASS, NVM_TIMEOUT. -/

namespace Sys2Proof.Machine

open Sys2Proof

/-- A command that completes, with what follows where it ended the flush of the fatal sequence. -/
def finConfirm (s : State) : Res := .next (fatalConfirm (settle s))

/-- FLUSH_STEP (R107), with a reading of HOLDUP_SNS. -/
def execFlushStep (code : Nat) (s : State) : Res :=
  if s.rst.held then .next s else finConfirm (svcStores (flushStep (senseHoldup s code)))

/-- STORE_QUEUE_RETRY (R100), at most every 1 ms. -/
def execStoreQueueRetry (code : Nat) (s : State) : Res :=
  if s.rst.held || s.now < s.pwr.lastRetry + 1000 then .next s
  else
    let s := senseHoldup s code
    match retryPick s with
    | none => .next (svcStores (queueGone s))
    | some t => finConfirm (svcStores (retryStore { s with pwr := { s.pwr with lastRetry := s.now } } t))

/-- HOLDUP_LOW (R104): the head entry has waited 10 s outside warnings. -/
def execHoldupLow (s : State) : Res :=
  if s.rst.held || s.pwr.pfw || headWait s < 10000000 then .next s else fin (causeOn s 0x26 (pw 5))

/-- OPERATING_SECONDS_STORE (R112, R317): 360 s after the newest stored value. -/
def execOperatingSecondsStore (s : State) : Res :=
  if !keeperRuns s || s.cal.opSec < storedOpSec s.nvm + 360 || flushTurns s 2 then .next s
  else fin (storeWord s .opSeconds (nextRot s.nvm 0 (·.toNat)) (pw s.cal.opSec))

/-- WORD_STORE_END (R304): the word in hand of a bank; `differs` tells the result of its verify. A service request whose
stores have ended with it is answered (R103), and the fatal sequence goes on once its flush is confirmed. -/
def execWordStoreEnd (bank : Nat) (differs : Bool) (s : State) : Res :=
  let b := bank % 4
  match (getBank s.nvm b).hand with
  | none => .next s
  | some t =>
    if s.rst.held then .next s
    else
      match t.kind, t.words with
      | .erase, _ => .next s
      | .read, _ => .next s
      | _, [] => fin (svcStores (bankRelease (dropHand s b) b))
      | _, x :: _ => finConfirm (svcStores (wordEnd s b t x differs))

/-- ERASE_PULSE_END (R305): `blank` tells the result of the blank check. -/
def execErasePulseEnd (bank : Nat) (blank : Bool) (s : State) : Res :=
  let b := bank % 4
  match (getBank s.nvm b).hand, (getBank s.nvm b).erase with
  | some t, some e => if t.kind == .erase && !s.rst.held then fin (svcStores (pulseEnd s b e blank)) else .next s
  | _, _ => .next s

/-- SCRUB_READ (R325): the schedule goes on by one packet, and every bank asks for the packets it is behind; those that its
arbiter grants at once are read. `found` lists words whose cells have changed, with true for two or more wrong bits. -/
def execScrubRead (found : List (Nat × Bool)) (s : State) : Res :=
  if !keeperRuns s || s.now < s.nvm.lastScrub + 400000 then .next s
  else
    let s := degrades s found
    let s := { s with nvm := { s.nvm with lastScrub := s.now, scrubGoal := min bankWords (s.nvm.scrubGoal + 16) } }
    fin (svcStores (scrubBanks s [0, 1, 2, 3]))

/-- SCRUB_LATE (R328): 24 h of operating time since the pass began. -/
def execScrubLate (s : State) : Res :=
  if !keeperRuns s || s.cal.opSec < s.nvm.scrubFrom + 86400 then .next s
  else fin (causeOn { s with nvm := { s.nvm with late := true } } 0x25 (pw 4))

/-- ROW_RETIREMENT (Table 8-5): the next step of the retirement in hand, or the first of one that waits. `differs` tells
the result of step 3's read-back. During a warning its stores are dropped (R333, R340). -/
def execRowRetirement (differs : Bool) (s : State) : Res :=
  if !keeperRuns s || s.pwr.pfw then .next s
  else
    let s := retireNext s
    match s.nvm.retire with
    | none => fin s
    | some r => fin (retireStep s r differs)

/-- PERSISTENT_PASS (R319): every 900 s while armed, outside a flush (R347). -/
def execPersistentPass (s : State) : Res :=
  if !isArmed s || s.pwr.pfw || s.now < s.nvm.lastPass + 900000000 then .next s else fin (persistentPass s)

/-- The turn in hand of a bank that did not complete (R343): a word that it was programming is torn, and the store is retried
from the store queue; one of a service request, which never enters the queue (R103), and a read packet ask for a turn of the bank
once more. -/
def turnTorn (s : State) (b : Nat) : State :=
  match (getBank s.nvm b).hand with
  | none => s
  | some t =>
    let s := match t.kind, t.words with
      | .erase, _ => s
      | .read, _ => s
      | _, [] => s
      | _, x :: _ =>
        if t.owner == .retireCopy || wordOut s.nvm t x false != .programmed then s else markW0 (tearWord s x) t x.1 false
    let s := dropHand s b
    let t := { t with started := false }
    if t.kind == .read || svcStore t then
      let x := getBank s.nvm b
      { s with nvm := setBank s.nvm b { x with turns := x.turns ++ [t] } }
    else enqueue s b t

/-- NVM_TIMEOUT (R343): a turn of the bank has not completed within 2 ms, whether its arbiter granted it or a retirement made it
behind the freeze. -/
def execNvmTimeout (bank : Nat) (s : State) : Res :=
  let b := bank % 4
  if s.rst.held || ((getArb s (8 + b)).owner.isNone && !bankOwned s b) then .next s
  else
    let s := bankRelease (turnTorn s b) b
    fin (svcStores (pulse s 0x21 (pw b)))

end Sys2Proof.Machine
end

