-- ==== Sys2Proof/Machine/PlatePort.lean ====
section
/-! DEFINITION. The plate write (R517 to R526, Table 13-6): PLATE_BEGIN, PLATE_DATA, PLATE_END and the operations of the SPI
flash: FLASH_SECTOR_ERASE_END, FLASH_PAGE_PROGRAM_END, FLASH_TIMEOUT. -/

namespace Sys2Proof.Machine

open Sys2Proof

def setWrite (s : State) (w : PltWrite) : State := { s with plt := { s.plt with write := w } }

/-- First byte of a slot (R502). -/
def slotBase (slot : Nat) : Nat := slot * 0x400000

/-- A write is in progress. -/
def writing (w : PltWrite) : Bool := decide (1 ≤ w.state ∧ w.state ≤ 4)

/-! Flash operations. -/

/-- Begin the erase of sector k of the slot. -/
def sectorErase (s : State) (k : Nat) : State :=
  let w := s.plt.write
  let x := pltAccess s.straps
  setWrite s { w with sector := k, op := some {
    since := s.now
    addr := busAddr x (slotBase w.slot + 4096 * k)
    cmd := if x.addrBytes == 4 then 0x21 else s.plt.facts.op4k } }

/-- Cut bytes into pages: no program crosses a 256-byte boundary. The first argument bounds the pages. -/
def pagesOf : Nat → Nat → List Byte → List (Nat × List Byte)
  | 0, _, _ => []
  | _, _, [] => []
  | k + 1, a, b :: bs =>
    let n := 256 - a % 256
    (a, (b :: bs).take n) :: pagesOf k (a + n) ((b :: bs).drop n)

/-- Begin the program of the first page in hand. -/
def nextPage (s : State) : State :=
  let w := s.plt.write
  match w.pages with
  | [] => setWrite s { w with op := none }
  | (a, bs) :: rest =>
    let x := pltAccess s.straps
    setWrite s { w with pages := rest, op := some { since := s.now, addr := busAddr x a, data := some bs, cmd := x.programCmd } }

/-- A page program clears bits only. -/
def flashProgram (f : Tab Byte) (a : Nat) : List Byte → Tab Byte
  | [] => f
  | b :: bs => flashProgram (tset 0xFF#8 f a (tget 0xFF#8 f a &&& b)) (a + 1) bs

/-- Bytes of an operation that failed: the manual states nothing of them, so each takes a free value. -/
def flashFree (s : State) (a : Nat) : Nat → State
  | 0 => s
  | n + 1 =>
    let (f, s) := takeFree s
    flashFree { s with plt := { s.plt with flash := tset 0xFF#8 s.plt.flash a (BitVec.ofNat 8 f.toNat) } } (a + 1) n

/-! Commands of the tool. -/

/-- Steps 7 and 8 of the start run (R439): a start that has ended in the moored state has left them (R528). -/
def readingPlates (s : State) : Bool := s.start.state == .starting && (s.start.step == 7 || s.start.step == 8)

/-- PLATE_BEGIN (R518): refused mid-write, it abandons the write (R523). -/
def plateBegin (slot length : Nat) (s : State) : Answer :=
  let w := s.plt.write
  if writing w then answerSt stBusy (pltAbandon (pltAnswer s stBusy) 3)
  else if w.op.isSome || readingPlates s then answerSt stBusy s
  else if s.pwr.pfw then answerSt stEnergy s
  else if length < 71 || 838860 < length || slot > 1 || !flashOk s.plt.facts || !s.plt.facts.erase4k then answerSt stRange s
  else
    let w : PltWrite := { state := 1, slot := slot, length := length, sectors := (5 * length + 4095) / 4096 }
    answerSt stOk (sectorErase (setWrite s w) 0)

/-- PLATE_DATA (Table 13-6 step 2): bytes 0 to 319 are kept, the others programmed before the reply. -/
def plateData (seq off : Nat) (bs : List Byte) (s : State) : Answer :=
  let w := s.plt.write
  if w.state == 6 && w.fail == 2 then answerSt stEnergy s
  else if w.state == 1 || w.frame.isSome then answerSt stBusy s
  else if w.state != 2 || off != w.bytes || off + bs.length > 5 * w.length || bs.isEmpty || bs.length > 1000 then
    answerSt stRange s
  else
    let kept := bs.take (320 - off)
    let rest := bs.drop (320 - off)
    let a := slotBase w.slot + max off 320
    let w := { w with bytes := off + bs.length, head := w.head ++ kept, pages := pagesOf bs.length a rest }
    if rest.isEmpty then answerSt stOk (setWrite s w)
    else (none, nextPage (setWrite s { w with frame := some (seq, 0x41) }))

/-- PLATE_END (Table 13-6 step 3): the header is programmed, its first page last, so that no MAGIC stands in the slot before the
write completes (R523). -/
def plateEnd (seq : Nat) (s : State) : Answer :=
  let w := s.plt.write
  if w.state == 6 && w.fail == 2 then answerSt stEnergy s
  else if !(w.state == 1 || w.state == 2) || w.bytes != 5 * w.length then answerSt stRange s
  else if w.frame.isSome then answerSt stBusy s
  else
    let w := { w with state := 3, frame := some (seq, 0x42), pages := (pagesOf 320 (slotBase w.slot) w.head).reverse }
    (none, nextPage (setWrite s w))

/-- The words of the slot under write. -/
def writtenWords (s : State) : List Word :=
  (rangeFrom 0 s.plt.write.length).map (flashWord (pltAccess s.straps) s.plt.flash s.plt.write.slot)

/-- The header is programmed: the slot is read back and validated (R517, R520). -/
def plateVerify (s : State) : State :=
  let w := s.plt.write
  let ws := writtenWords s
  let r : Refuse := (validatePlate (plateEnv s s.plt.facts) ws).getD ⟨0, 0, 0⟩
  let seq := match w.frame with | some f => f.1 | none => 0
  let s := wordsFound s (plateReads s.nvm r.code)
  let s := setWrite s { w with state := 5, code := r.code, frame := none, op := none }
  let s := addRecord s 0x4005 0x17 (pw w.slot) (pw (fld (ws.getD 2 0#40) 39 16))
  svcReply s seq 0x42 (stByte stOk :: wordBytes (if r.code == 0 then 0#40 else r.param))

/-- PLATE_BEGIN. -/
def execPlateBegin (seq slot length : Nat) (s : State) : Res := framed s seq 0x40 (some engOnly) (plateBegin slot length)

/-- PLATE_DATA. -/
def execPlateData (seq off : Nat) (bytes : List Byte) (s : State) : Res :=
  framed s seq 0x41 (some engOnly) (plateData seq off bytes)

/-- PLATE_END. -/
def execPlateEnd (seq : Nat) (s : State) : Res := framed s seq 0x42 (some engOnly) (plateEnd seq)

/-! Ends of flash operations. -/

/-- FLASH_SECTOR_ERASE_END (R519): the next sector, or the write goes on to receiving. An abandoned write ends here. -/
def execFlashSectorEraseEnd (s : State) : Res :=
  match s.plt.write.op with
  | some ⟨_, a, none, _⟩ =>
    if s.rst.held || !islRuns s 9 then .next s
    else
      let s := { s with plt := { s.plt with flash := flashErase s.plt.flash a } }
      let w := s.plt.write
      if w.state == 1 then
        fin (if w.sector + 1 < w.sectors then sectorErase s (w.sector + 1) else setWrite s { w with state := 2, op := none })
      else fin (setWrite s { w with op := none })
  | _ => .next s

/-- A page is programmed: the next one, or the frame in hand is answered, or the header is complete. -/
def pageEnd (s : State) : State :=
  let w := s.plt.write
  if !w.pages.isEmpty then nextPage s
  else if w.state == 3 then plateVerify (setWrite s { w with state := 4, op := none })
  else pltAnswer (setWrite s { w with op := none }) stOk

/-- FLASH_PAGE_PROGRAM_END (R519). -/
def execFlashPageProgramEnd (s : State) : Res :=
  match s.plt.write.op with
  | some ⟨_, a, some bs, _⟩ =>
    if s.rst.held || !islRuns s 9 then .next s
    else fin (pageEnd { s with plt := { s.plt with flash := flashProgram s.plt.flash a bs } })
  | _ => .next s

/-- FLASH_TIMEOUT (R526): an erase past 1 s, a page program past 10 ms. The write is abandoned with FAIL 1, and the frame
in hand answers BUSY. -/
def execFlashTimeout (s : State) : Res :=
  match s.plt.write.op with
  | none => .next s
  | some o =>
    let bound := match o.data with | none => 1000000 | some _ => 10000
    if s.rst.held || s.now ≤ o.since + bound then .next s
    else
      let n := match o.data with | none => 4096 | some bs => bs.length
      let s := flashFree s o.addr n
      let s := setWrite s { s.plt.write with op := none }
      fin (pltAbandon (pltAnswer s stBusy) 1)

end Sys2Proof.Machine
end

