-- ==== Sys2Proof/Machine/StartSeq.lean ====
section
/-! DEFINITION. The start timeline (Table 11-1): IMAGE_PAIRING, HOLDUP_GATE_READING, PROOF, KEEPER_START, PLATE_READ,
ADMISSION, ADMISSION_RERUN, ISLAND_CONFIGURATION, FIRST_VALUES_TIMEOUT, IDENTITY_CHECK_TIMEOUT, ARMED, with
AUTO_START_ARMED and KEEPER_VALUE_WRITE. A step begins only when the one before it has ended (R425). -/

namespace Sys2Proof.Machine

open Sys2Proof

/-- The start goes on: no reset is held and no service state or arming has ended it. -/
def starting (s : State) : Bool := !s.rst.held && !s.flt.fatal && s.start.state == .starting

/-- IMAGE_PAIRING (R432, step 2): the recorder's areas are located, operating seconds count from the newest stored word
(R436), and the trip unit's instant is taken (R35). -/
def execImagePairing (s : State) : Res :=
  if !starting s || s.start.step != 1 then .next s
  else
    let s := locate { s with
      start := { s.start with step := 2 }
      fan := { s.fan with tripT := if s.fan.trip then some (s.fan.tripT.getD s.cal.opSec) else s.fan.tripT } }
    .next (pairImages s)

/-- The gate has passed (R97): the incremented count is stored, a wait of at least one reading is recorded, and
failed-authentication words that changed before it are stored (R120, R965). -/
def gatePass (s : State) : State :=
  let waited := decide (s.pwr.gateReads > 1)
  let s := { s with pwr := { s.pwr with gate := true, gateWaited := waited || s.pwr.gateWaited } }
  let s := if waited then
      addRecord s 0x5005 5 (pw (satTo (2 ^ 40 - 1) (msOf (s.now - s.pwr.gateFrom)))) (pw s.pwr.energyUj)
    else s
  let s := storeWord s .powerCycle (nextRot s.nvm 64 (fun w => fld w 23 0)) (pw s.pwr.powerCycles)
  let s := storeAuth s false s.svc.authWords
  { s with start := { s.start with step := 4 } }

/-- HOLDUP_GATE_READING (R96): the first reading opens step 3, the others follow each 10 ms. An open HU_CLASS ball ends in
boot-ROM service and no gate passes (Table 2-10). -/
def execHoldupGateReading (code : Nat) (s : State) : Res :=
  let st := s.start
  let here := !s.rst.held && !s.flt.fatal && (st.state == .starting || st.state == .bootService)
  let due := st.step == 2 || (st.step == 3 && decide (s.now ≥ s.pwr.gateFrom + 10000 * s.pwr.gateReads))
  if !here || !due || s.pwr.gate then .next s
  else
    let first := st.step == 2
    let s := senseHoldup { s with start := { s.start with step := 3 } } code
    let s := { s with pwr := { s.pwr with
      gateFrom := if first then s.now else s.pwr.gateFrom
      gateReads := (if first then 0 else s.pwr.gateReads) + 1 } }
    if huOpen s then
      let s := { s with start := { s.start with huOpen := true } }
      .next (if s.start.state == .starting then bootService s else s)
    else if s.pwr.energyUj ≥ eGate && !s.pwr.pfwPin then .next (gatePass s)
    else .next s

/-- Phases 1 and 2 (Table 12-2): lanes, routes and keeper tiles. A cut spine is Fatal; fewer than two keeper tiles split the
keeper (R213, R465). -/
def proofFabric (s : State) (lanes keepers : List Nat) : State :=
  let s := spineStatus (proofLanes s lanes)
  if spineCut (deadDirs s) then raiseU s 0x04 (pw 6)
  else
    let s := proofKeepers s keepers
    if (s.eng.kRetired.filter id).length ≥ 2 then keeperSplit s else proofTiles s (cutTiles (deadDirs s))

/-- Phases 3 to 6. -/
def proofUnits (s : State) (tiles : List Nat) (rows sram weak : List (Nat × Nat)) (slices : List SliceRef) : State :=
  let bad := (rangeFrom 0 6).filter (fun k => !refOk (slices.getD k {}))
  let s := proofSrams (proofRows (proofTiles s tiles) rows) sram
  let s := proofSlices (proofWeaks s weak) bad
  { s with prf := { s.prf with passed := (rangeFrom 0 6).filter (fun k => !bad.contains k) } }

/-- The end of the proof: logical tiles, the faults of every start, PROOF_DONE (R469). -/
def proofEnd (s : State) (ms : Nat) : State :=
  let s := proofFaults (assignTiles s)
  let s := { s with prf := { s.prf with done := true, durMs := satTo 1023 ms } }
  addRecord s 0x000D 6 (pw s.prf.newN) (pw ms)

/-- PROOF (R469 to R480): the map, the findings of the phases, and the moored state under TESTMODE (R64). `lanes` lists wrong
lanes as the WHERE of a KIND 5 entry, `weak` rows with a weak word, `rows` and `sram` failing SRAM rows by tile or bank, `slices`
what Table 12-3 measures on each slice. -/
def execProof (ms : Nat) (lanes keepers tiles : List Nat) (rows sram weak : List (Nat × Nat)) (slices : List SliceRef)
    (s : State) : Res :=
  if !starting s || s.start.step != 4 || !s.pwr.pccStored then .next s
  else
    let s := mapLoad { s with start := { s.start with step := 5 }, nvm := journalFrom s.nvm }
    let s := proofFabric { s with prf := { s.prf with nvmSet := s.pwr.powerCycles % 9 } } lanes keepers
    if s.rst.held || s.flt.fatal then .next s
    else
      let s := proofEnd (proofUnits s tiles rows sram weak slices) ms
      .next (if testmode s then moorEnter (addRecord s 0x0002 1 0#40 0#40) 1 else s)

/-- KEEPER_START (R296, step 6); `badTiles` fail the check of their loaded engine image twice (R434). -/
def execKeeperStart (badTiles : List Nat) (s : State) : Res :=
  let here := !s.rst.held && !s.flt.fatal && (s.start.state == .starting || s.start.state == .moored)
  if !here || s.start.step != 5 || !s.prf.done then .next s
  else
    let s := loadTiles (keeperStart s) badTiles
    fin (if s.start.state == .moored then moorIslands s else s)

/-- PLATE_READ (R437, step 7): plate A, then plate B once A has been refused. `ok` says that the flash answers, the others
are the facts of its SFDP tables (R502). -/
def execPlateRead (ok erase4k addr4 : Bool) (op4k density : Nat) (s : State) : Res :=
  let facts : FlashFacts := {
    ok := ok && islRuns s 9, erase4k := erase4k, addr4 := addr4, op4k := op4k, density := density }
  if !starting s || testmode s || !keeperRuns s || s.start.step > 8 || s.plt.cand.isSome || s.plt.admitted then .next s
  else fin (readPlate s facts)

/-- The units that admission places on. -/
def admitNow (s : State) (p : Plate) (full : Bool) : AdmRun :=
  admitRun p (s.prf.tiles.filter (fun e => e.2.logical != 127)).length (slicesIn s).length s.prf.sramOut.length full

/-- One admission run and what follows. -/
def admitStep (s : State) (p : Plate) (ms : Nat) (full : Bool) : State :=
  let r := admitNow s p full
  let slot := s.plt.candSlot
  let s := { s with adm := { s.adm with durMs := satTo 4095 ms } }
  match r.fail with
  | some f => admRefuse s slot f
  | none => admComplete (admPass s p slot r) p slot

/-- ADMISSION (R534, step 8). -/
def execAdmission (ms : Nat) (s : State) : Res :=
  match s.plt.cand with
  | none => .next s
  | some p =>
    if !starting s || s.start.step != 7 then .next s
    else
      let s := { s with start := { s.start with step := 8 }, adm := { s.adm with rerun := false, reran := false, late := [] } }
      fin (admitStep s p ms true)

/-- ADMISSION_RERUN (R557): once more from check 2 on the units then present. A refusal undoes what the first run had
loaded. -/
def execAdmissionRerun (ms : Nat) (s : State) : Res :=
  if !starting s || s.start.step != 8 || !s.plt.admitted || !s.adm.rerun || s.adm.reran then .next s
  else
    match s.plt.cand with
    | none => .next s
    | some p =>
      let s := assignTiles { s with adm := { s.adm with reran := true } }
      match (admitNow s p false).fail with
      | none => fin (admitStep s p ms false)
      | some _ => fin (admitStep (unloadPlate s) p ms false)

/-- Configure the islands in service (R252); a stopped one takes its words after its flush (R245). -/
def islConfigures (s : State) : List Nat → State
  | [] => s
  | i :: is => islConfigures (if (getIsl s i).st == 1 then islConfigure s i else s) is

/-- ISLAND_CONFIGURATION (R252, R605, R640, R944, step 9): islands, the front end's grid, the nodes that are to report. Steps
10 and 11 begin at its end. -/
def execIslandConfiguration (s : State) : Res :=
  if !starting s || s.start.step != 8 || !s.plt.admitted || (s.adm.rerun && !s.adm.reran) then .next s
  else
    let s := islConfigures { s with start := { s.start with step := 9 } } (rangeFrom 0 10)
    let nodes := s.plt.plate.nodes.foldl (fun (t : Tab NodeSt) c => tset {} t (nodeKey c.bus c.node) { st := 1 }) []
    let s := feStart { s with syn := { s.syn with nodes := nodes, plant := plantFlags s } }
    let s := if s.pwr.vanaLow then vanaFaults s s.plt.plate.scans else s
    fin { s with start := { s.start with step := 10, step9At := s.now } }

/-- Every list has delivered its first sample (R605); a list without entries has none to deliver (DEDUCED). -/
def listsDelivered (s : State) : Bool :=
  (rangeFrom 0 s.adm.lists.length).all (fun l => (listEntries s l).isEmpty || (getList s l).delivered)

/-- The step that SYS_START reports while steps 10 and 11 run together (R428). -/
def stepNow (x : Start) : Start := { x with step := if x.step10 && !x.step11 then 11 else x.step }

/-- FIRST_VALUES_TIMEOUT (R605): step 10 ends. -/
def execFirstValuesTimeout (s : State) : Res :=
  if !starting s || s.start.step < 10 || s.start.step10 then .next s
  else if listsDelivered s || decide (s.now ≥ s.start.step9At + 1000000) then
    fin { s with start := stepNow { s.start with step10 := true } }
  else .next s

/-- Declared nodes that have not reported. -/
def nodesSilent (s : State) : List NodeCfg := s.plt.plate.nodes.filter (fun c => (getNode s (nodeKey c.bus c.node)).st == 1)

def nodesLose (s : State) : List NodeCfg → State
  | [] => s
  | c :: cs => nodesLose (nodeLose s c.bus c.node) cs

/-- IDENTITY_CHECK_TIMEOUT (R444): step 11 ends; nodes that have not reported are lost. -/
def execIdentityCheckTimeout (s : State) : Res :=
  if !starting s || s.start.step < 10 || s.start.step11 then .next s
  else if (nodesSilent s).isEmpty || decide (s.now ≥ s.start.step9At + 5000000) then
    let s := nodesLose s (nodesSilent s)
    fin { s with start := { s.start with step11 := true } }
  else .next s

/-- The remote channels of the plate. -/
def remoteChannels (p : Plate) : List (Nat × Nat) :=
  (p.remotes.filter (fun r => decide (r.kind < 4))).map (fun r => (r.kind, r.logical))

/-- ARMED (R443, step 12). -/
def execArmed (s : State) : Res :=
  if !starting s || s.start.step < 10 || !s.start.step10 || !s.start.step11 then .next s
  else
    let s := { s with
      start := { s.start with
        state := .armed
        step := 12
        armedMs := satTo 16777215 (msOf (s.now - s.rst.t0))
        armedAt := s.now
        sects := s.plt.plate.sects.foldl (fun (t : Tab Sect) c =>
          tset {} t c.sect { st := 1, cond := isTrue (readVal s c.cond) }) [] }
      stb := { s.stb with arming := false, stepAt := s.now }
      fan := { s.fan with supFrom := s.now }
      nvm := { s.nvm with lastPass := s.now } }
    let s := addRecord s 0x2001 1 (pw s.start.plate) (pw (plateSerial s))
    fin (sendNow (lateFails s s.adm.late) (remoteChannels s.plt.plate))

/-- AUTO_START_ARMED (R449, Table 11-7): once per start, at the plate's delay after arming. -/
def execAutoStartArmed (sect : Nat) (s : State) : Res :=
  match sectCfg s sect with
  | none => .next s
  | some c =>
    let x := getSect s sect
    if !isArmed s || c.auto != 1 || x.fired || s.now < s.start.armedAt + c.delayS * 1000000 then .next s
    else fin (fireRule (setSect s sect { x with fired := true }) sect)

/-- KEEPER_VALUE_WRITE (R451): at a change, and every 1 s. -/
def execKeeperValueWrite (s : State) : Res :=
  if !keeperWrites s then .next s
  else
    let due := decide (s.now ≥ s.start.lastKeeperWrite + 1000000)
    let s := plantPuts s due
    fin (if due then { s with start := { s.start with lastKeeperWrite := s.now } } else s)

end Sys2Proof.Machine
end

