-- ==== Sys2Proof/Machine/RegsSys.lean ====
section
/-! DEFINITION. Registers of the windows ID to ADM as a READ returns them (chapters 02 to 04, 07 to 12, 14, 25; addresses of
Table 27-3). A bit that the manual leaves undefined is taken from the free word in hand. -/

namespace Sys2Proof.Machine

open Sys2Proof

/-! ID (chapter 11). -/

/-- ID_IMGi (Table 11-9). -/
def regIdImg (x : ImgRes) : Word :=
  packW [(39, 39, b2n x.present), (38, 38, b2n x.valid), (37, 37, b2n x.stepOk), (36, 36, b2n x.partnerOk),
    (31, 0, x.version)]

/-- ID_PAIR (Table 11-10). -/
def regIdPair (x : Start) : Word :=
  packW [(11, 8, x.whyB), (7, 4, x.whyA), (3, 3, b2n x.service), (2, 2, b2n x.fallback), (1, 1, b2n x.preferred),
    (0, 0, b2n x.running)]

def regId (s : State) (a : Nat) : Word :=
  if a == 0 then packW [(23, 16, 0x40), (15, 0, Config.stepping.toNat)]
  else if a == 1 then Config.serial 0
  else if a == 2 then Config.serial 1
  else if a == 3 then pw Config.bootRomVersion.toNat
  else if 0x10 ≤ a ∧ a ≤ 0x13 then regIdImg (s.start.imgs.getD (a - 0x10) {})
  else if a == 0x20 then regIdPair s.start
  else if 0x100 ≤ a ∧ a ≤ 0x13F then ((s.start.imgs.getD ((a - 0x100) / 16) {}).list).getD (a % 16) 0#40
  else 0#40

/-! SYS (chapters 02, 07, 11, 12, 25). -/

/-- SYS_STRAPS_NOW: the bit of an open ball is undefined (Table 2-13). -/
def regStrapsNow (s : State) : Word :=
  let f := Config.freeWord s.free
  pw (maskOf ((rangeFrom 0 11).map (fun i => (s.straps.present.getD i none).getD (bitOf f i))))

/-- SYS_KEEPER (Table 7-8). -/
def regKeeper (e : Eng) : Word :=
  packW [(29, 22, e.misc.getD 2 0), (21, 14, e.misc.getD 1 0), (13, 6, e.misc.getD 0 0), (5, 3, maskOf e.kRetired),
    (2, 0, maskOf e.voting)]

/-- SYS_FRAME (Table 7-9). -/
def regFrame (e : Eng) : Word :=
  packW [(39, 28, e.skips), (27, 27, b2n e.chain), (26, 11, e.frames / 1200), (10, 0, e.frames % 1200)]

/-- SYS_SAT (Table 7-10). -/
def regSat (e : Eng) : Word := packW [(39, 24, e.satLast), (23, 1, e.satCount), (0, 0, b2n e.sat)]

/-- SYS_START (Table 11-11). -/
def regStart (s : State) : Word :=
  let x := s.start
  packW [(39, 16, x.armedMs), (11, 10, x.plate), (9, 7, stateCode s), (6, 5, x.moorWhy), (3, 0, x.step)]

/-- SYS_SPARES (Table 12-10); 0 until the proof writes it. -/
def regSpares (s : State) : Word :=
  if !s.prf.done then 0#40
  else
    let retired := (allTiles.filter (fun p => decide ((getTile s p).st ≥ 2))).length
    let n := (slicesIn s).length
    packW [(39, 33, logicalCount s), (32, 29, (sparesLeft s).length), (28, 27, s.prf.factory), (26, 20, retired),
      (19, 17, n), (16, 16, b2n (n == 6)), (15, 10, 32 - s.prf.sramUsed.foldl (· + ·) 0)]

/-- SYS_SECTn (Table 11-12). -/
def regSect (s : State) (n : Nat) : Word :=
  let x := getSect s n
  let auto := match sectCfg s n with | some c => c.auto | none => 0
  packW [(31, 24, x.stoppedBy), (23, 22, x.lastStop), (21, 20, x.lastStart), (19, 18, auto), (2, 0, x.st)]

/-- SYS_LOCKVIOL (Table 25-10). -/
def regLockViol (v : Svc) : Word := packW [(39, 20, v.lockAddr), (1, 1, b2n v.onceViol), (0, 0, b2n v.lockViol)]

def regSys (s : State) (a : Nat) : Word :=
  if a == 0x000 then sysStraps s.straps
  else if a == 0x001 then regStrapsNow s
  else if a == 0x010 then regKeeper s.eng
  else if a == 0x011 then regFrame s.eng
  else if a == 0x012 then regSat s.eng
  else if a == 0x020 then regStart s
  else if a == 0x030 then regSpares s
  else if 0x040 ≤ a ∧ a ≤ 0x05F then regSect s (a - 0x040)
  else if a == 0x060 then regLockViol s.svc
  else 0#40

/-! PWR (chapters 03, 04). -/

/-- PWR_STATUS (Table 3-8). -/
def regPwrStatus (p : Pwr) : Word :=
  packW [(9, 9, b2n p.vanaLow), (8, 8, b2n (decide (p.vcoreLowN ≥ 2))), (7, 7, b2n p.gate), (3, 3, b2n p.pfwMns),
    (2, 2, b2n p.pfwPin), (1, 1, b2n p.pfw), (0, 0, b2n p.flush.isSome)]

/-- PWR_QUEUE (Table 3-13). -/
def regQueue (s : State) : Word :=
  let ms := (queueEntries s).foldl (fun m t => max m (satTo 16777215 (msOf (s.now - t.since.getD s.now)))) 0
  packW [(30, 7, ms), (6, 0, queueTaken s)]

/-- PWR_FLAGS (Table 3-14). -/
def regPwrFlags (s : State) : Word :=
  packW [(7, 4, s.rst.cause), (3, 3, b2n s.pwr.gateWaited), (2, 2, b2n s.pwr.pfwSeen), (1, 1, b2n s.pwr.refused),
    (0, 0, b2n s.rst.por)]

def regPwr (s : State) (a : Nat) : Word :=
  let p := s.pwr
  match a with
  | 0x000 => regPwrStatus p
  | 0x001 => packW [(37, 25, p.vanaMv), (24, 12, p.vioMv), (11, 0, p.vcoreMv)]
  | 0x002 => packW [(11, 0, p.vbkupMv)]
  | 0x003 => packW [(31, 20, p.snsCode), (16, 0, vcapMv s p.snsCode)]
  | 0x004 => packW [(31, 0, p.energyUj)]
  | 0x008 => pw eWord
  | 0x009 => pw eChunk
  | 0x00A => pw eErase
  | 0x00B => pw eGate
  | 0x010 => packW [(6, 0, p.pfwPct)]
  | 0x011 => regQueue s
  | 0x012 => regPwrFlags s
  | 0x014 => packW [(39, 30, p.tj.getD 3 0), (29, 20, p.tj.getD 2 0), (19, 10, p.tj.getD 1 0), (9, 0, p.tj.getD 0 0)]
  | 0x015 => packW [(9, 0, p.tjPeak.foldl max 0)]
  | _ => 0#40

/-! FLT (chapter 09). -/

/-- FLT_STATUS (Table 9-7). -/
def regFltStatus (s : State) : Word :=
  let f := s.flt
  packW [(31, 25, countEff f .severe), (24, 18, countEff f .degraded), (17, 11, countEff f .advisory), (4, 3, topClass f),
    (2, 2, b2n (beaconRuns s)), (1, 1, b2n (faultNLow f)), (0, 0, b2n f.fatal)]

/-- FLT_SRCn (Table 9-10). -/
def regFltSrc (f : Flt) (n : Nat) : Word :=
  let x := getSrc f n
  let c := cfgOf f n
  packW [(39, 38, c.1.code), (37, 36, if x.uncleared then x.eff.code else 0), (35, 31, c.2), (30, 26, (srcRow n).allowed),
    (25, 25, b2n x.uncleared), (24, 24, b2n x.cause), (23, 23, b2n x.acked), (22, 22, b2n x.escalated), (15, 0, x.repeats)]

/-- FLT_HISTj (Table 9-11). -/
def regHist (f : Flt) (j k : Nat) : Word :=
  match tget none f.hist j with
  | none => 0#40
  | some e =>
    if k == 0 then packW [(11, 11, 1), (10, 10, b2n e.escalated), (9, 8, e.cls.code), (7, 0, e.src)]
    else if k == 1 then pw e.opSec
    else e.param

/-- FLT_HIST_PTR. -/
def regHistPtr (f : Flt) : Word := packW [(19, 4, f.raises), (3, 0, if f.raises == 0 && f.hist.isEmpty then 0 else f.raises + 15)]

/-- FLT_INJECT (Table 9-9). -/
def regInject (f : Flt) : Word :=
  packW [(10, 10, b2n f.injEnable), (9, 9, b2n f.injFalse), (8, 8, b2n f.injTrue), (7, 0, f.injSrc)]

def regFlt (s : State) (a : Nat) : Word :=
  let f := s.flt
  if a == 0x000 then regFltStatus s
  else if a == 0x001 then packW [(1, 0, f.faultNClass.code)]
  else if a == 0x003 then packW [(39, 39, b2n f.fatal), (38, 38, b2n f.fatalRecorded), (7, 0, f.fatalSrc)]
  else if a == 0x004 then f.fatalParam
  else if a == 0x008 then
    packW [(25, 24, if s.cal.ticks > f.expiryTick + 3600 then 0 else min 2 f.expiries), (23, 23, b2n f.wdogTrimmed), (22, 11, f.lateMs), (10, 0, f.earlyMs)]
  else if a == 0x010 then regInject f
  else if 0x100 ≤ a ∧ a ≤ 0x15F then regFltSrc f (a - 0x100)
  else if 0x200 ≤ a ∧ a ≤ 0x25F then (getSrc f (a - 0x200)).param
  else if a == 0x300 then regHistPtr f
  else if 0x310 ≤ a ∧ a ≤ 0x33F then regHist f ((a - 0x310) / 3) ((a - 0x310) % 3)
  else 0#40

/-! REC (chapter 10). -/

def regRec (r : Recr) (a : Nat) : Word :=
  match a with
  | 0 => packW [(31, 16, r.dropped), (12, 12, b2n r.aheadOk), (11, 11, b2n r.flushing),
      (10, 10, b2n (decide (r.etchedNext ≥ 2048))), (9, 9, b2n r.located), (8, 0, r.buf.length)]
  | 1 => if r.located then pw (nextLoc r) else 0#40
  | 2 => pw r.oldest
  | 3 => packW [(39, 8, r.seq), (7, 0, r.row)]
  | _ => 0#40

/-! NVM (chapter 08). -/

/-- The keeper has started, so that what step 6 writes stands. -/
def pastStep6 (s : State) : Bool := decide (s.start.step ≥ 6)

/-- NVM_STATUS (Table 8-8). -/
def regNvmStatus (s : State) : Word :=
  let n := s.nvm
  let slot := b2n s.start.running
  packW [(7, 7, b2n n.retired), (6, 6, b2n n.uncorrFlag), (5, 5, b2n n.late), (4, 4, b2n n.retire.isSome), (3, 3, slot),
    (2, 2, slot), (1, 1, b2n n.pdataReset)]

/-- NVM_BANKb (Table 8-9). -/
def regBank (x : Bank) : Word :=
  packW [(37, 32, 32 - x.spares.length), (31, 28, x.factory), (23, 8, x.corr), (7, 0, x.uncorr)]

/-- NVM_SCRUB (Table 8-10). -/
def regScrub (s : State) : Word :=
  let n := s.nvm
  if !pastStep6 s then 0#40
  else packW [(39, 28, satTo 4095 ((s.cal.opSec - n.scrubFrom) / 3600)), (27, 16, n.scrubPass % 4096), (15, 10, n.scrubPoint),
    (9, 0, n.bank0.scrubAt / 512)]

/-- NVM_WEARb (Table 8-11): the row with the highest counted cycles, the lowest such row on a tie. -/
def regWear (s : State) (b : Nat) : Word :=
  if !pastStep6 s then 0#40
  else
    let top := (rangeFrom 0 1024).foldl (fun (m : Nat × Nat) r =>
      let c := rowCycles s b r
      if c > m.2 then (r, c) else m) (0, 0)
    packW [(39, 30, top.1), (23, 0, satTo 16777215 top.2)]

/-- NVM_ERASE (Table 8-12): the sequence of the lowest bank that has one. -/
def regErase (n : Nvm) : Word :=
  match (rangeFrom 0 4).filterMap (fun b => (getBank n b).erase.map (fun e => (b, e))) with
  | [] => 0#40
  | (b, e) :: _ =>
    packW [(19, 19, 1), (18, 18, b2n e.paused), (17, 16, b), (15, 6, e.row), (4, 0, e.pulses)]

/-- Erase sequences of image slot k of NVM_SLOTS: control-row words 10 to 13. -/
def slotErases (n : Nvm) (k : Nat) : Nat :=
  match nvWord n (locOf 3 0 (10 + k)) with | some w => satTo 1023 w.toNat | none => 0

def regNvm (s : State) (a : Nat) : Word :=
  let n := s.nvm
  if a == 0x000 then regNvmStatus s
  else if 0x010 ≤ a ∧ a ≤ 0x013 then regBank (getBank n (a - 0x010))
  else if a == 0x020 then regScrub s
  else if a == 0x021 then packW [(19, 0, satTo 1048575 n.scrubLastMin)]
  else if 0x030 ≤ a ∧ a ≤ 0x033 then regWear s (a - 0x030)
  else if a == 0x040 then regErase n
  else if a == 0x050 then
    packW [(39, 30, slotErases n 3), (29, 20, slotErases n 2), (19, 10, slotErases n 1), (9, 0, slotErases n 0)]
  else 0#40

/-! PRF (chapter 12). -/

/-- PRF_TILEp (Table 12-13); 0 until the proof writes it. -/
def regTile (s : State) (p : Nat) : Word :=
  if !s.prf.done then 0#40
  else
    let x := getTile s p
    packW [(39, 37, x.st), (36, 30, x.logical), (29, 28, x.sramSpare), (27, 12, satTo 65535 x.corr),
      (11, 0, satTo 4095 (x.bg / 240))]

def regPrf (s : State) (a : Nat) : Word :=
  let p := s.prf
  if a == 0x000 then
    packW [(29, 20, p.durMs), (19, 12, p.newN), (11, 11, b2n p.mapB), (10, 10, b2n p.mapA), (7, 7, b2n p.done),
      (3, 0, p.nvmSet)]
  else if a == 0x001 then packW [(12, 0, p.indices)]
  else if a == 0x010 then
    packW [(39, 32, p.migCount), (31, 25, p.migLogical), (24, 18, p.migFrom), (17, 11, p.migTo), (10, 0, p.migMinor)]
  else if a == 0x020 then
    packW [(11, 6, retiredMask s), (5, 0, maskOf ((rangeFrom 0 6).map (fun k => p.passed.contains k)))]
  else if 0x100 ≤ a ∧ a ≤ 0x147 then regTile s (a - 0x100)
  else 0#40

/-! ADM (chapter 14). -/

/-- ADM_TILEt (Table 14-11). -/
def regAdmTile (s : State) (t : Nat) : Word :=
  if !s.plt.admitted || t ≥ logicalCount s then 0#40
  else
    let ps := s.adm.places
    let peak := (rangeFrom 0 1200).foldl (fun (m : Nat) f => max m (loadAt ps t f)) 0
    packW [(39, 32, (ps.filter (·.tile == t)).length), (31, 16, halfUp peak), (13, 0, memAt ps t)]

/-- ADM_LISTn. -/
def regAdmList (s : State) (n : Nat) : Word :=
  match s.adm.lists[n]? with
  | none => 0#40
  | some l => packW [(39, 30, l.length), (29, 0, if l.isEmpty then 0 else cycleUs s.plt.plate l)]

/-- ADM_BUSn. -/
def regAdmBus (s : State) (n : Nat) : Word :=
  match s.plt.plate.cans.find? (·.ctrl == n) with
  | none => 0#40
  | some c =>
    let f := busPm s.plt.plate c
    packW [(19, 10, f), (9, 0, f + 10 * (supOf s.plt.plate).telemPct)]

def regAdm (s : State) (a : Nat) : Word :=
  let x := s.adm
  if a == 0x000 then packW [(27, 16, x.durMs), (15, 8, x.code), (5, 4, x.plate), (1, 0, x.result)]
  else if a == 0x001 then packW [(39, 36, x.subjKind), (35, 35, x.subjPlate), (15, 0, x.subjIdx)]
  else if a == 0x002 then pw x.need
  else if a == 0x003 then pw x.limit
  else if a == 0x004 then packW [(31, 20, x.tasks), (19, 10, x.chains), (9, 0, x.entries)]
  else if a == 0x006 then packW [(39, 24, x.worstChain), (23, 0, x.worstMargin)]
  else if 0x010 ≤ a ∧ a ≤ 0x014 then regAdmList s (a - 0x010)
  else if 0x018 ≤ a ∧ a ≤ 0x01B then regAdmBus s (a - 0x018)
  else if 0x100 ≤ a ∧ a ≤ 0x13F then regAdmTile s (a - 0x100)
  else 0#40

end Sys2Proof.Machine
end

