-- ==== Sys2Proof/Machine/RegsPlant.lean ====
section
/-! DEFINITION. Registers of the windows SPN to CAL, CAN, SVC, VAL and PLT as a READ returns them (chapters 05, 06, 13, 15 to
19, 22 to 25; addresses of Tables 27-4 to 27-6), and `regRead` over the whole register space (R1001). -/

namespace Sys2Proof.Machine

open Sys2Proof

/-- A signed number as a register field of `w` bits. -/
def sgn (w : Nat) (z : Int) : Nat := unsignedOf w z

/-- A level in % (value format) in units of 0.01 %. -/
def centi (z : Int) : Nat := (divRoundEven (z * 100) 1048576).toNat

/-! SPN, ARB (chapter 05). -/

/-- SPN_STATUS (Table 5-6). -/
def regSpn (x : Spn) : Word :=
  packW [(25, 20, x.maxLinks), (19, 10, x.spareLeft), (9, 4, x.deadLinks), (3, 3, b2n x.detour), (2, 2, b2n x.stall),
    (1, 1, b2n x.uncorr), (0, 0, b2n x.lane)]

/-- SPN_LINK and SPN_EDGE (Table 5-8). -/
def regLink (x : Link) : Word :=
  packW [(31, 16, satTo 65535 x.corr), (15, 15, b2n x.dead), (11, 6, x.bad1), (5, 0, x.bad0)]

/-- ARB_CTLn of an instance that keeps its queues in the arbiter (Table 5-9). DRAINED of an instance that reset leaves frozen
reads 1, as its meaning has it, and not the 0 of its reset column (DESIGN CHOICE, assumption 48). -/
def regArbQueue (a : Arb) (fg bg : Nat) (ahead : Bool) : Word :=
  packW [(39, 32, a.owner.getD 0xFF), (31, 24, fg), (23, 16, bg), (7, 5, a.fgRun), (3, 3, b2n (ahead && a.next.isSome)),
    (2, 2, b2n a.owner.isSome), (1, 1, b2n (a.frozen && a.owner.isNone && !a.dead)), (0, 0, b2n a.frozen)]

/-- ARB_CTLn of a slice scan sequencer: a requester is the place of an entry in its list. The entries that no trigger blanks
request, the one served again among them (R577); the one chosen for the next turn counts as granted (R194). -/
def regArbSlice (s : State) (n : Nat) : Word :=
  let a := getArb s (12 + n)
  let x := getSlice s n
  let es := listEntries s x.list
  let q := getList s x.list
  let serves := s.fe.grid && (x.st == 0 || x.st == 4) && x.list != 7
  let own : Option Nat := if serves then q.cur.bind (fun v => (rangeFrom 0 es.length).find? (fun k => es[k]? == some v)) else none
  let asking := es.filter (fun v => !valueBlanked s v && q.next != some v)
  let wait := if serves then asking.length else 0
  packW [(39, 32, own.getD 0xFF), (31, 24, wait), (7, 5, a.fgRun), (3, 3, b2n (serves && q.next.isSome)),
    (2, 2, b2n own.isSome), (1, 1, b2n (a.frozen && own.isNone)), (0, 0, b2n a.frozen)]

/-- The motor whose grant the decision step in progress serves: a turn of 100 ms (Table 5-3). -/
def stepOwner (s : State) : Option Nat :=
  match s.stb.lastAt with
  | none => none
  | some t => if s.now < t + 100000 then some s.stb.lastCh else none

/-- ARB_CTL22, the start budget: FREEZE reads start freeze. The request chosen for the next step counts as granted (R194). -/
def regArbStart (s : State) : Word :=
  let own := stepOwner s
  let asking := s.stb.reqs.filter (fun r => s.stb.next != some r.1)
  packW [(39, 32, own.getD 0xFF), (31, 24, satTo 255 asking.length), (3, 3, b2n s.stb.next.isSome), (2, 2, b2n own.isSome),
    (1, 1, b2n (startFrozen s && own.isNone)), (0, 0, b2n (startFrozen s))]

def regArbCtl (s : State) (n : Nat) : Word :=
  let a := getArb s n
  if n < 12 then regArbQueue a a.fg.length a.bg.length false
  else if n < 18 then regArbSlice s (n - 12)
  else if n < 22 then
    regArbQueue a (mbWaiting s (n - 18) 0 24).length (mbWaiting s (n - 18) 24 8).length true
  else regArbStart s

/-- ARB_CNTn (Table 5-10). -/
def regArbCnt (s : State) (n : Nat) : Word :=
  if n == 22 then packW [(39, 16, s.stb.grants), (15, 0, s.stb.deadCount)]
  else let a := getArb s n; packW [(39, 16, a.grants), (15, 0, satTo 65535 a.deads)]

def regSpine (s : State) (a : Nat) : Word :=
  if a == 0x000 then regSpn s.spn
  else if 0x010 ≤ a ∧ a ≤ 0x01F then
    let m := a - 0x010
    packW [(39, 39, b2n s.pwr.monRc), (38, 26, s.pwr.monMax.getD m 0), (25, 13, s.pwr.monMin.getD m 0),
      (12, 0, s.pwr.monNow.getD m 0)]
  else if (0x100 ≤ a ∧ a ≤ 0x1FD) ∨ (0x200 ≤ a ∧ a ≤ 0x243) then regLink (getLink s (a - 0x100))
  else if 0x400 ≤ a ∧ a ≤ 0x416 then regArbCtl s (a - 0x400)
  else if 0x420 ≤ a ∧ a ≤ 0x436 then regArbCnt s (a - 0x420)
  else 0#40

/-! ISL (chapter 06). -/

/-- ISL_STATEi (Table 6-13). -/
def regIslState (x : IslSt) : Word :=
  packW [(39, 32, x.timeouts), (31, 16, satTo 65535 x.overflows), (11, 8, x.resets), (6, 6, b2n x.ovf), (5, 5, b2n x.tmo),
    (4, 4, b2n x.cfgPend), (2, 0, x.st)]

def regIsl (s : State) (a : Nat) : Word :=
  let x := s.isl
  if a == 0x000 then
    packW [(23, 16, x.xtStops), (3, 3, b2n x.switched), (2, 2, b2n x.rcOk), (1, 1, b2n x.xtOk), (0, 0, b2n x.onRc)]
  else if a == 0x001 then packW [(18, 18, b2n x.trimmed), (17, 0, x.tmoNs)]
  else if 0x010 ≤ a ∧ a ≤ 0x019 then regIslState (getIsl s (a - 0x010))
  else 0#40

/-! FE (chapters 15, 16). -/

/-- Entries blanked now. -/
def blankedNow (s : State) : Nat := (s.plt.plate.scans.filter (entryBlanked s)).length

/-- FE_STATUS (Table 15-11). -/
def regFeStatus (s : State) : Word :=
  let f := s.fe
  packW [(25, 18, maskOf ((rangeFrom 0 8).map (fun e => f.excBad.contains e))), (17, 17, b2n f.refBad), (16, 16, b2n f.grid),
    (15, 8, maskOf f.trig), (7, 0, satTo 255 (blankedNow s))]

/-- FE_ROTATE (Table 15-12). -/
def regRotate (s : State) : Word :=
  let f := s.fe
  if !f.grid then 0#40
  else
    let next := if f.rotOn then (f.rotAt + s.plt.plate.rotateS * 1000000 - s.now) / 1000000 else 0
    let spare := (rangeFrom 0 6).find? (fun k => (getSlice s k).st == 1 || (getSlice s k).st == 2)
    packW [(39, 24, f.handovers), (23, 12, satTo 4095 next), (11, 9, spare.getD 7), (8, 6, f.lastOut), (5, 3, f.lastIn),
      (2, 2, b2n f.drift), (1, 1, b2n f.overlap.isSome), (0, 0, b2n f.suspended)]

/-- FE_SLICEs (Table 15-13). -/
def regSlice (s : State) (n : Nat) : Word :=
  let x := getSlice s n
  let age := match x.calAt with | none => 0 | some t => satTo 65535 ((s.now - t) / 1000000)
  packW [(39, 24, age), (23, 8, x.cals), (7, 5, x.list), (2, 0, x.st)]

/-- FE_EXCe. -/
def regExc (s : State) (e : Nat) : Word :=
  match s.plt.plate.excs.find? (·.src == e) with
  | none => 0#40
  | some c =>
    packW [(17, 17, b2n (excNegative s c)), (16, 16, b2n (s.fe.excBad.contains e)), (15, 0, tget 0 s.fe.excMeas e)]

/-- FE_VALFLT (Table 16-7). -/
def regValFlt (s : State) : Word :=
  packW [(39, 28, counting s 1), (27, 16, counting s 2), (15, 4, counting s 4)]

/-- A word of switch bits: switch 40k + j at bit j. -/
def regSwBits (s : State) (k : Nat) (f : SwSt → Bool) : Word :=
  pw (maskOf ((rangeFrom (40 * k) 40).map (fun n => decide (n < 256) && f (getSw s n))))

/-- FE_PAIRk. -/
def regPairs (s : State) (k : Nat) : Word :=
  pw (maskOf ((rangeFrom (32 * k) 32).map (fun n => (tget {} s.sw.pairs n).dis)))

def regFe (s : State) (a : Nat) : Word :=
  if a == 0x000 then regFeStatus s
  else if a == 0x001 then regRotate s
  else if 0x010 ≤ a ∧ a ≤ 0x015 then regSlice s (a - 0x010)
  else if 0x020 ≤ a ∧ a ≤ 0x027 then regExc s (a - 0x020)
  else if a == 0x030 then regValFlt s
  else if a == 0x031 then packW [(39, 37, s.sw.lastKind), (36, 25, s.sw.lastVal), (23, 0, sgn 24 s.sw.lastCode)]
  else if 0x040 ≤ a ∧ a ≤ 0x043 then regPairs s (a - 0x040)
  else if 0x100 ≤ a ∧ a ≤ 0x12F then
    let x := getSlice s ((a - 0x100) / 8)
    packW [(39, 20, sgn 20 (x.off.getD (a % 8) 0)), (19, 0, sgn 20 (x.gain.getD (a % 8) 0))]
  else if 0x200 ≤ a ∧ a ≤ 0x206 then regSwBits s (a - 0x200) (·.on)
  else if 0x208 ≤ a ∧ a ≤ 0x20E then regSwBits s (a - 0x208) (·.fs)
  else if a == 0x210 then pw (maskOf ((rangeFrom 0 32).map (tswSinks s)))
  else 0#40

/-! MNS, STB (chapter 17). -/

/-- MNS_STATUS (Table 17-4). -/
def regMns (s : State) : Word :=
  let m := s.mns
  let ph := match islandsCfg s with | some c => c.phases | none => 0
  packW [(39, 16, m.windows), (7, 7, b2n m.seqOk), (6, 6, b2n m.intr.isSome), (5, 5, b2n m.swell.isSome),
    (4, 4, b2n m.sag.isSome), (3, 1, ph), (0, 0, b2n (mnsOn s))]

/-- MNS_EVTj (Table 17-5). -/
def regMnsEvt (m : Mns) (j k : Nat) : Word :=
  match tget none m.evts j with
  | none => 0#40
  | some e =>
    if k == 0 then packW [(39, 38, e.kind), (37, 37, b2n e.isOpen), (36, 34, e.phases), (15, 0, e.extreme)]
    else if k == 1 then pw e.opSec
    else packW [(31, 0, e.durMs)]

/-- STB_STATUS (Table 17-6). -/
def regStb (s : State) : Word :=
  let b := s.stb
  let since := match b.lastAt with | none => 0 | some t => satTo 4095 ((s.now - t) / 100000)
  packW [(39, 32, b.lastCh), (31, 20, since), (19, 12, b.next.getD 0), (11, 11, b2n b.next.isSome), (10, 10, b2n s.pwr.pfw),
    (9, 9, b2n (s.plt.admitted && !voltTested s)), (8, 6, b.active.length), (5, 0, satTo 63 b.reqs.length)]

/-- STB_FREEZE (Table 17-7). -/
def regFreeze (s : State) : Word :=
  packW [(3, 3, b2n s.stb.arming), (2, 2, b2n (!s.eng.sfrz.isEmpty)), (1, 1, b2n s.stb.host), (0, 0, b2n s.stb.session)]

def regMains (s : State) (a : Nat) : Word :=
  if a == 0x000 then regMns s
  else if 0x001 ≤ a ∧ a ≤ 0x004 then qWord (s.mns.rms.getD (a - 1) 0)
  else if a == 0x005 then qWord s.mns.low
  else if a == 0x006 then qWord s.mns.freq
  else if a == 0x007 then qWord s.mns.unbal
  else if a == 0x010 then packW [(19, 4, s.mns.events), (3, 0, if s.mns.evts.isEmpty then 0 else s.mns.events + 15)]
  else if 0x020 ≤ a ∧ a ≤ 0x04F then regMnsEvt s.mns ((a - 0x020) / 3) ((a - 0x020) % 3)
  else if a == 0x100 then regStb s
  else if a == 0x101 then regFreeze s
  else if 0x200 ≤ a ∧ a ≤ 0x2FF then (if s.plt.admitted then qWord (dipOf s (a - 0x200)) else 0#40)
  else if 0x300 ≤ a ∧ a ≤ 0x3FF then
    let m := a - 0x300
    packW [(39, 39, b2n (tget none s.stb.learned m).isSome), (23, 16, tget 0 s.stb.starts m),
      (15, 0, tget 0 s.stb.lastDrop m)]
  else 0#40

/-! FAN (chapter 18). -/

/-- FAN_STATUS (Table 18-5). -/
def regFanStatus (s : State) : Word :=
  let f := s.fan
  packW [(23, 20, maskOf ((rangeFrom 0 4).map (fun d => (tget none f.lossSince d).isSome))),
    (19, 16, maskOf ((rangeFrom 0 4).map (fun d => f.running.contains d))),
    (15, 8, satTo 255 (f.chs.filter (fun e => e.2.stalled)).length),
    (2, 2, b2n (f.trip && f.loaded && !f.group.isEmpty)), (1, 1, b2n f.trip), (0, 0, b2n f.fog)]

/-- FAN_FOG (Table 18-6). -/
def regFog (s : State) : Word :=
  let since := match s.fan.lastHb with | none => 0 | some t => satTo 1048575 ((s.now - t) / 1000000)
  packW [(31, 12, since), (11, 10, s.fan.hb)]

/-- FAN_TRIP (Table 18-7). -/
def regTrip (s : State) : Word :=
  packW [(39, 39, b2n s.fan.trip), (38, 36, s.fan.tripCause), (35, 32, s.fan.dryer), (31, 31, b2n s.fan.full),
    (7, 0, 60 + 5 * s.straps.tripN)]

/-- FAN_CHn (Table 18-8). -/
def regFanCh (s : State) (n : Nat) : Word :=
  let r := fanRes s n
  let x := getFan s n
  match fanCfg s n with
  | none => if n < 32 then packW [(39, 37, r.1), (31, 28, 15), (13, 0, if r.1 == 2 then 0 else centi r.2)] else 0#40
  | some c =>
    packW [(39, 37, r.1), (36, 35, c.mode), (34, 34, b2n x.stalled), (33, 33, b2n c.pol), (32, 32, b2n (x.heldI || (c.mode == 2 && isArmed s && r.1 != 6))),
      (31, 28, c.group), (13, 0, if r.1 == 2 then 0 else centi r.2)]

def regFan (s : State) (a : Nat) : Word :=
  if a == 0x000 then regFanStatus s
  else if a == 0x001 then regFog s
  else if a == 0x002 then regTrip s
  else if a == 0x003 then pw (if s.fan.trip then s.fan.tripT.getD 0 else 0)
  else if 0x100 ≤ a ∧ a ≤ 0x1FF then regFanCh s (a - 0x100)
  else if 0x200 ≤ a ∧ a ≤ 0x21F then
    let x := getFan s (a - 0x200)
    packW [(39, 20, satTo 1048575 x.rpm), (15, 0, satTo 65535 x.edges)]
  else if 0x300 ≤ a ∧ a ≤ 0x3FF then packW [(9, 0, (getFan s (a - 0x300)).fix)]
  else if 0x400 ≤ a ∧ a ≤ 0x4FF then qWord (qRound (fVal (getFan s (a - 0x400)).i)).val
  else 0#40

/-! MOT, GAT, HTD (chapter 19). -/

/-- Motors in a state, saturating. -/
def motsIn (s : State) (st : Nat) : Nat := satTo 255 (s.mot.chs.filter (fun e => e.2.st == st)).length

/-- STOP_DS of Table 19-6. -/
def stopDs (s : State) (m : MotSt) : Nat :=
  if m.st != 3 then 0
  else match m.stopAt with
    | none => 4095
    | some t => satTo 4095 ((t - s.now + 99999) / 100000)

/-- MOT_CHn (Table 19-6). -/
def regMotCh (s : State) (n : Nat) : Word :=
  match motorCfg s n with
  | none => 0xFFFF#40
  | some c =>
    let m := getMot s n
    packW [(39, 37, motOwner s c), (36, 34, m.st), (33, 31, m.cause), (30, 30, b2n (permit s c)), (29, 29, b2n m.fb),
      (28, 28, b2n (s.stb.reqs.any (·.1 == n))), (27, 16, stopDs s m), (15, 8, c.down), (7, 0, c.sect)]

/-- MOT_MOVn (Table 19-7). -/
def regMov (m : MotSt) : Word :=
  packW [(39, 20, satTo 1048575 (divRoundEven (m.rate.1 * 100) m.rate.2).toNat), (15, 0, satTo 65535 m.edges)]

/-- GAT_CHn (Table 19-8). -/
def regGate (s : State) (n : Nat) : Word :=
  match gateCfg s n with
  | none => 0#40
  | some c =>
    let g := getGat s n
    packW [(39, 37, gateOwner s n), (36, 35, g.drive), (34, 33, g.fail), (32, 32, b2n (isBad (seenVal s c.pos))),
      (13, 0, match g.target with | none => 0 | some t => centi t)]

/-- HTD_CHn (Table 19-10). -/
def regHeat (s : State) (n : Nat) : Word :=
  match heatCfg s n with
  | none => 0#40
  | some c =>
    packW [(39, 32, heatWhy s c), (31, 31, b2n (getHtd s n).pmt), (30, 30, b2n (heatEn s c)), (29, 28, c.dryer),
      (27, 27, b2n (ovrOf s 3 n).isSome), (15, 0, heatWant s c)]

/-- One bit for each heat channel that meets a condition. -/
def heatMask (s : State) (f : HeatCfg → Bool) : Nat :=
  maskOf ((rangeFrom 0 16).map (fun n => match heatCfg s n with | none => false | some c => f c))

def regMotion (s : State) (a : Nat) : Word :=
  if a == 0x000 then
    packW [(31, 24, motsIn s 2), (23, 16, motsIn s 3), (15, 8, motsIn s 4),
      (7, 0, satTo 255 (s.mot.chs.filter (fun e => e.2.welded)).length)]
  else if 0x100 ≤ a ∧ a ≤ 0x1FF then regMotCh s (a - 0x100)
  else if 0x200 ≤ a ∧ a ≤ 0x217 then regMov (getMot s (a - 0x200))
  else if a == 0x400 then
    packW [(15, 8, satTo 255 (s.gat.chs.filter (fun e => e.2.drive != 0)).length),
      (7, 0, satTo 255 (s.gat.chs.filter (fun e => e.2.fail != 0)).length)]
  else if 0x500 ≤ a ∧ a ≤ 0x57F then regGate s (a - 0x500)
  else if a == 0x800 then packW [(31, 16, heatMask s (fun c => heatWhy s c != 0)), (15, 0, heatMask s (heatEn s))]
  else if 0x810 ≤ a ∧ a ≤ 0x81F then regHeat s (a - 0x810)
  else 0#40

/-! CAL (chapter 22). -/

def regCal (c : Cal) (a : Nat) : Word :=
  match a with
  | 0 => c.set0
  | 1 => c.set1
  | 2 => calNow0 c
  | 3 => c.now1
  | 4 => calStatus c
  | _ => 0#40

/-! CAN and Syntagel (chapters 23, 24). -/

/-- CANn_STATUS (Table 23-4). -/
def regCanStatus (x : CanSt) : Word :=
  packW [(39, 31, satTo 256 x.tec), (30, 23, satTo 255 x.recN), (22, 22, b2n (decide (x.tec ≥ 96) || decide (x.recN ≥ 96))),
    (21, 19, x.lastErr), (18, 18, b2n x.errData), (3, 0, x.st)]

/-- CANn_TIMING (Table 23-5). -/
def regTiming (x : CanSt) : Word :=
  match x.cfg with
  | none => 0#40
  | some c => match canTiming c with
    | none => 0#40
    | some t =>
      packW [(39, 35, t.brp - 1), (34, 34, b2n c.triple), (33, 33, b2n c.fd),
        (32, 32, b2n (c.fd && decide (c.dataBps > 1000000))), (31, 24, t.n1), (23, 16, t.n2), (15, 11, min t.n2 16),
        (10, 5, t.d1), (4, 0, t.d2)]

/-- CANn_RECOV (Table 23-6). -/
def regRecov (s : State) (x : CanSt) : Word :=
  let cfg := match x.cfg with | none => (0, 0) | some c => (c.recovN, c.recovS)
  let next := match x.pendAt with | none => 0 | some t => satTo 65535 ((t - s.now + 999999) / 1000000)
  packW [(39, 32, satTo 255 (x.attempts.filter (fun t => decide (s.cal.opSec < t + 3600))).length), (31, 24, cfg.1),
    (23, 18, cfg.2), (17, 17, b2n x.out), (16, 16, b2n x.pendAt.isSome), (15, 0, next)]

/-- CANn_MBm (Table 23-8). -/
def regMb (s : State) (n m : Nat) : Word :=
  let a := getArb s (18 + n)
  match tget none (getCan s n).mbs m with
  | none => 0#40
  | some b =>
    packW [(39, 39, 1), (38, 38, b2n (a.next == some m)), (37, 37, b2n (a.owner == some m)), (36, 36, b2n b.frame.ide),
      (35, 29, b.frame.data.length), (28, 0, b.frame.id)]

/-- CANn_FLTf. -/
def regFilt (x : CanSt) (f k : Nat) : Word :=
  match tget none x.filts f with
  | none => 0#40
  | some c => if k == 0 then packW [(39, 39, 1), (29, 29, b2n c.ide), (28, 0, c.id)] else packW [(28, 0, c.mask)]

/-- Nodes of a bus in a state. -/
def busNodes (s : State) (n st : Nat) : Nat := (s.syn.nodes.filter (fun e => e.1 / 128 == n && e.2.st == st)).length

/-- CANn_SYN (Table 24-11). -/
def regSyn (s : State) (n : Nat) : Word :=
  let x := getCan s n
  let host := n == hostBus s && (s.start.state == .moored || s.plt.admitted)
  packW [(39, 30, x.loadPm), (29, 20, x.telPm), (19, 14, satTo 63 (busNodes s n 3)), (13, 8, satTo 63 (busNodes s n 4)),
    (4, 4, b2n x.short), (3, 3, b2n x.discard), (2, 2, b2n (host && s.syn.xfer.isSome)), (1, 1, b2n (host && hostSeen s)),
    (0, 0, b2n host)]

/-- CANn_NODEa (Table 24-12). -/
def regNode (s : State) (n k : Nat) : Word :=
  let x := getNode s (nodeKey n k)
  let age := match x.hb with | none => 0 | some t => satTo 65535 ((s.now - t) / 10000)
  packW [(39, 37, x.st), (36, 29, x.type), (28, 25, x.why), (15, 0, age)]

def regCan (s : State) (n a : Nat) : Word :=
  let x := getCan s n
  if a == 0x000 then regCanStatus x
  else if a == 0x001 then regTiming x
  else if a == 0x002 then packW [(6, 0, x.tdc)]
  else if a == 0x004 then regRecov s x
  else if a == 0x005 then pw x.txCnt
  else if a == 0x006 then pw x.rxCnt
  else if a == 0x007 then
    packW [(39, 24, satTo 65535 x.noMatch), (23, 16, satTo 255 x.remote), (15, 8, satTo 255 x.pex), (7, 0, satTo 255 x.busOffs)]
  else if a == 0x008 then regSyn s n
  else if 0x100 ≤ a ∧ a ≤ 0x11F then regMb s n (a - 0x100)
  else if 0x200 ≤ a ∧ a ≤ 0x27F then regFilt x ((a - 0x200) / 2) (a % 2)
  else if 0x401 ≤ a ∧ a ≤ 0x47E then regNode s n (a - 0x400)
  else 0#40

/-! SVC, VAL, PLT (chapters 25, 07, 13). -/

/-- SVC_STATUS (Table 25-9). -/
def regSvc (s : State) : Word :=
  let v := s.svc
  packW [(39, 18, v.baud), (17, 6, satTo 4095 (lockLeft s)), (5, 3, authWord s 0 % 256), (2, 2, b2n v.sess.isSome),
    (1, 0, match v.sess with | none => 0 | some x => x.gen)]

/-- SVC_IMG. -/
def regImg (v : Svc) : Word :=
  packW [(39, 37, v.img.st), (36, 36, v.img.slot), (35, 35, b2n v.img.engine), (19, 0, v.img.next)]

def regSvcWin (s : State) (a : Nat) : Word :=
  if a == 0x000 then regSvc s
  else if a == 0x001 then packW [(39, 24, s.svc.answered), (23, 8, s.svc.crcFails), (7, 0, s.svc.frameReplies)]
  else if a == 0x002 then regImg s.svc
  else if 0x010 ≤ a ∧ a ≤ 0x013 then nvRaw s.nvm (siteLoc (a - 0x010))
  else 0#40

def regVal (s : State) (a : Nat) : Word := if a % 2 == 0 then (getVal s (a / 2)).v else statusWord s (a / 2)

/-- PLT_WRITE (Table 13-8). -/
def regPltWrite (w : PltWrite) : Word :=
  packW [(39, 37, w.state), (36, 36, w.slot), (35, 32, w.fail), (31, 24, w.code), (22, 0, w.bytes)]

def regPlt (s : State) (a : Nat) : Word :=
  if a ≤ 0x3F then (if s.plt.admitted then s.plt.plate.hdr.getD a 0#40 else 0#40)
  else if a == 0x40 then s.plt.resultA
  else if a == 0x41 then s.plt.resultB
  else if a == 0x42 then
    let f := s.plt.facts
    packW [(39, 39, b2n f.ok), (38, 38, b2n f.erase4k), (37, 37, b2n f.addr4), (23, 16, f.op4k), (15, 0, satTo 65535 f.density)]
  else if a == 0x43 then regPltWrite s.plt.write
  else 0#40

/-! The register space (R996, R1001). -/

/-- The word at an address. -/
def regRead (s : State) (a : Nat) : Word :=
  let o := a % 0x1000
  if a ≥ 0x30000 then (if a ≤ 0x30043 then regPlt s (a - 0x30000) else 0#40)
  else if a ≥ 0x20000 then (if a ≤ 0x21FFF then regVal s (a - 0x20000) else 0#40)
  else match a / 0x1000 with
    | 0x00 => regId s o
    | 0x01 => regSys s o
    | 0x02 => regPwr s o
    | 0x03 => regFlt s o
    | 0x04 => regRec s.recr o
    | 0x05 => regNvm s o
    | 0x06 => regPrf s o
    | 0x07 => regAdm s o
    | 0x08 => regSpine s o
    | 0x09 => regIsl s o
    | 0x0A => regFe s o
    | 0x0B => regMains s o
    | 0x0C => regFan s o
    | 0x0D => regMotion s o
    | 0x0E => regCal s.cal o
    | 0x10 => regCan s 0 o
    | 0x11 => regCan s 1 o
    | 0x12 => regCan s 2 o
    | 0x13 => regCan s 3 o
    | 0x14 => regSvcWin s o
    | _ => 0#40

end Sys2Proof.Machine
end

