-- ==== Sys2Proof/Machine/RegWrite.lean ====
section
/-! DEFINITION. WRITE and READ (R967 to R975, R985, R997, R1002 to R1008): the roles of Table 25-7, the checks of Table 25-5
for each word, groups, and the effect of a write on each writable register. -/

namespace Sys2Proof.Machine

open Sys2Proof

/-! Writable registers (Table 25-7). -/

/-- TESTMODE was latched high (R64). -/
def testMode (s : State) : Bool := s.straps.latched.getD 10 false

/-- Addresses with W1C flags. -/
def w1cAddr (a : Nat) : Bool :=
  [0x01000, 0x01012, 0x01060, 0x02012, 0x05000, 0x08000, 0x09000].contains a || decide (0x09010 ≤ a ∧ a ≤ 0x09019)

/-- The controller of a CANn_CMD address. -/
def canCmdOf (a : Nat) : Option Nat := findIdx0 (fun n => a == 0x10003 + 0x1000 * n) [0, 1, 2, 3] 0

def isKeyAddr (a : Nat) : Bool := decide (0x14100 ≤ a ∧ a ≤ 0x1417F) && (a - 0x14100) % 8 != 7
def isSiteAddr (a : Nat) : Bool := decide (0x14010 ≤ a ∧ a ≤ 0x14013)
def isValAddr (a : Nat) : Bool := decide (0x20000 ≤ a ∧ a ≤ 0x21FFF)
def isFixAddr (a : Nat) : Bool := decide (0x0C300 ≤ a ∧ a ≤ 0x0C3FF)
def isArbAddr (a : Nat) : Bool := decide (0x08400 ≤ a ∧ a ≤ 0x08416)

/-- The roles that may write a key cell's words: check 2 as far as R963 fixes it before the generation is known. -/
def keyRoles (s : State) (r : Nat) : List Nat :=
  (if r < 3 then [r] else [1]) ++ (if testMode s then [2] else [])

/-- The roles that Table 25-7 gives an address; none where it names no register there. An empty list refuses every
session with ROLE. -/
def writeRoles (s : State) (a : Nat) : Option (List Nat) :=
  if a == 0x03002 || a == 0x04004 then some anyRole
  else if a == 0x0C001 || a == 0x0B101 || a == 0x0D001 || isFixAddr a || (canCmdOf a).isSome then some plantRoles
  else if a == 0x0E000 || a == 0x0E001 || isValAddr a then some plantRoles
  else if w1cAddr a then some engFactory
  else if isSiteAddr a then some engOnly
  else if isKeyAddr a then some (keyRoles s ((a - 0x14100) / 32))
  else if a == 0x03010 || (isArbAddr a && a != 0x08416) then some (if testMode s then [2] else [])
  else if a == 0x08416 then some []
  else none

/-- A register inside a LOCKS range of the admitted plate (R971). -/
def plateLocked (s : State) (a : Nat) : Bool := isFixAddr a && s.plt.locks.any (fun r => decide (r.1 ≤ a ∧ a < r.1 + r.2))

/-! Groups (Table 25-6). -/

/-- A group: its first address and its words. -/
def groupOf (a : Nat) : Option (Nat × Nat) :=
  if a == 0x0E000 || a == 0x0E001 then some (0x0E000, 2)
  else if isSiteAddr a then some (0x14010, 4)
  else if isKeyAddr a then some (a - (a - 0x14100) % 8, 7)
  else none

/-- An access at an address outside the staging group discards the staging (R974). -/
def breaksStage (s : State) (a : Nat) : Bool :=
  match s.svc.stage with
  | none => false
  | some g => (groupOf a).map (·.1) != some g.first

/-! Effects on single registers. -/

/-- What a word write answers: a status, and words staged by it count by the status of the commit. -/
structure WordRes where
  st : Nat
  /-- The word only staged its group. -/
  staged : Bool := false
  /-- The words and events of a store that the reply waits for. -/
  words : List (Nat × Word) := []
  events : List (Nat × Nat × Word × Word) := []
  deriving DecidableEq, Repr

/-- Clear the W1C flags of an address that the word names. -/
def w1cClear (s : State) (a : Nat) (w : Word) : State :=
  let keep := fun (b : Nat) (old : Bool) => old && !bitOf w b
  if a == 0x01000 then { s with straps := { s.straps with changed := keep 23 s.straps.changed } }
  else if a == 0x01012 then { s with eng := { s.eng with sat := keep 0 s.eng.sat } }
  else if a == 0x01060 then
    { s with svc := { s.svc with onceViol := keep 1 s.svc.onceViol, lockViol := keep 0 s.svc.lockViol } }
  else if a == 0x02012 then
    let p := s.pwr
    { s with pwr := { p with
      gateWaited := keep 3 p.gateWaited
      pfwSeen := keep 2 p.pfwSeen
      refused := keep 1 p.refused } }
  else if a == 0x05000 then
    { s with nvm := { s.nvm with retired := keep 7 s.nvm.retired, uncorrFlag := keep 6 s.nvm.uncorrFlag } }
  else if a == 0x08000 then
    { s with spn := { s.spn with stall := keep 2 s.spn.stall, uncorr := keep 1 s.spn.uncorr, lane := keep 0 s.spn.lane } }
  else if a == 0x09000 then { s with isl := { s.isl with switched := keep 3 s.isl.switched } }
  else if 0x09010 ≤ a ∧ a ≤ 0x09019 then
    let x := getIsl s (a - 0x09010)
    setIsl s (a - 0x09010) { x with ovf := keep 6 x.ovf, tmo := keep 5 x.tmo }
  else s

/-- RECOVER of CANn_CMD (R885). -/
def canRecover (s : State) (n : Nat) : Nat × State :=
  if (getCan s n).st != 4 || s.isl.onRc then (stBusy, s) else (stOk, canRequest s n)

/-- Force a value (R977, R282). -/
def forceVal (s : State) (n : Nat) (w : Word) : Nat × State :=
  if !isArmed s then (stBusy, s)
  else if (valCfg s n).isNone then (stRange, s)
  else if !s.svc.forces.contains n && s.svc.forces.length ≥ 64 then (stRange, s)
  else
    let v : Val := ⟨w, .forced, 0x20, some s.now, true⟩
    let s := { s with
      eng := { s.eng with vals := tset {} s.eng.vals n v }
      sw := { s.sw with seen := s.sw.seen.filter (· != n) }
      svc := { s.svc with forces := if s.svc.forces.contains n then s.svc.forces else s.svc.forces ++ [n] } }
    (stOk, svcEvent s 0x2006 (pw n) w)

/-- A write of a value's status word (R977). -/
def forceEnd (s : State) (n : Nat) : Nat × State :=
  if !isArmed s then (stBusy, s)
  else if (valCfg s n).isNone then (stRange, s)
  else (stOk, if s.svc.forces.contains n then unforce s n else s)

/-- FREEZE of ARB_CTLn (R198, R216). -/
def arbCtl (s : State) (n : Nat) (b : Bool) : State := if b then setFreeze s n else clearFreeze s n

/-- SESSION of STB_FREEZE (R662). -/
def stbFreeze (s : State) (b : Bool) : State := sessionFreeze s 0#40 b

/-- FLT_INJECT (R368, R370). -/
def injectCmd (s : State) (w : Word) : Nat × State :=
  let n := fld w 7 0
  if !isSrc n || (bitOf w 10 && noRails n) then (stRange, s) else (stOk, injWrite s w)

/-- FAN_FIXn (R681). -/
def fanFix (s : State) (n : Nat) (w : Word) : Nat × State :=
  if fld w 9 0 > 1000 then (stRange, s) else (stOk, setFan s n { getFan s n with fix := fld w 9 0 })

/-- CANn_CMD: refused while its island does not run (R234, R1007), recovery by bit 0; any other register has no effect. -/
def canCmd (s : State) (x : Option Nat) (w : Word) : Nat × State :=
  match x with
  | some n => if !islRuns s (1 + n) then (stBusy, s) else if bitOf w 0 then canRecover s n else (stOk, s)
  | none => (stOk, s)

/-- Checks 6 onward for a register that is no group: its status and effect. -/
def regEffect (s : State) (a : Nat) (w : Word) : Nat × State :=
  if a == 0x03002 then ackCmd s (fld w 7 0)
  else if a == 0x04004 then (stOk, if bitOf w 0 then requestFlush s else s)
  else if a == 0x03010 then injectCmd s w
  else if a == 0x0C001 then (if bitOf w 0 then fogAckCmd s 0#40 else (stOk, s))
  else if a == 0x0B101 then (stOk, stbFreeze s (bitOf w 0))
  else if a == 0x0D001 then motClearCmd s (fld w 7 0)
  else if isFixAddr a then fanFix s (a - 0x0C300) w
  else if isArbAddr a then (stOk, arbCtl s (a - 0x08400) (bitOf w 0))
  else if isValAddr a then
    (if a % 2 == 0 then forceVal s ((a - 0x20000) / 2) w else forceEnd s ((a - 0x20000) / 2))
  else if w1cAddr a then (stOk, w1cClear s a w)
  else canCmd s (canCmdOf a) w

/-! Commits. -/

/-- ONCE_WRITE through the port (R972): the first word that differs. -/
def onceRefused (s : State) (first : Nat) (locs : List Nat) (ws : List Word) : State :=
  let i := (findIdx0 (fun (x : Nat × Word) => cellAt' s.nvm x.1 != .erased && nvRaw s.nvm x.1 != x.2) (locs.zip ws) 0).getD 0
  let s := { s with svc := { s.svc with onceViol := true, lockAddr := first + i } }
  svcEvent s 0x3007 (pw (first + i)) (ws.getD i 0#40)

/-- A write-once unit (R313, R972, R985): compared, then stored as a whole where E and the gate allow it. -/
def onceCommit (s : State) (o : Owner) (first : Nat) (locs : List Nat) (ws : List Word) (ev : Nat × Nat × Word × Word) :
    WordRes × State :=
  let all := locs.zip ws
  match onceOutcome s.nvm all with
  | 1 => (⟨stOkSame, false, [], []⟩, s)
  | 2 => (⟨stWrittenOnce, false, [], []⟩, onceRefused s first locs ws)
  | _ =>
    let t : Store := { kind := .unit, owner := o, words := all }
    if s.svc.wait.isSome then (⟨stBusy, false, [], []⟩, s)
    else if !s.pwr.gate then (⟨stEnergy, false, [], []⟩, energyRefused s t)
    else
      let (ok, s) := svcStart s t
      if ok then (⟨stOk, false, all, [ev]⟩, s) else (⟨stEnergy, false, [], []⟩, s)

/-- Cell (r, g) accepts its commit (R963). -/
def keyAllowed (s : State) (r g : Nat) : Bool :=
  let order := g == 0 || keyWritten s.nvm r (g - 1)
  let next := match keyGen s.nvm 3 with | none => g == 0 | some k => g == k + 1
  order && (match s.svc.sess with
    | none => testMode s
    | some x =>
      (testMode s && x.role == 2) || (x.role == 1 && r == 3 && keyGen s.nvm 1 == some x.gen && next) ||
        (x.role == r && decide (g ≥ 1) && x.gen == g - 1))

/-- The key cell's commit; bits 39:16 of word 6 are reserved (R962, R14). -/
def keyCommit (s : State) (first : Nat) (ws : List Word) : WordRes × State :=
  let c := (first - 0x14100) / 8
  let r := c / 4
  let g := c % 4
  let ws := ws.take 6 ++ [ws.getD 6 0#40 &&& 0xFFFF#40]
  if !keyAllowed s r g then (⟨if s.svc.sess.isSome then stRole else stNoSession, false, [], []⟩, s)
  else onceCommit s .keyCell first ((rangeFrom 0 7).map (keyLoc r g)) ws (0x3005, 0x16, pw r, pw g)

/-- The commit of a group at its last word: the whole staging is checked, and stored or refused as a whole (R973). -/
def groupCommit (s : State) (first : Nat) (ws : List Word) : WordRes × State :=
  if first == 0x0E000 then
    let (st, t) := calCommit s (ws.getD 0 0#40) (ws.getD 1 0#40)
    (⟨st, false, [], []⟩, t)
  else if first == 0x14010 then
    onceCommit s .siteId first ((rangeFrom 0 4).map siteLoc) ws (0x3009, 0x16, ws.getD 0 0#40, 0#40)
  else keyCommit s first ws

/-- Check 5 and what follows it for a word of a group (R973). -/
def groupWrite (s : State) (a first n : Nat) (w : Word) : WordRes × State :=
  if a == first then (⟨stOk, true, [], []⟩, { s with svc := { s.svc with stage := some ⟨first, [w]⟩ } })
  else
    match s.svc.stage with
    | none => (⟨stGroupAlign, false, [], []⟩, s)
    | some g =>
      if g.first != first || g.words.length != a - first then (⟨stGroupAlign, false, [], []⟩, dropStage s)
      else if a - first + 1 < n then
        (⟨stOk, true, [], []⟩, { s with svc := { s.svc with stage := some ⟨first, g.words ++ [w]⟩ } })
      else groupCommit (dropStage s) first (g.words ++ [w])

/-! One word (Table 25-5). -/

/-- LOCK_WRITE (R971). -/
def lockRefused (s : State) (a : Nat) (w : Word) : State :=
  svcEvent { s with svc := { s.svc with lockViol := true, lockAddr := a } } 0x3006 (pw a) w

/-- Checks 1 and 2: 0 when both pass. A key-cell word needs no session while TESTMODE is latched high. -/
def wordRole (s : State) (a : Nat) (roles : List Nat) : Nat :=
  if isKeyAddr a && testMode s && s.svc.sess.isNone then stOk else roleCheck s roles

/-- A word write (R970): the checks of Table 25-5 in order; an address that Table 25-7 does not name meets check 1 only. -/
def wordWrite (s : State) (a mask : Nat) (w : Word) : WordRes × State :=
  match writeRoles s a with
  | none => (⟨if s.svc.sess.isSome then stOk else stNoSession, false, [], []⟩, s)
  | some roles =>
    let st := wordRole s a roles
    if st != stOk then (⟨st, false, [], []⟩, s)
    else if plateLocked s a then (⟨stLocked, false, [], []⟩, lockRefused s a w)
    else if mask % 32 == 0 then (⟨stOk, false, [], []⟩, s)
    else if mask % 32 != 31 then (⟨stWidth, false, [], []⟩, s)
    else
      match groupOf a with
      | some (first, n) => groupWrite s a first n w
      | none => let (x, t) := regEffect s a w; (⟨x, false, [], []⟩, t)

/-! Frames. -/

/-- The progress of a WRITE (R969): words taken, whether every status was OK_SAME, words staged that no commit has answered
yet, status of the last word, staging discarded by an access outside it, and the stores to wait for. -/
structure WriteRun where
  n : Nat := 0
  same : Bool := true
  last : Nat := 0
  broken : Bool := false
  words : List (Nat × Word) := []
  events : List (Nat × Nat × Word × Word) := []
  deriving DecidableEq, Repr

/-- A status that lets a WRITE go on. -/
def goesOn (st : Nat) : Bool := st == stOk || st == stOkSame

/-- The words of a WRITE, until one is refused: the run, the refusing status if any, the state. Words that only staged a
group count by the status of the commit that the same WRITE made for it, and as OK where it made none. -/
def writeWords (s : State) (a mask : Nat) (staged : Bool) (x : WriteRun) : List Word → WriteRun × Option Nat × State
  | [] => ({ x with same := x.same && !staged }, none, s)
  | w :: ws =>
    let broke := breaksStage s a
    let s := if broke then dropStage s else s
    -- a staging left behind without its commit counts as OK
    let x := { x with broken := x.broken || broke, same := x.same && !(broke && staged) }
    let (r, t) := wordWrite s a mask w
    if !goesOn r.st then (x, some r.st, t)
    else
      let x := { x with
        n := x.n + 1
        same := x.same && (r.staged || r.st == stOkSame)
        last := r.st
        words := x.words ++ r.words
        events := x.events ++ r.events }
      writeWords t (a + 1) mask r.staged x ws

/-- The count of a WRITE's reply. -/
def countBytes (n : Nat) : List Byte := natBytes 2 n

/-- The body of a WRITE (R968 to R974): its reply waits where a unit is stored. -/
def writeBody (seq a mask : Nat) (ws : List Word) (s : State) : Answer :=
  if a ≥ 0x100000 || ws.length > 200 || ws.isEmpty then (some (stByte stRange :: countBytes 0), s)
  else
    let (x, bad, t) := writeWords s a mask false {} ws
    let st := match bad with
      | some b => b
      | none =>
        let st := if x.same then stOkSame else x.last
        if x.broken && goesOn st then stGroupBroken else st
    let bytes := stByte st :: countBytes x.n
    if x.words.isEmpty then (some bytes, t)
    else (none, { t with svc := { t.svc with wait := some { seq := seq % 256, cmd := 0x11, bytes := bytes, words := x.words, events := x.events } } })

/-- A WRITE frame; an injected fault may reset the chip at once (R368). -/
def writeFrame (s : State) (seq a mask : Nat) (ws : List Word) : Res :=
  match framed s seq 0x11 none (writeBody seq a mask ws) with
  | .next t => .next (latchReset s.flt.fatal t)
  | o => o

/-- One word of a READ (R967): a read of CAL_NOW0 latches CAL_NOW1 (R849); bits that the manual leaves undefined take a
fresh free word. A word of the site identity is read from the array (R342). -/
def readWord (s : State) (a : Nat) : Word × State :=
  let w := regRead s a
  let s := if isSiteAddr a then wordFound s (siteLoc (a % 4)) else s
  let s := if a == 0x0E002 then { s with cal := { s.cal with now1 := calNow1 s.cal } } else s
  (w, if a == 0x01001 then { s with free := s.free + 1 } else s)

def readWords (s : State) (a : Nat) : Nat → List Word × State
  | 0 => ([], s)
  | n + 1 =>
    let (w, t) := readWord s a
    let (ws, u) := readWords t (a + 1) n
    (w :: ws, u)

/-- The body of a READ (R967, R974, R1003). `wasPoisoned` says that a word arrived poisoned twice, which ends the READ with BUSY
and no words (R1006); SPINE_UNCORR of that transfer has its own command. -/
def readBody (a n : Nat) (wasPoisoned : Bool) (s : State) : Answer :=
  if a ≥ 0x100000 || n == 0 || n > 200 then answerSt stRange s
  else
    let broke := (rangeFrom a n).any (breaksStage s)
    let s := if broke then dropStage s else s
    if wasPoisoned then answerSt stBusy s
    else
      let (ws, t) := readWords s a n
      (some (stByte (if broke then stGroupBroken else stOk) :: wordsBytes ws), t)

/-- A READ frame. -/
def readFrame (s : State) (seq a n : Nat) (wasPoisoned : Bool) : Res :=
  framed s seq 0x10 (some anyRole) (readBody a n wasPoisoned)

end Sys2Proof.Machine
end

