-- ==== Sys2Proof/Machine/Service.lean ====
section
/-! DEFINITION. The frames of the service port that are neither READ nor WRITE (chapter 25): framing, HELLO, AUTH, CLOSE, BAUD,
the recorder and history reads, overrides, sections, RESTART, images, and the timers of sessions and lockouts. -/

namespace Sys2Proof.Machine

open Sys2Proof

/-! Framing. -/

/-- FRAME_GAP (R949): a gap of 2 ms ends the discarding of bytes; a partial frame that it discards is counted with the FRAME
replies (R989). -/
def execFrameGap (cutFrame : Bool) (s : State) : Res :=
  if s.rst.held || !islRuns s 8 then .next s
  else
    let t := { s with svc := { s.svc with deaf := false } }
    .next (if cutFrame && !s.svc.deaf then countFrame t else t)

/-- Command codes of Table 25-2. -/
def svcCmds : List Nat :=
  [0x01, 0x02, 0x03, 0x04, 0x10, 0x11, 0x20, 0x21, 0x22, 0x30, 0x31, 0x32, 0x40, 0x41, 0x42, 0x48, 0x49]

/-- LENGTH suits the command's payload (Table 25-2). -/
def layoutOk (cmd len : Nat) : Bool :=
  match cmd with
  | 0x02 => len == 33
  | 0x04 => len == 4
  | 0x10 => len == 5
  | 0x11 => decide (len > 4) && (len - 4) % 5 == 0
  | 0x20 => len == 8
  | 0x21 => len == 4
  | 0x30 => len == 8
  | 0x31 => len == 2
  | 0x40 => len == 4
  | 0x41 => decide (len ≥ 5)
  | 0x48 => decide (len ≥ 5) && (len - 5) % 5 == 0
  | 0x49 => len == 1
  | _ => len == 0

/-- FRAME_TOO_LONG (R949): a LENGTH above 1 024 is answered FRAME once, and bytes are discarded until the next gap. A shorter
frame whose LENGTH does not suit its command is answered FRAME as a complete request (Table 25-3). -/
def execFrameTooLong (seq cmd len : Nat) (s : State) : Res :=
  if len > 1024 then
    if !svcHears s then .next s
    else .next (countFrame (svcSend { s with svc := { s.svc with deaf := true } } ⟨seq % 256, cmd % 256, [stByte stFrame]⟩))
  else if svcCmds.contains cmd && !layoutOk cmd len then badLayout s seq cmd
  else .next s

/-- FRAME_CRC_ERROR (R950): answered, counted, nothing else changes. -/
def execFrameCrcError (seq cmd : Nat) (s : State) : Res :=
  if !svcHears s then .next s
  else
    .next (svcSend { s with svc := { s.svc with crcFails := satAdd 65535 s.svc.crcFails 1 } }
      ⟨seq % 256, cmd % 256, [stByte stCrc]⟩)

/-- RETRANSMISSION (R951). -/
def execRetransmission (seq cmd : Nat) (s : State) : Res :=
  if !svcHears s || !isRepeatReq s seq cmd then .next s else fin (resend (heard s))

/-- UNKNOWN_COMMAND (R954). -/
def execUnknownCommand (seq cmd : Nat) (s : State) : Res :=
  if svcCmds.contains (cmd % 256) then .next s else answered s seq (cmd % 256) id stUnknown

/-! Sessions. -/

/-- The 16 nonce bytes, drawn from free words. -/
def drawNonce (s : State) : List Byte × State :=
  let f := fun (k : Nat) => natBytes 4 (Config.freeWord (s.free + k)).toNat
  (f 0 ++ f 1 ++ f 2 ++ f 3, { s with free := s.free + 4 })

/-- The current generation of a role as a byte, 0xFF for none. -/
def genByte (n : Nvm) (r : Nat) : Byte := BitVec.ofNat 8 ((keyGen n r).getD 0xFF)

/-- The HELLO reply (Table 25-4), without the nonce. -/
def helloBytes (s : State) : List Byte :=
  let ver := fun (v : Nat) => natBytes 4 (if keeperRuns s then v else 0)
  [stByte stOk, 0x40#8] ++ natBytes 2 Config.stepping.toNat ++ serialBytes ++ natBytes 4 Config.bootRomVersion.toNat ++
    ver s.start.keeperVer ++ ver s.start.engineVer ++
    natBytes 1 (stateCode s) ++ natBytes 1 s.start.step ++ natBytes 1 s.start.plate ++ natBytes 4 s.pwr.energyUj ++
    natBytes 4 eGate ++ (rangeFrom 0 4).map (genByte s.nvm) ++ natBytes 2 (satTo 65535 (lockLeft s)) ++
    natBytes 1 ((sessRole s).getD 0xFF)

/-- HELLO (R956). -/
def helloCmd (s : State) : Answer :=
  let (n, t) := drawNonce s
  (some (helloBytes s ++ n), { t with svc := { t.svc with nonce := some n } })

def execHello (seq : Nat) (s : State) : Res := framed s seq 0x01 none helloCmd

/-- AUTH (R957, R958, R966). -/
def execAuth (seq role : Nat) (tag : List Byte) (s : State) : Res := framed s seq 0x02 none (fun t => authCmd t role tag)

/-- CLOSE (R960). -/
def execClose (seq : Nat) (s : State) : Res := framed s seq 0x03 (some anyRole) (fun t => answerSt stOk (endSession t 0))

/-- SESSION_IDLE (R960): 600 s without a request that passes its CRC. -/
def execSessionIdle (s : State) : Res :=
  match s.svc.sess with
  | none => .next s
  | some x => if s.rst.held || s.now < x.seen + 600000000 then .next s else fin (endSession s 1)

/-- BAUD (R961). -/
def baudCmd (rate : Nat) (s : State) : Answer :=
  if rate < 115200 || 3000000 < rate then answerSt stRange s
  else answerSt stOk { s with svc := { s.svc with baud := rate, baudAt := some s.now } }

def execBaud (seq rate : Nat) (s : State) : Res := framed s seq 0x04 (some anyRole) (baudCmd rate)

/-- BAUD_REVERT (R961): 2 s at the new rate without a frame with a valid CRC; the session stays open. -/
def execBaudRevert (s : State) : Res :=
  match s.svc.baudAt with
  | none => .next s
  | some t =>
    if s.rst.held || s.now < t + 2000000 then .next s
    else .next { s with svc := { s.svc with baud := 115200, baudAt := none } }

/-- LOCKOUT_END (R965, R966): the stored operating second is reached. -/
def execLockoutEnd (s : State) : Res :=
  if s.rst.held || authWord s 2 == 0 || lockLeft s > 0 then .next s else fin (causeOff (setAuth s 2 0) 0x4D)

/-! Recorder and history. -/

/-- The records are read in packets that take turns of bank 2 (Table 8-3); where a turn waits, the answer waits too. -/
def recServe (seq start : Nat) (down : Bool) (count : Nat) (s : State) : Answer :=
  let ls := readLocs s start down count
  match recReads s ls.length with
  | some t => let (bs, u) := recReply t ls; (some bs, u)
  | none =>
    let w : SvcWait := { seq := seq % 256, cmd := 0x20, read := some (start, down, count) }
    (none, { askReads s 2 .recRead (recPackets ls.length) with svc := { s.svc with wait := some w } })

/-- REC_READ (R403 to R406): BUSY until the areas are located (R423), or while another reply waits. Fatal service starts no flush
(R361). -/
def recReadCmd (seq start dir count flush : Nat) (s : State) : Answer :=
  if dir > 1 || count == 0 || count > 32 then answerSt stRange s
  else if !s.recr.located || s.svc.wait.isSome then answerSt stBusy s
  else recServe seq start (dir == 1) count (if flush % 2 == 1 && s.start.state != .fatalService then requestFlush s else s)

def execSvcRecRead (seq start dir count flush : Nat) (s : State) : Res :=
  framed s seq 0x20 none (recReadCmd seq start dir count flush)

/-- REC_CLEAR (R407 to R410): the answer comes with the refusal, or as the chunk with RING_CLEARED has started. -/
def recClearCmd (seq : Nat) (guard : List Byte) (s : State) : Answer :=
  if guard != [0x52#8, 0x43#8, 0x4C#8, 0x52#8] then answerSt stRange s
  else (none, recClear s { port := 0#40, id := seq % 256 })

def execSvcRecClear (seq : Nat) (guard : List Byte) (s : State) : Res := framed s seq 0x21 none (recClearCmd seq guard)

/-- FLT_HIST_READ (R366, Table 25-2). -/
def histBytes (f : Flt) : List Byte :=
  let p := regHistPtr f
  [stByte stOk, BitVec.ofNat 8 (fld p 3 0)] ++ natBytes 2 (fld p 19 4) ++
    (rangeFrom 0 16).flatMap (fun j => (rangeFrom 0 3).flatMap (fun k => wordBytes (regHist f j k)))

def execFltHistRead (seq : Nat) (s : State) : Res := framed s seq 0x22 none (fun t => (some (histBytes t.flt), t))

/-! Overrides and sections. -/

/-- The channel of a kind is declared. -/
def ovrDeclared (s : State) (kind ch : Nat) : Bool :=
  match kind with
  | 0 => (fanCfg s ch).isSome
  | 1 => (motorCfg s ch).isSome
  | 2 => (gateCfg s ch).isSome
  | 3 => (heatCfg s ch).isSome
  | _ => false

/-- The value of an override as the channel takes it (R976): for a motor 0 STOP, 1 RUN, 2 STOP_NOW; none outside its set. -/
def ovrValue (kind : Nat) (w : Word) : Option Int :=
  let v := qOf w
  if kind == 1 then
    if v == 0 then some 0 else if v == qOne then some 1 else if v == 2 * qOne then some 2 else none
  else if 0 ≤ v ∧ v ≤ pct100 then some v
  else none

/-- Every other override. -/
def ovrOthers (s : State) (kind ch : Nat) : List Override := s.svc.ovr.filter (fun o => !(o.kind == kind && o.ch == ch))

/-- OVERRIDE with set (R976, R981). -/
def overrideSet (kind ch : Nat) (w : Word) (s : State) : Answer :=
  if !isArmed s then answerSt stBusy s
  else if !ovrDeclared s kind ch then answerSt stRange s
  else
    match ovrValue kind w with
    | none => answerSt stRange s
    | some v =>
      let rest := ovrOthers s kind ch
      if rest.length ≥ 64 then answerSt stRange s
      else
        let s := { s with svc := { s.svc with ovr := rest ++ [⟨kind, ch, v⟩] } }
        answerSt stOk (svcEvent s 0x2004 (packW [(39, 32, kind), (15, 0, ch)]) w)

/-- OVERRIDE with release (R976); `op` other than 0 is no release and no set, and answers RANGE. -/
def overrideRelease (kind ch op : Nat) (s : State) : Answer :=
  if !isArmed s then answerSt stBusy s
  else if op != 0 || !ovrDeclared s kind ch then answerSt stRange s
  else if (ovrOf s kind ch).isNone then answerSt stOk s
  else answerSt stOk (svcEvent { s with svc := { s.svc with ovr := ovrOthers s kind ch } } 0x2005 1#40 0#40)

def execOverrideSet (seq kind ch : Nat) (value : Word) (s : State) : Res :=
  framed s seq 0x30 (some plantRoles) (overrideSet kind ch value)

/-- OVERRIDE with byte 2 other than 1. -/
def execOverrideRelease (seq kind ch op : Nat) (s : State) : Res :=
  if op == 1 then .next s else framed s seq 0x30 (some plantRoles) (overrideRelease kind ch op)

/-- SECTION with start (R446). -/
def execSvcSectionStart (seq sect : Nat) (s : State) : Res :=
  framed s seq 0x31 (some plantRoles) (fun t => let (st, u) := sectStartCmd t sect 0; answerSt st u)

/-- SECTION with byte 1 other than 1: 0 stops (R447), another value answers RANGE. -/
def execSvcSectionStop (seq sect op : Nat) (s : State) : Res :=
  if op == 1 then .next s
  else
    framed s seq 0x31 (some plantRoles) (fun t =>
      if op != 0 then answerSt (if isArmed t then stRange else stBusy) t
      else let (st, u) := sectStopCmd t sect; answerSt st u)

/-- RESTART (R980). -/
def restartCmd (s : State) : Answer :=
  answerSt stOk (requestFlush { s with svc := { s.svc with restartAt := some s.now } })

def execRestart (seq : Nat) (s : State) : Res := framed s seq 0x32 (some engFactory) restartCmd

/-! Images (Table 25-8). -/

/-- Words of an image region (Table 8-2). -/
def regionWords (engine : Bool) : Nat := if engine then 16384 else 393216

/-- The target lies in the active slot (R311); in boot-ROM service either slot may be written (R978). -/
def selfErase (s : State) (slot : Nat) : Bool := s.start.state != .bootService && slot == activeBank s

/-- A row of the region is being erased, or waits for it: a command that would program or erase it is refused (R306). -/
def regionErases (n : Nvm) (slot : Nat) (engine : Bool) : Bool :=
  let r := imgRows engine
  let here := fun (row : Nat) => decide (r.1 ≤ row ∧ row ≤ r.2)
  let x := getBank n slot
  (match x.erase with | none => false | some e => here e.row) || x.eraseWait.any (fun e => here e.1)

/-- IMAGE_WRITE with BEGIN (step 1): the erase follows the reply. -/
def imageBegin (slot : Nat) (engine : Bool) (off : Nat) (ws : List Word) (s : State) : Answer :=
  if selfErase s slot then answerSt stSelfErase s
  else if s.svc.img.st == 1 || s.svc.wait.isSome || regionErases s.nvm slot engine then answerSt stBusy s
  else if !s.pwr.gate then answerSt stEnergy (energyRefused s { kind := .erase, owner := .eraseImage 0 })
  else if off != 0 || !ws.isEmpty then answerSt stRange s
  else
    let row := (imgRows engine).1
    let g : ImgWrite := { st := 1, slot := slot, engine := engine, row := row }
    answerSt stOk (requestErase { s with svc := { s.svc with img := g } } slot row (.eraseImage (imgIndex slot engine)))

/-- Locations and values of an image's words from word k on. -/
def imageWords (slot : Nat) (engine : Bool) (k : Nat) : List Word → List (Nat × Word)
  | [] => []
  | w :: ws => (imgLoc (imgIndex slot engine) k, w) :: imageWords slot engine (k + 1) ws

/-- Checks of a frame after BEGIN: 0 when it may be taken (R978, R987). -/
def imageCheck (s : State) (slot : Nat) (engine : Bool) (off n : Nat) : Nat :=
  let g := s.svc.img
  if selfErase s slot then stSelfErase
  else if g.st == 1 || s.svc.wait.isSome || regionErases s.nvm slot engine then stBusy
  else if g.cut then stEnergy
  else if g.st != 2 || g.slot != slot || g.engine != engine || off != g.next || n > 200 || off + n > regionWords engine then
    stRange
  else stOk

/-- A frame of step 2: words 0 to 63 are kept, the others stored as one unit. -/
def imageData (seq slot : Nat) (engine : Bool) (off : Nat) (ws : List Word) (s : State) : Answer :=
  let st := imageCheck s slot engine off ws.length
  if st != stOk then answerSt st s
  else
    let g := s.svc.img
    let kept := ws.take (64 - off)
    let rest := ws.drop (64 - off)
    let g' := { g with next := off + ws.length, head := g.head ++ kept }
    if rest.isEmpty then answerSt stOk { s with svc := { s.svc with img := g' } }
    else
      let words := imageWords slot engine (max off 64) rest
      let (r, t) := storeFirst s { kind := .unit, owner := .image, words := words }
        { seq := seq % 256, cmd := 0x48, bytes := [stByte stOk], words := words, image := 1, img := g }
      (r, if r.isNone then { t with svc := { t.svc with img := g' } } else t)

/-- The frame with FINAL (step 3): its words, then the 64 header words, as one unit; the header must be complete. -/
def imageFinal (seq slot : Nat) (engine : Bool) (off : Nat) (ws : List Word) (s : State) : Answer :=
  let st := imageCheck s slot engine off ws.length
  let g := s.svc.img
  let head := g.head ++ ws.take (64 - off)
  if st != stOk then answerSt st s
  else if head.length < 64 then answerSt stRange s
  else
    let words := imageWords slot engine (max off 64) (ws.drop (64 - off)) ++ imageWords slot engine 0 head
    let (r, t) := storeFirst s { kind := .unit, owner := .image, words := words }
      { seq := seq % 256, cmd := 0x48, words := words, image := 2, img := g }
    let g' := { g with st := 3, next := off + ws.length, head := head }
    (r, if r.isNone then { t with svc := { t.svc with img := g' } } else t)

def execImageWriteBegin (seq slot : Nat) (engine : Bool) (off : Nat) (words : List Word) (s : State) : Res :=
  framed s seq 0x48 (some engOnly) (imageBegin (slot % 2) engine off words)

def execImageWriteData (seq slot : Nat) (engine : Bool) (off : Nat) (words : List Word) (s : State) : Res :=
  framed s seq 0x48 (some engOnly) (imageData seq (slot % 2) engine off words)

def execImageWriteFinal (seq slot : Nat) (engine : Bool) (off : Nat) (words : List Word) (s : State) : Res :=
  framed s seq 0x48 (some engOnly) (imageFinal seq (slot % 2) engine off words)

/-- IMAGE_ACTIVATE (R979): why() of R432 on the images now in the array. -/
def imageActivate (seq pair : Nat) (s : State) : Answer :=
  let g := s.svc.img
  if pair > 1 then answerSt stRange s
  else if 1 ≤ g.st ∧ g.st ≤ 3 ∧ g.slot = pair then answerSt stBusy s
  else
    let why := pairWhy ((rangeFrom 0 4).map (imgResult s.nvm)) pair
    if why != 0 then (some [stByte stRange, BitVec.ofNat 8 why], s)
    else
      let words := [(locOf 3 0 14, pw pair)]
      storeFirst s { kind := .word, owner := .preferred, words := words }
        { seq := seq % 256, cmd := 0x49, bytes := [stByte stOk, 0#8], words := words, events := [(0x4007, 0x19, pw pair, 0#40)] }

def execImageActivate (seq pair : Nat) (s : State) : Res := framed s seq 0x49 (some engOnly) (imageActivate seq pair)

end Sys2Proof.Machine
end

