-- ==== Sys2Proof/Machine/Spine.lean ====
section
/-! DEFINITION. The spine and its arbiters (chapter 05): LINK_WORD_TRANSFER, SPN_LANE_SWAP, SPINE_STALL, ARB_REQUEST,
ARB_RELEASE, ARB_TURN_START, ARB_WITHDRAW, DEAD_CYCLE_END, ARB_FREEZE, ARB_UNFREEZE, ARB_DOUBLE. Instances are numbered by
the Index column of Table 5-3, the output port p of router r by 256 + 5 r + p. -/

namespace Sys2Proof.Machine

open Sys2Proof

/-- LINK_WORD_TRANSFER (R172, R173, R177): one word of a packet crosses a link direction of its route, the header word first;
`wrong` lists the lanes found wrong, `src` and `head` are what the header names. -/
def execLinkWordTransfer (dir : Nat) (wrong : List Nat) (src : Nat) (head : PacketHead) (s : State) : Res :=
  let c : Cross := { src := src, dst := head.dst, len := head.len, back := head.back }
  if s.rst.held || !linkExists dir || (getLink s dir).dead || !wordFits s dir c then .next s
  else match wrong.eraseDups.filter (carries (getLink s dir)) with
    | [] => fin (crossWord s dir c false)
    | [l] => fin (laneCorrected (crossWord s dir c false) dir l)
    | _ => fin (crossWord s dir c true)

/-- SPN_LANE_SWAP (R208, Table 5-5): the ports of the swap at the head have drained. -/
def execSpnLaneSwap (s : State) : Res :=
  match s.spn.swaps with
  | [] => .next s
  | x :: _ =>
    if keeperRuns s && (linkPorts x.1).all (fun p => drained (getArb s p)) then .next (swapLane s x.1 x.2) else .next s

/-- The packet that a stalled port holds ends, which releases the port with it; a port granted to a packet whose header has not
crossed yet is released alone. A reset of the spine by the raise has ended it already. -/
def stallEnd (s : State) (n : Nat) (held : Option Cross) : State :=
  match held with
  | none => modArb s n phaseRelease
  | some c => if (packetAt s n).isSome then endPacket s c else s

/-- SPINE_STALL (R210): a handshake phase at output port p of router r is incomplete for 10 µs; the packet there ends and the
port is released. -/
def execSpineStall (router port : Nat) (s : State) : Res :=
  if s.rst.held || router ≥ 72 || port ≥ 5 then .next s
  else
    let n := 256 + 5 * router + port
    let held := packetAt s n
    let s := pulse { s with spn := { s.spn with stall := true } } 0x12 (packW [(14, 8, router), (2, 0, port)])
    let s := stallEnd s n held
    if port == 0 then fin (portTileFail s (64 + router)) else fin s

/-! Requests and turns. -/

/-- Move a phase-separated instance; a bank's next turn starts where the arbiter grants it. -/
def arbMove (s : State) (n : Nat) (f : Arb → Arb) : State := svcStores (arbMoved (modArb s n f) n)

/-- The instance is a bank's, and the requester one of its stores and read packets, which State holds and which ask by
themselves (assumption 12). -/
def bankPort (n r : Nat) : Bool := decide (8 ≤ n ∧ n < 12) && (r == portFg || r == portBg)

/-- The instance is a shared SRAM bank's, and the requester the scrub, whose packets State holds (R489). -/
def sramPort (n r : Nat) : Bool := decide (n < 8) && r == portSram

/-- The owner's turn at a bank in progress. -/
def bankTurn (s : State) (n r : Nat) : Option Store :=
  if bankPort n r && (getArb s n).owner == some r then (getBank s.nvm (n - 8)).hand else none

/-- ARB_REQUEST (R186, R189): a requester of a phase-separated instance raises its request; an unassigned edge port has none
(R176). The requests of a controller are the frames in its mailboxes, those of a scan sequencer its entries, those of the start
budget START_REQUEST. -/
def execArbRequest (n r : Nat) (back : Bool) (s : State) : Res :=
  if s.rst.held || unassigned n then .next s
  else if phaseStyle n then
    if bankPort n r then .next (svcStores (bankAsk s (n - 8)))
    else if sramPort n r then .next s
    else .next (arbMove s n (fun a => phaseRequest a r back))
  else if 18 ≤ n ∧ n < 22 then .next (canDecide s (n - 18))
  else if n == 22 then execStartRequest r s
  else .next s

/-- ARB_RELEASE (R189): the owner of a phase-separated instance ends its turn. A read packet of a bank ends with it; a program
or a pulse ends with its own command, and a packet holds its router port until its last word (R178). -/
def execArbRelease (n r : Nat) (s : State) : Res :=
  if s.rst.held || !phaseStyle n || (getArb s n).owner != some r || portBusy s n then .next s
  else match bankTurn s n r with
    | some t => if t.kind == .read then fin (svcStores (readEnd s (n - 8) t)) else .next s
    | none =>
      let s := arbMove s n phaseRelease
      if sramPort n r then fin (sramEnd s n) else .next s

/-- ARB_TURN_START (R191): a controller starts the chosen frame at bus idle and decides the next turn; the start budget's
turn is the decision step. A scan sequencer's turns start with SLICE_TURN_BOUNDARY. -/
def execArbTurnStart (n : Nat) (s : State) : Res :=
  if 18 ≤ n ∧ n < 22 then
    let c := n - 18
    let x := getCan s c
    let a := getArb s n
    if !canRuns s c || !onBus x || x.pexWait || a.owner.isSome || a.dead || !(a.next.isSome || a.deadDue) then .next s
    else .next (canChoose (modArb s n aheadServe) c)
  else if n == 22 then execDecisionStep s
  else .next s

/-- ARB_WITHDRAW (R194, R195, R204). The stores and read packets of a bank whose request is withdrawn before their turn ask again
with the next move of its arbiter; a turn that has started goes on to its end, and so does a packet through a router port
(R178). -/
def execArbWithdraw (n r : Nat) (s : State) : Res :=
  if s.rst.held || ((getArb s n).owner == some r && portBusy s n) then .next s
  else if phaseStyle n then
    if bankPort n r then .next (if (bankTurn s n r).isSome then s else modArb s n (fun a => phaseWithdraw a r))
    else if sramPort n r then
      let f := { s.prf with sramTurns := s.prf.sramTurns.filter (fun x => x.1 != n) }
      .next (arbMove { s with prf := f } n (fun a => phaseWithdraw a r))
    else .next (arbMove s n (fun a => phaseWithdraw a r))
  else if 18 ≤ n ∧ n < 22 then execMailboxAbort (n - 18) r s
  else if n == 22 then execStartWithdraw r s
  else .next s

/-- DEAD_CYCLE_END (R195). The dead turns of the scan sequencers and of the start budget end with their own steps. -/
def execDeadCycleEnd (n : Nat) (s : State) : Res :=
  if s.rst.held then .next s
  else if phaseStyle n then .next (arbMove s n phaseDeadEnd)
  else if 18 ≤ n ∧ n < 22 then
    if (getArb s n).dead then .next (canDecide (modArb s n (fun a => { a with dead := false })) (n - 18)) else .next s
  else .next s

/-- An instance with a freeze bit that the keeper writes: index 0 to 21 and the router ports (R198). -/
def freezable (n : Nat) : Bool := decide (n < 22) || decide (256 ≤ n ∧ n < 616)

/-- ARB_FREEZE (R197, R198). -/
def execArbFreeze (n : Nat) (s : State) : Res := if keeperRuns s && freezable n then .next (setFreeze s n) else .next s

/-- ARB_UNFREEZE (R198). -/
def execArbUnfreeze (n : Nat) (s : State) : Res := if keeperRuns s && freezable n then .next (clearFreeze s n) else .next s

/-- ARB_DOUBLE (R211). -/
def execArbDouble (n : Nat) (s : State) : Res := if s.rst.held then .next s else fin (raiseU s 0x03 (pw n))

end Sys2Proof.Machine
end

