-- ==== Sys2Proof/Machine/SvcRegs.lean ====
section
/-! DEFINITION. READ and WRITE frames by the register they aim at. Each command is one WRITE (or READ) frame whose first word
goes to the register that its row names; the words that follow go to the addresses after it (R969). -/

namespace Sys2Proof.Machine

open Sys2Proof

/-- READ (R967). -/
def execRead (seq addr count : Nat) (wasPoisoned : Bool) (s : State) : Res := readFrame s seq addr count wasPoisoned

/-- CAL_NOW0_READ (R849): a READ that begins at CAL_NOW0. -/
def execCalNow0Read (seq count : Nat) (s : State) : Res := readFrame s seq 0x0E002 count false

/-- REGISTER_WRITE (R954, R970): any WRITE frame, with its data as bytes; data that is no non-zero number of words is answered
FRAME. -/
def execRegisterWrite (seq addr mask : Nat) (bytes : List Byte) (s : State) : Res :=
  if bytes.isEmpty || bytes.length % 5 != 0 then badLayout s seq 0x11
  else writeFrame s seq addr mask (bytesWords bytes.length bytes)

/-- FLT_ACK (R357). -/
def execFltAck (seq mask : Nat) (data : Word) (s : State) : Res := writeFrame s seq 0x03002 mask [data]

/-- FLT_INJECT (R368). -/
def execFltInject (seq mask : Nat) (data : Word) (s : State) : Res := writeFrame s seq 0x03010 mask [data]

/-- REC_CTL_FLUSH (R406). -/
def execRecCtlFlush (seq mask : Nat) (data : Word) (s : State) : Res := writeFrame s seq 0x04004 mask [data]

/-- ARB_CTL_WRITE (R216), n = 0 to 22. -/
def execArbCtlWrite (seq n mask : Nat) (data : Word) (s : State) : Res :=
  if n > 22 then .next s else writeFrame s seq (0x08400 + n) mask [data]

/-- STB_FREEZE_SET (R662). -/
def execStbFreezeSet (seq mask : Nat) (s : State) : Res := writeFrame s seq 0x0B101 mask [1#40]

/-- STB_FREEZE_RELEASE (R662). -/
def execStbFreezeRelease (seq mask : Nat) (s : State) : Res := writeFrame s seq 0x0B101 mask [0#40]

/-- FAN_FOG_ACK (R699). -/
def execFanFogAck (seq mask : Nat) (data : Word) (s : State) : Res := writeFrame s seq 0x0C001 mask [data]

/-- FAN_FIX_WRITE (R681), n = 0 to 255. -/
def execFanFixWrite (seq n mask : Nat) (words : List Word) (s : State) : Res :=
  if n > 255 then .next s else writeFrame s seq (0x0C300 + n) mask words

/-- MOT_CLR (R731). -/
def execMotClr (seq mask : Nat) (data : Word) (s : State) : Res := writeFrame s seq 0x0D001 mask [data]

/-- CAL_SET0_WRITE (R843): with a second word it commits too. -/
def execCalSet0Write (seq mask : Nat) (words : List Word) (s : State) : Res := writeFrame s seq 0x0E000 mask words

/-- CAL_SET1_COMMIT (R844 to R848). -/
def execCalSet1Commit (seq mask : Nat) (data : Word) (s : State) : Res := writeFrame s seq 0x0E001 mask [data]

/-- CAN_RECOVER (R885), controller n = 0 to 3. -/
def execCanRecover (seq n mask : Nat) (data : Word) (s : State) : Res :=
  if n > 3 then .next s else writeFrame s seq (0x10003 + 0x1000 * n) mask [data]

/-- SVC_SITE_WRITE (R972), from word k = 0 to 3 on. -/
def execSvcSiteWrite (seq k mask : Nat) (words : List Word) (s : State) : Res :=
  if k > 3 then .next s else writeFrame s seq (0x14010 + k) mask words

/-- SVC_KEY_WRITE (R962, R963), from word w = 0 to 6 of cell (r, g) on. -/
def execSvcKeyWrite (seq r g w mask : Nat) (words : List Word) (s : State) : Res :=
  if r > 3 || g > 3 || w > 6 then .next s else writeFrame s seq (0x14100 + 8 * (4 * r + g) + w) mask words

/-- VALUE_FORCE (R977), n = 0 to 4095. -/
def execValueForce (seq n mask : Nat) (words : List Word) (s : State) : Res :=
  if n > 4095 then .next s else writeFrame s seq (0x20000 + 2 * n) mask words

/-- FORCE_RELEASE (R977). -/
def execForceRelease (seq n mask : Nat) (data : Word) (s : State) : Res :=
  if n > 4095 then .next s else writeFrame s seq (0x20000 + 2 * n + 1) mask [data]

/-- W1C_CLEAR (R16): a WRITE to a register with W1C flags. -/
def execW1cClear (seq addr mask : Nat) (data : Word) (s : State) : Res :=
  if !w1cAddr addr then .next s else writeFrame s seq addr mask [data]

end Sys2Proof.Machine
end

