-- ==== Sys2Proof/Machine/Syntagel.lean ====
section
/-! DEFINITION. Reception of frames (chapter 23) and the Syntagel commands (chapter 24): heartbeats, nodes, remote
channels and values, host commands, notices, recorder transfers. -/

namespace Sys2Proof.Machine

open Sys2Proof

/-! Reception (R877, R879). -/

/-- The lowest enabled filter that a frame matches. -/
def canMatch (x : CanSt) (ide : Bool) (id : Nat) : Option Nat :=
  (rangeFrom 0 64).find? (fun k => match tget none x.filts k with
    | none => false
    | some f => f.ide == ide && (f.id &&& f.mask) == (id &&& f.mask))

/-- A good frame seen: the receive error count of ISO 11898-1, and the join of R887. -/
def rxGood (x : CanSt) : CanSt :=
  { x with
    recN := if x.recN > 127 then 127 else x.recN - 1
    goodRx := if x.st == 6 then x.goodRx + 1 else x.goodRx }

/-- The first frame of an address without an entry makes it foreign (R915). -/
def rxForeign (s : State) (n id : Nat) : State :=
  let src := idSrc id
  if 1 ≤ src && src ≤ 0x7E && s.start.state != .moored && (nodeCfg s n src).isNone then nodeForeign s n src 8 else s

/-- SHORT and DISCARD of CANn_SYN. -/
def rxShort (s : State) (n : Nat) : State := setCan s n { getCan s n with short := true }
def rxDiscard (s : State) (n : Nat) : State := setCan s n { getCan s n with discard := true }

/-- A frame waits in the queue for its command. -/
def rxQueue (s : State) (n : Nat) (f : CanFrame) (esi : Bool) (k : Nat) : State :=
  let x := getCan s n
  let e : RxEnt := { frame := f, esi := esi, filt := k, at_ := (s.now * 40) % 2 ^ 32 }
  setCan s n { x with rx := x.rx ++ [e] }

/-- The keeper's screen of a frame that has entered the queue (R904, R915, R920, R930). -/
def rxScreen (s : State) (n : Nat) (f : CanFrame) (esi : Bool) (k : Nat) : State :=
  if !f.ide || !synServes s n then rxQueue s n f esi k
  else
    let s := rxForeign s n f.id
    match screen s n f.id f.data.length with
    | .drop =>
      if idSrc f.id == 0xFE && n != hostBus s && !s.syn.foreignHost.contains n then
        let s := addRecord s 0x3008 (0x12 + n) (pw n) 0#40
        { s with syn := { s.syn with foreignHost := n :: s.syn.foreignHost } }
      else s
    | .short => rxShort s n
    | .discard => rxDiscard s n
    | .take => rxQueue s n f esi k

/-- A matching frame enters the queue of 64, where the keeper screens it, or is lost (R877, R879, R225). -/
def rxEnter (s : State) (n : Nat) (f : CanFrame) (esi : Bool) (k : Nat) : State :=
  let x := getCan s n
  if x.rx.length ≥ 64 then islOverflow s (1 + n) 0
  else rxScreen (setCan s n { x with rxCnt := (x.rxCnt + 1) % 2 ^ 40 }) n f esi k

/-- A payload length that a frame of this format can carry. -/
def lenFits (fdf : Bool) (len : Nat) : Bool := if fdf then len ≤ 64 && dlcLen len == len else len ≤ 8

/-- A frame without error has been seen on the bus of controller n. -/
def rxFrame (s : State) (n : Nat) (f : CanFrame) (esi rtr : Bool) : State :=
  let x := getCan s n
  let s := setCan s n { rxGood x with busQ := x.busQ + frameTimeQ x f }
  if rtr then setCan s n { getCan s n with remote := satAdd 255 (getCan s n).remote 1 }
  else match canMatch x f.ide f.id with
    | none => setCan s n { getCan s n with noMatch := (getCan s n).noMatch + 1 }
    | some k => rxEnter s n f esi k

/-- FRAME_RECEIVED (R877, R879): a frame of another participant on controller n. An FD frame on a controller with FD
clear is a form error. -/
def execFrameReceived (n id : Nat) (ide fdf brs esi rtr : Bool) (data : List Byte) (s : State) : Res :=
  let x := getCan s n
  let good := lenFits fdf data.length && (id < if ide then 2 ^ 29 else 2 ^ 11) && (fdf || !(brs || esi)) && !(fdf && rtr)
  if !canRuns s n || x.pexWait || !(onBus x || x.st == 6) || !good then .next s
  else if fdf && !busFd s n then fin (canErr s n 3 false false false)
  else
    let f : CanFrame := { id := id, ide := ide, fdf := fdf, brs := brs, data := data }
    fin (canConfine (rxFrame s n f esi rtr) n)

/-! Service of the queue. -/

/-- Serve the head of controller n's queue where it is a frame of the wanted kind; what has become unwelcome since its
reception is discarded. -/
def rxServe (s : State) (n : Nat) (p : CanFrame → Bool) (act : CanFrame → State → State) : State :=
  match rxHead s n with
  | none => s
  | some e =>
    if !p e.frame then s
    else
      let t := rxTake s n
      match screen s n e.frame.id e.frame.data.length with
      | .take => act e.frame t
      | .discard => rxDiscard t n
      | .short => rxShort t n
      | .drop => t

/-- A frame of a class from the host, or from a node. -/
def fromHost (c : Nat) (f : CanFrame) : Bool := idCls f.id == c && idSrc f.id == 0xFE
def fromNode (c : Nat) (f : CanFrame) : Bool := idCls f.id == c && idSrc f.id != 0xFE

/-! Supervision (R908 to R912). -/

/-- NODE_MS in µs. -/
def nodeUs (s : State) : Nat := (sup s).nodeMs * 1000

/-- HEARTBEAT_SEND (R908). -/
def execHeartbeatSend (s : State) : Res :=
  let period := if s.start.state == .moored then 250000 else nodeUs s / 4
  let due := match s.syn.hbAt with | none => true | some t => decide (s.now ≥ t + period)
  if !due || !(rangeFrom 0 4).any (synServes s) then .next s
  else
    let t := synSends s 2 0xFF 0 (heartbeat s) (rangeFrom 0 4)
    .next { t with syn := { t.syn with hbSeq := (s.syn.hbSeq + 1) % 256, hbAt := some s.now } }

/-- HOST_HEARTBEAT (R698, R699, R911): a heartbeat of node 0xFE on the host bus. -/
def execHostHeartbeat (s : State) : Res := fin (rxServe s (hostBus s) (fromHost 2) (fun _ t => hostBeat t))

/-- NODE_HEARTBEAT (R909, R914): it restarts the loss timer; a lost node is asked for its identity. -/
def execNodeHeartbeat (n : Nat) (s : State) : Res :=
  .next (rxServe s n (fromNode 2) (fun f t =>
    let k := nodeKey n (idSrc f.id)
    let x := getNode t k
    setNode t k { x with hb := some t.now, back := x.back || x.st == 3 }))

/-- NODE_LOST (R909): no heartbeat of a declared node for NODE_MS. -/
def execNodeLost (bus node : Nat) (s : State) : Res :=
  let x := getNode s (nodeKey bus node)
  if !synServes s bus || s.start.state == .moored || (nodeCfg s bus node).isNone || !(x.st == 2 || x.st == 4) ||
    decide (s.now < x.hb.getD s.start.step9At + nodeUs s) then .next s
  else fin (nodeLose s bus node)

/-- PLANT_STATE (R912): the plant flags differ from those last sent. -/
def execPlantState (s : State) : Res :=
  if plantFlags s == s.syn.plant || !(rangeFrom 0 4).any (synServes s) || s.start.state == .moored then .next s
  else
    let t := synSends s 0 0xFF 4 (plantState s) (rangeFrom 0 4)
    .next { t with syn := { t.syn with plant := plantFlags s } }

/-! Identity (R913 to R915). -/

/-- An identity request. -/
def identAsk (s : State) (bus node : Nat) : State := synSend s bus 4 node 0 []

def identAsks (s : State) (node : Nat) : List Nat → State
  | [] => s
  | n :: ns => identAsks (identAsk s n node) node ns

/-- IDENT_REQ (R914): to every node at the end of step 9 (node 0xFF), each 1 s to a declared node that has not reported
until the end of step 11, and to a lost node whose heartbeat arrives again. -/
def execIdentReq (bus node : Nat) (s : State) : Res :=
  let k := nodeKey bus node
  let x := getNode s k
  if s.start.step < 10 || s.start.state == .moored then .next s
  else if node == 0xFF then
    if s.syn.identAll then .next s
    else
      let t := identAsks s 0xFF (rangeFrom 0 4)
      .next { t with syn := { t.syn with identAll := true } }
  else
    let silent := x.st == 1 && !s.start.step11 && decide (s.now ≥ x.ask.getD s.start.step9At + 1000000)
    if !synServes s bus || (nodeCfg s bus node).isNone || !(silent || x.back) then .next s
    else .next (identAsk (setNode s k { x with ask := some s.now, back := false }) bus node)

/-- WHY of Table 24-12 for a report: 8 no entry, 4 TYPE, 2 firmware version, 1 node-plate CRC-32. -/
def identWhy (c : Option NodeCfg) (type ver crc : Nat) : Nat :=
  match c with
  | none => 8
  | some c => (if c.type == type then 0 else 4) + (if c.version == ver then 0 else 2) + (if c.crc == crc then 0 else 1)

/-- A matching report (R915): the node is present; one that was lost or foreign returns. -/
def nodePresent (s : State) (bus node : Nat) : State :=
  let k := nodeKey bus node
  let x := getNode s k
  let s := setNode s k { x with st := 2, why := 0, back := false }
  if x.st == 3 || x.st == 4 then
    nodeCauses (sendNow (addRecord s 0x200C (0x12 + bus) (nodeParam bus node) 0#40) (nodeChannels s bus node))
  else s

/-- IDENTITY (R915). -/
def execIdentity (n : Nat) (s : State) : Res :=
  fin (rxServe s n (fromNode 4) (fun f t =>
    let node := idSrc f.id
    let type := idObj f.id - 0x100
    let k := nodeKey n node
    let t := setNode t k { getNode t k with type := type }
    let why := identWhy (nodeCfg t n node) type (bytesNat (f.data.take 4)) (bytesNat ((f.data.drop 4).take 4))
    if why == 0 then nodePresent t n node else nodeForeign t n node why))

/-! Remote channels and values (R917 to R919). -/

/-- CHANNEL_CMD (R917): the resolved command of a remote channel differs from the last one sent, at most 20 times per
second. -/
def execChannelCmd (kind ch : Nat) (s : State) : Res :=
  match resolved s kind ch with
  | none => .next s
  | some r =>
    match tget none s.syn.cmds (kind * 256 + ch) with
    | none => .next (sendCmd s kind ch r.1 r.2)
    | some c =>
      if (c.level == r.1 && c.flags == r.2) || decide (s.now < c.at_ + 50000) then .next s
      else .next (sendCmd s kind ch r.1 r.2)

/-- The latest command of a channel again, 1 s after it was sent. -/
def repeatCmd (s : State) (r : RemoteCfg) : State :=
  match tget none s.syn.cmds (r.kind * 256 + r.logical) with
  | none => s
  | some c => if s.now < c.at_ + 1000000 then s else sendCmd s r.kind r.logical c.level c.flags

def repeatCmds (s : State) : List RemoteCfg → State
  | [] => s
  | r :: rs => repeatCmds (repeatCmd s r) rs

/-- CHANNEL_CMD_REPEAT (R917). -/
def execChannelCmdRepeat (s : State) : Res := .next (repeatCmds s (s.plt.plate.remotes.filter (fun r => r.kind < 4)))

/-- The status of a remote motor (R719). -/
def statusMotor (s : State) (ch : Nat) (v : Word) (fb : Bool) : State :=
  let m := getMot s ch
  let y := { m with rate := (max 0 (qOf v), 1048576), fb := fb, fbSince := if fb == m.fb then m.fbSince else s.now }
  let s := setMot s ch y
  if fb == m.fb then s else fbAgree s ch

/-- One failure bit of a remote gate (R738): raised at its change from 0 to 1; the source's cause ends with the last
channel that shows the bit. -/
def statusGateBit (s : State) (ch src : Nat) (was now : Bool) : State :=
  let old := if src == 0x44 then s.gat.travelBad else s.gat.stallBad
  let new := if now then (if old.contains ch then old else old ++ [ch]) else old.filter (· != ch)
  if was == now then s
  else
    let s := { s with gat := if src == 0x44 then { s.gat with travelBad := new } else { s.gat with stallBad := new } }
    if now then raiseU s src (pw ch) else causeDrop s src new

def statusGate (s : State) (ch flags : Nat) : State :=
  let g := getGat s ch
  let travel := bitsN flags 1 1 == 1
  let stall := bitsN flags 2 2 == 1
  let s := setGat s ch { g with nodeTravel := travel, nodeStall := stall }
  statusGateBit (statusGateBit s ch 0x44 g.nodeTravel travel) ch 0x45 g.nodeStall stall

/-- The remote map entry of a frame from a node. -/
def remoteAt (s : State) (bus : Nat) (f : CanFrame) : Option RemoteCfg :=
  s.plt.plate.remotes.find? (fun r => r.bus == bus && r.node == idSrc f.id && r.obj == idObj f.id)

/-- A status of quality FAULT or STALE counts as feedback inactive and permit absent. -/
def channelStatus (s : State) (bus : Nat) (f : CanFrame) : State :=
  match remoteAt s bus f with
  | none => s
  | some r =>
    let flags := byteAt f 7
    let q := (recordQ f.data).1
    let on := bitsN flags 0 0 == 1 && q != .fault && q != .stale
    if bitsN flags 7 6 != r.kind then s
    else match r.kind with
      | 1 => statusMotor s r.logical (recordV f.data) on
      | 2 => statusGate s r.logical flags
      | 3 => if (heatCfg s r.logical).isSome then setPermit s r.logical on else s
      | _ => s

/-- A frame that is the CHANNEL_STATUS of a remote channel. -/
def isStatus (s : State) (bus : Nat) (f : CanFrame) : Bool :=
  fromNode 3 f && (match remoteAt s bus f with | none => false | some r => r.kind < 4)

/-- CHANNEL_STATUS (R918, R738, R741). -/
def execChannelStatus (n : Nat) (s : State) : Res := fin (rxServe s n (isStatus s n) (fun f t => channelStatus t n f))

/-- The value index that a SUB writes, and its STALE_MS. -/
def subLimit (s : State) (inst : Nat) : Option Nat :=
  match s.plt.plate.insts.find? (·.inst == inst) with
  | none => none
  | some i => match i.outs.head? with
    | none => none
    | some o => if o.kind == 0 then staleMsOf s o.target else none

/-- A record reaches its SUB instances (R790). -/
def subFeed (s : State) (f : CanFrame) : List Nat → State
  | [] => s
  | i :: is =>
    let q := recordQ f.data
    let x : BIn := ⟨qOf (recordV f.data), recordAged q.1 q.2 (subLimit s i)⟩
    subFeed { s with eng := { s.eng with subs := tset none s.eng.subs i (some x) } } f is

def subFeeds (s : State) (bus : Nat) (f : CanFrame) : State := subFeed s f (subTakes s bus (idSrc f.id) (idObj f.id))

/-- A VALUE frame is written by R907. -/
def valueFrame (s : State) (bus : Nat) (f : CanFrame) : State :=
  match remoteAt s bus f with
  | none => s
  | some r =>
    if r.kind != 4 || idSrc f.id == 0xFE then s
    else
      let q := recordQ f.data
      putVal s r.logical (recordV f.data) (recordAged q.1 q.2 (staleMsOf s r.logical)) (0x10 + bus)

/-- VALUE (R919, R790): a class 3 record. -/
def execValue (n : Nat) (s : State) : Res :=
  fin (rxServe s n (fun f => idCls f.id == 3 && !isStatus s n f) (fun f t => subFeeds (valueFrame t n f) n f))

/-- TELEMETRY (R790): a class 5 record. -/
def execTelemetry (n : Nat) (s : State) : Res := .next (rxServe s n (fun f => idCls f.id == 5) (fun f t => subFeeds t n f))

/-! Host commands (R921 to R925, Table 24-8). -/

/-- A SECTION command with start. -/
def isSectStart (s : State) : Bool := match hostCmd s (· == 1) with | none => false | some f => byteAt f 3 == 1

/-- HOST_SECTION_START. -/
def execHostSectionStart (s : State) : Res :=
  if !isSectStart s then .next s
  else fin (hostServe s 1 false (fun f t =>
    let (st, t) := sectStartCmd t (byteAt f 2) 1
    (st, [], t)))

/-- HOST_SECTION_STOP: byte 3 is 0; any other value is answered RANGE. -/
def execHostSectionStop (s : State) : Res :=
  if isSectStart s then .next s
  else fin (hostServe s 1 false (fun f t =>
    if byteAt f 3 != 0 then (stRange, [], t)
    else
      let (st, t) := sectStopCmd t (byteAt f 2)
      (st, [], t)))

/-- HOST_FAULT_ACK. -/
def execHostFaultAck (s : State) : Res :=
  fin (hostServe s 2 true (fun f t =>
    let (st, t) := ackCmd t (byteAt f 2)
    (st, [], t)))

/-- HOST_FOG_ACK. -/
def execHostFogAck (s : State) : Res :=
  fin (hostServe s 3 false (fun _ t =>
    let (st, t) := fogAckCmd t (hostPort t)
    (st, [], t)))

/-- START_FREEZE with 1. -/
def isFreezeSet (s : State) : Bool := match hostCmd s (· == 4) with | none => false | some f => byteAt f 2 == 1

/-- HOST_START_FREEZE_SET. -/
def execHostStartFreezeSet (s : State) : Res :=
  if !isFreezeSet s then .next s else fin (hostServe s 4 false (fun _ t => (stOk, [], hostFreeze t (hostPort t) true)))

/-- HOST_START_FREEZE_RELEASE: byte 2 is 0; other values are answered RANGE. -/
def execHostStartFreezeRelease (s : State) : Res :=
  if isFreezeSet s then .next s
  else fin (hostServe s 4 false (fun f t =>
    if byteAt f 2 != 0 then (stRange, [], t) else (stOk, [], hostFreeze t (hostPort t) false)))

/-- HOST_MOTOR_CLEAR. -/
def execHostMotorClear (s : State) : Res :=
  fin (hostServe s 5 false (fun f t =>
    let (st, t) := motClearCmd t (byteAt f 2)
    (st, [], t)))

/-- HOST_CAL_SET: the reply carries the committed CAL_SET0. -/
def execHostCalSet (s : State) : Res :=
  fin (hostServe s 6 false (fun f t =>
    if !busFd t (hostBus t) then (stRange, [], t)
    else
      let w0 := BitVec.ofNat 40 (bytesNat ((f.data.drop 2).take 5))
      let w1 := BitVec.ofNat 40 (bytesNat ((f.data.drop 7).take 5))
      let (st, t) := calCommit t w0 w1
      (st, wordBytes t.cal.set0, t)))

/-- VALUE_GROUP g (R924). -/
def valueGroup (s : State) (g : Nat) : State :=
  let is := rangeFrom (8 * g) 8
  hostSendV s 0 3 g (is.flatMap (valueRecord s) ++ List.replicate 8 0#8) (is.map (fun i => (7 * (i - 8 * g), i)))

/-- VALUE_READ: VALUE_GROUP in place of a reply, or a refusal. -/
def execValueRead (s : State) : Res :=
  match hostCmd s (· == 7) with
  | none => .next s
  | some f =>
    let (ok, t) := hostRate (rxTake s (hostBus s))
    let g := bytesNat ((f.data.drop 2).take 2)
    if !ok || !isArmed t then .next (hostReply t f stBusy [])
    else if g > 511 || !busFd t (hostBus t) then .next (hostReply t f stRange [])
    else .next (valueGroup t g)

/-- MASTER_ID (Table 24-9). -/
def masterId (s : State) : List Byte :=
  natBytes 1 0x40 ++ natBytes 2 Config.stepping.toNat ++ natBytes 1 s.start.plate ++ wordBytes (Config.serial 0) ++ wordBytes (Config.serial 1) ++
    natBytes 4 s.start.keeperVer ++ natBytes 4 s.start.engineVer ++ natBytes 3 (plateSerial s) ++ natBytes 2 (plateRev s) ++
    natBytes 4 Config.bootRomVersion.toNat ++ [0#8]

/-- IDENT_READ: MASTER_ID in place of a reply; while moored BUSY. -/
def execIdentRead (s : State) : Res :=
  match hostCmd s (· == 8) with
  | none => .next s
  | some f =>
    let (ok, t) := hostRate (rxTake s (hostBus s))
    if !ok || t.start.state == .moored then .next (hostReply t f stBusy [])
    else if !busFd t (hostBus t) then .next (hostReply t f stRange [])
    else .next (hostSend t 0 4 1 (masterId t))

/-- HOST_UNKNOWN_OBJECT (R922). -/
def execHostUnknownObject (s : State) : Res :=
  match hostCmd s (fun o => o == 0 || 8 < o) with
  | none => .next s
  | some f =>
    let (ok, t) := hostRate (rxTake s (hostBus s))
    let st := if !ok || !isArmed t then stBusy else stUnknown
    .next (hostReply t f st [])

/-! Frames to the host (R925, R926). -/

/-- SWITCHES: on-states, then fault-state flags. -/
def switchBytes (s : State) : List Byte :=
  let half := fun (f : SwSt → Bool) => (rangeFrom 0 32).map (fun k =>
    BitVec.ofNat 8 (maskOf ((rangeFrom (8 * k) 8).map (fun n => f (getSw s n)))))
  half (·.on) ++ half (·.fs)

/-- SWITCHES (R925): after a change, at most once per second, and every 10 s. -/
def execSwitches (s : State) : Res :=
  let b := switchBytes s
  let due := match s.syn.swAt with
    | none => true
    | some t => decide (s.now ≥ t + 10000000) || (b != s.syn.swSent && decide (s.now ≥ t + 1000000))
  if !due || s.start.state == .moored || !synServes s (hostBus s) then .next s
  else .next { hostSend s 1 3 0x200 b with syn := { s.syn with swSent := b, swAt := some s.now } }

/-- EVENT_NOTICE (R926): the notices older than 10 s are dropped; the next goes out, at most 4 per second, with its record as read
from bank 2 (Table 8-3). -/
def execEventNotice (s : State) : Res :=
  let live := s.syn.notices.filter (fun x => decide (s.now < x.2 + 10000000))
  let recent := s.syn.noticeAt.filter (fun t => decide (s.now < t + 1000000))
  match live with
  | [] => .next { s with syn := { s.syn with notices := [], noticeAt := recent } }
  | x :: rest =>
    if recent.length ≥ 4 || s.start.state == .moored || !synServes s (hostBus s) then .next { s with syn := { s.syn with notices := live, noticeAt := recent } }
    else
      match recReads s 1 with
      | none => .next { s with syn := { s.syn with notices := live, noticeAt := recent } }
      | some t =>
        let u := hostSend { t with syn := { t.syn with notices := rest, noticeAt := recent ++ [s.now] } } 2 6 0
          (readEntry s.nvm x.1 ++ [0#8])
        fin (entryFaults u x.1)

/-! Recorder objects (R930 to R933). -/

/-- A class 7 frame with an object. -/
def bulkObj (o : Nat) (f : CanFrame) : Bool := idCls f.id == 7 && idObj f.id == o

/-- A REC_READ (R931, R932). -/
def recRead (s : State) (f : CanFrame) : State :=
  let req := idSrc f.id
  let id := byteAt f 0
  let count := bytesNat ((f.data.drop 7).take 2)
  if s.syn.xfer.isSome then recResult s req id 0 stBusy 0
  else if count == 0 || count > 256 || byteAt f 1 > 1 || !busFd s (hostBus s) then recResult s req id 0 stRange 0
  else
    let down := byteAt f 1 == 1
    let start := bytesNat ((f.data.drop 2).take 5)
    let s := if byteAt f 9 % 2 == 1 then requestFlush s else s
    let first := (readLocs s start down 1).head?
    { s with syn := { s.syn with
      xfer := some { req := req, id := id, down := down, next := first, left := count, frame := 0, since := s.now } } }

/-- SYN_REC_READ (R931, R932). -/
def execSynRecRead (s : State) : Res := .next (rxServe s (hostBus s) (bulkObj 0) (fun f t => recRead t f))

/-- SYN_REC_CLEAR (R933). -/
def execSynRecClear (s : State) : Res :=
  .next (rxServe s (hostBus s) (bulkObj 2) (fun f t =>
    let req := idSrc f.id
    if bytesNat ((f.data.drop 1).take 4) != 0x524C4352 then recResult t req (byteAt f 0) 2 stRange 0
    else
      recClear t { port := packW [(7, 0, 1 + hostBus t), (15, 8, req)], id := byteAt f 0 }))

/-- TRANSFER_TIMEOUT (R932). -/
def execTransferTimeout (s : State) : Res :=
  match s.syn.xfer with
  | none => .next s
  | some x => if s.now < x.since + 60000000 then .next s else .next { s with syn := { s.syn with xfer := none } }

end Sys2Proof.Machine
end

