-- ==== Sys2Proof/Machine/Tiles.lean ====
section
/-! DEFINITION. Tiles and keeper (chapters 07 and 12): MINOR_FRAME_TICK, FRAME_TICK_LOST, CHAIN_FRAME_BOUNDARY,
TASK_ENTRY, KEEPER_PACKET_VOTE, VOTE_TIMEOUT, KEEPER_TILE_RETURN, RUNTIME_CHECK_FAIL, MIGRATION_LOAD_END,
SPARE_TILE_TEST_FAIL, SHARED_SRAM_SCRUB. -/

namespace Sys2Proof.Machine

open Sys2Proof

/-- Cycle tables are loaded and the tiles run them: from the end of admission (R296) until a fatal fault or a chip reset (R294, R297). -/
def tilesRun (s : State) : Bool :=
  !s.rst.held && !s.flt.fatal && tablesHeld s

/-- Moored with the tiles' background tests running (R499). -/
def tilesIdle (s : State) : Bool := !s.rst.held && !s.flt.fatal && s.start.state == .moored

/-- MINOR_FRAME_TICK (R265, R292): the PWM island's tick, each 49 ms at the soonest (R293). The first one after admission
starts minor frame 0; one that follows a lost tick is used again once the island is CONFIGURED. -/
def execMinorFrameTick (s : State) : Res :=
  let soon := s.eng.framesOn && !s.eng.chain && decide (s.now < s.eng.lastTick + 49000)
  if !islRuns s 5 || soon then .next s
  else if tilesIdle s then
    let s := if s.eng.lastTick == 0 then s else bgSegments s (bgTiles s)
    .next { s with eng := { s.eng with lastTick := s.now } }
  else if !tilesRun s then .next s
  else if s.eng.chain then
    if (getIsl s 5).st == 2 then fin (nextFrame (causeOff { s with eng := { s.eng with chain := false } } 0x0B)) else .next s
  else fin (nextFrame s)

/-- FRAME_TICK_LOST (R292): no tick within 55 ms; the self-timed chain takes over. -/
def execFrameTickLost (s : State) : Res :=
  if !tilesRun s || !s.eng.framesOn || s.eng.chain || decide (s.now < s.eng.lastTick + 55000) then .next s
  else fin (raiseU { s with eng := { s.eng with chain := true } } 0x0B (pw 9))

/-- CHAIN_FRAME_BOUNDARY (R292): the chain, trimmed to 50 ms ±5 %, starts the next frame. -/
def execChainFrameBoundary (s : State) : Res :=
  if !tilesRun s || !s.eng.chain || decide (s.now < s.eng.lastTick + 47500) then .next s else fin (nextFrame s)

/-- A corrected local SRAM error (R481, Table 12-8): counted; the 64th within one hour fails the runtime check. -/
def corrections (s : State) (p : Nat) : Nat → Bool × State
  | 0 => (false, s)
  | k + 1 =>
    let x := getTile s p
    let at_ := s.now :: (x.corrAt.filter (fun t => decide (s.now < t + 3600000000))).take 63
    let s := setTile s p { x with corr := satAdd 65535 x.corr 1, corrAt := at_ }
    let (f, s) := corrections s p k
    (f || at_.length ≥ 64, s)

/-- The next entry of a tile's frame, and its publication after the last one. -/
def tileEntry (s : State) (t f : Nat) : State :=
  let es := entriesAt s t f
  match es[(getLt s t).ran]? with
  | none => s
  | some e =>
    let s := runEntry s t f e.task
    if (getLt s t).ran ≥ es.length then publishFrame s t f else s

/-- TASK_ENTRY (R266): the next entry of the tile's frame runs, with `corr` corrected SRAM errors on the way. After the
last entry the frame is published. A tile whose spare is being loaded runs nothing. -/
def execTaskEntry (t corr : Nat) (s : State) : Res :=
  match (getLt s t).frame, physOf s t with
  | some f, some p =>
    if !tilesRun s || (getTile s p).st != 0 || !tableOk s t p || (getLt s t).lost || s.prf.loads.any (fun l => l.logical == t) || frameDone s t (getLt s t) then .next s
    else
      let (bad, s) := corrections s p corr
      if bad then fin (tileFail s t) else fin (tileEntry s t f)
  | _, _ => .next s

/-! The keeper vote (Table 7-1). -/

/-- The vote over the copies seen, in the order of their arrival: keeper tile and content; `late`: 50 µs after the second
copy have passed. -/
def vote (s : State) (port : Nat) (late : Bool) (copies : List (Nat × Word)) : State :=
  let vs := voters s
  let cs := copies.filter (fun c => vs.contains c.1)
  let missing := vs.filter (fun k => !cs.any (fun c => c.1 == k))
  match vs.length, cs with
  | 3, [a, b] =>
    if !late then s
    else if a.2 == b.2 then (match missing with | k :: _ => miscompare s k port | [] => s)
    else keeperSplit s
  | 3, [a, b, c] =>
    if a.2 == b.2 then (if c.2 == a.2 then s else miscompare s c.1 port)
    else if c.2 == a.2 then miscompare s b.1 port
    else if c.2 == b.2 then miscompare s a.1 port
    else keeperSplit s
  | 2, [_] => if late then keeperSplit s else s
  | 2, [a, b] => if a.2 == b.2 then s else keeperSplit s
  | _, _ => s

/-- KEEPER_PACKET_VOTE (R260). -/
def execKeeperPacketVote (port : Nat) (copies : List (Nat × Word)) (s : State) : Res :=
  if keeperRuns s then fin (vote s port false copies) else .next s

/-- VOTE_TIMEOUT (R260): a copy is late by 50 µs. -/
def execVoteTimeout (port : Nat) (copies : List (Nat × Word)) (s : State) : Res :=
  if keeperRuns s then fin (vote s port true copies) else .next s

/-- The next major-frame boundary since a keeper tile left has come, and no migration delays it (R262, R289). While no minor frame
has run yet there is no such boundary, and the tile returns at once (DESIGN CHOICE, assumption 45: R262 says nothing of it). -/
def returnDue (s : State) (k : Nat) : Bool :=
  s.prf.loads.isEmpty && (!s.eng.framesOn || (s.eng.frames % 1200 == 0 &&
    (match s.eng.leftIn.getD k none with | none => true | some g => decide (g < s.eng.frames))))

/-- KEEPER_TILE_RETURN (R262, R263, R289); `ok`: the copy succeeds. -/
def execKeeperTileReturn (k : Nat) (ok : Bool) (s : State) : Res :=
  if !keeperRuns s || k ≥ 3 || s.eng.voting.getD k true || s.eng.kRetired.getD k false || !returnDue s k then .next s
  else if ok then
    let s := { s with eng := { s.eng with voting := listSet s.eng.voting k true } }
    fin (keeperCause (addRecord s 0x000C 1 (pw k) 0#40))
  else fin (keeperCause (keeperRetire s k))

/-! Runtime checks and migration. -/

/-- RUNTIME_CHECK_FAIL (R481): before or after the frame's publication, which its last entry brings, so that a frame published has
left nothing to withhold. -/
def execRuntimeCheckFail (t : Nat) (_published : Bool) (s : State) : Res :=
  if !keeperRuns s || !s.prf.done || (getLt s t).lost || s.adm.late.contains t then .next s
  else match s.prf.loads.find? (fun l => l.logical == t) with
    | some l => fin (loadFail s l)
    | none => fin (tileFail s t)

/-- MIGRATION_LOAD_END (R484, R490): the loads run one after another. -/
def execMigrationLoadEnd (s : State) : Res :=
  match s.prf.loads with
  | [] => .next s
  | l :: _ => if keeperRuns s then fin (loadEnd s l) else .next s

/-- SPARE_TILE_TEST_FAIL (R482): a spare that fails is retired. -/
def execSpareTileTestFail (p : Nat) (s : State) : Res :=
  if keeperRuns s && (sparesLeft s).contains p then fin (retireSpare s p) else .next s

/-- The shared SRAM scrub's next packet is due: one each 10 ms. -/
def sramDue (s : State) : Bool := match s.prf.sramScrubAt with | none => true | some t => decide (t + 10000 ≤ s.now)

/-- The scrub asks each bank's arbiter for one packet, in the background; a bank whose last packet still waits gets no second
one. -/
def sramAsks (s : State) (bad : List Nat) : List Nat → State
  | [] => s
  | b :: bs =>
    if arbHas (getArb s b) portSram then sramAsks s bad bs
    else
      let f := { s.prf with sramTurns := s.prf.sramTurns ++ [(b, bad.filter (fun r => r / 128 == b))] }
      sramAsks (modArb { s with prf := f } b (fun a => phaseRequest a portSram true)) bad bs

/-- SHARED_SRAM_SCRUB (R489): one packet of 16 words is due in every bank; `bad` lists the rows that the packets find
uncorrectable, as bank × 128 + row. Each packet takes its turn at its bank (R185), and what it finds follows as its turn ends. -/
def execSharedSramScrub (bad : List Nat) (s : State) : Res :=
  if keeperRuns s && sramDue s then
    let f := { s.prf with sramScrub := (s.prf.sramScrub + 1) % 2048, sramScrubAt := some s.now }
    .next (sramAsks { s with prf := f } bad (rangeFrom 0 8))
  else .next s

end Sys2Proof.Machine
end

