-- ==== Sys2Proof/Machine/Dispatch.lean ====
section
/-! DEFINITION. The dispatch: one arm for each command. -/

namespace Sys2Proof.Machine

open Sys2Proof

def exec (i : Instr) (s : State) : Host.Outcome State Fault Refusal :=
  match i with
  | .resetNAssert => Sys2Proof.Machine.execResetNAssert s
  | .chipResetRelease cause up down xtal => Sys2Proof.Machine.execChipResetRelease cause up down xtal s
  | .vcoreSupervisorTrip => Sys2Proof.Machine.execVcoreSupervisorTrip s
  | .vcorePowerOnReset => Sys2Proof.Machine.execVcorePowerOnReset s
  | .vioSupervisorTrip => Sys2Proof.Machine.execVioSupervisorTrip s
  | .vanaPowerOnReset => Sys2Proof.Machine.execVanaPowerOnReset s
  | .vanaLow => Sys2Proof.Machine.execVanaLow s
  | .vbkupLow => Sys2Proof.Machine.execVbkupLow s
  | .vcoreMeasurement vcore vio vana vbkup => Sys2Proof.Machine.execVcoreMeasurement vcore vio vana vbkup s
  | .speedMonitorReading counts => Sys2Proof.Machine.execSpeedMonitorReading counts s
  | .junctionTempReading codes => Sys2Proof.Machine.execJunctionTempReading codes s
  | .strapChangeCheck levels => Sys2Proof.Machine.execStrapChangeCheck levels s
  | .holdupSense code => Sys2Proof.Machine.execHoldupSense code s
  | .imagePairing => Sys2Proof.Machine.execImagePairing s
  | .holdupGateReading code => Sys2Proof.Machine.execHoldupGateReading code s
  | .proof ms lanes keepers tiles rows sram weak slices => Sys2Proof.Machine.execProof ms lanes keepers tiles rows sram weak slices s
  | .keeperStart badTiles => Sys2Proof.Machine.execKeeperStart badTiles s
  | .plateRead ok erase4k addr4 op4k density => Sys2Proof.Machine.execPlateRead ok erase4k addr4 op4k density s
  | .admission ms => Sys2Proof.Machine.execAdmission ms s
  | .admissionRerun ms => Sys2Proof.Machine.execAdmissionRerun ms s
  | .islandConfiguration => Sys2Proof.Machine.execIslandConfiguration s
  | .firstValuesTimeout => Sys2Proof.Machine.execFirstValuesTimeout s
  | .identityCheckTimeout => Sys2Proof.Machine.execIdentityCheckTimeout s
  | .armed => Sys2Proof.Machine.execArmed s
  | .pfwNFall => Sys2Proof.Machine.execPfwNFall s
  | .pfwNRise => Sys2Proof.Machine.execPfwNRise s
  | .flushStep code => Sys2Proof.Machine.execFlushStep code s
  | .storeQueueRetry code => Sys2Proof.Machine.execStoreQueueRetry code s
  | .holdupLow => Sys2Proof.Machine.execHoldupLow s
  | .operatingSecondsStore => Sys2Proof.Machine.execOperatingSecondsStore s
  | .wordStoreEnd bank differs => Sys2Proof.Machine.execWordStoreEnd bank differs s
  | .erasePulseEnd bank blank => Sys2Proof.Machine.execErasePulseEnd bank blank s
  | .scrubRead found => Sys2Proof.Machine.execScrubRead found s
  | .scrubLate => Sys2Proof.Machine.execScrubLate s
  | .rowRetirement differs => Sys2Proof.Machine.execRowRetirement differs s
  | .persistentPass => Sys2Proof.Machine.execPersistentPass s
  | .nvmTimeout bank => Sys2Proof.Machine.execNvmTimeout bank s
  | .linkWordTransfer dir wrong src head => Sys2Proof.Machine.execLinkWordTransfer dir wrong src head s
  | .spnLaneSwap => Sys2Proof.Machine.execSpnLaneSwap s
  | .spineStall router port => Sys2Proof.Machine.execSpineStall router port s
  | .arbRequest n req back => Sys2Proof.Machine.execArbRequest n req back s
  | .arbRelease n req => Sys2Proof.Machine.execArbRelease n req s
  | .arbTurnStart n => Sys2Proof.Machine.execArbTurnStart n s
  | .arbWithdraw n req => Sys2Proof.Machine.execArbWithdraw n req s
  | .deadCycleEnd n => Sys2Proof.Machine.execDeadCycleEnd n s
  | .arbFreeze n => Sys2Proof.Machine.execArbFreeze n s
  | .arbUnfreeze n => Sys2Proof.Machine.execArbUnfreeze n s
  | .arbDouble n => Sys2Proof.Machine.execArbDouble n s
  | .toggleEvent island toggle more => Sys2Proof.Machine.execToggleEvent island toggle more s
  | .queueEntry island queue entry => Sys2Proof.Machine.execQueueEntry island queue entry s
  | .holdAndFlag island base words => Sys2Proof.Machine.execHoldAndFlag island base words s
  | .probe => Sys2Proof.Machine.execProbe s
  | .crossingTimeout island => Sys2Proof.Machine.execCrossingTimeout island s
  | .resetFlush island => Sys2Proof.Machine.execResetFlush island s
  | .xt40Stop => Sys2Proof.Machine.execXt40Stop s
  | .rcLost => Sys2Proof.Machine.execRcLost s
  | .minorFrameTick => Sys2Proof.Machine.execMinorFrameTick s
  | .frameTickLost => Sys2Proof.Machine.execFrameTickLost s
  | .taskEntry tile corr => Sys2Proof.Machine.execTaskEntry tile corr s
  | .keeperPacketVote port copies => Sys2Proof.Machine.execKeeperPacketVote port copies s
  | .voteTimeout port copies => Sys2Proof.Machine.execVoteTimeout port copies s
  | .keeperTileReturn k ok => Sys2Proof.Machine.execKeeperTileReturn k ok s
  | .runtimeCheckFail tile published => Sys2Proof.Machine.execRuntimeCheckFail tile published s
  | .migrationLoadEnd => Sys2Proof.Machine.execMigrationLoadEnd s
  | .spareTileTestFail phys => Sys2Proof.Machine.execSpareTileTestFail phys s
  | .sharedSramScrub bad => Sys2Proof.Machine.execSharedSramScrub bad s
  | .faultRaise src param unit => Sys2Proof.Machine.execFaultRaise src param unit s
  | .lineBreak src => Sys2Proof.Machine.execLineBreak src s
  | .faultCauseGone src => Sys2Proof.Machine.execFaultCauseGone src s
  | .fltAck seq mask data => Sys2Proof.Machine.execFltAck seq mask data s
  | .fatalResetTimeout => Sys2Proof.Machine.execFatalResetTimeout s
  | .chipResetReaction => Sys2Proof.Machine.execChipResetReaction s
  | .fatalMirrorStore code => Sys2Proof.Machine.execFatalMirrorStore code s
  | .watchdogKick => Sys2Proof.Machine.execWatchdogKick s
  | .wdogExpiry => Sys2Proof.Machine.execWdogExpiry s
  | .beaconToggle => Sys2Proof.Machine.execBeaconToggle s
  | .fltInject seq mask data => Sys2Proof.Machine.execFltInject seq mask data s
  | .collectorSelf param => Sys2Proof.Machine.execCollectorSelf param s
  | .recordCreate code unit a b => Sys2Proof.Machine.execRecordCreate code unit a b s
  | .oldestRecordTimeout => Sys2Proof.Machine.execOldestRecordTimeout s
  | .chunkStart code => Sys2Proof.Machine.execChunkStart code s
  | .chunkStoreEnd => Sys2Proof.Machine.execChunkStoreEnd s
  | .svcSectionStart seq sect => Sys2Proof.Machine.execSvcSectionStart seq sect s
  | .svcSectionStop seq sect op => Sys2Proof.Machine.execSvcSectionStop seq sect op s
  | .autoStartArmed sect => Sys2Proof.Machine.execAutoStartArmed sect s
  | .keeperValueWrite => Sys2Proof.Machine.execKeeperValueWrite s
  | .plateBegin seq slot length => Sys2Proof.Machine.execPlateBegin seq slot length s
  | .flashSectorEraseEnd => Sys2Proof.Machine.execFlashSectorEraseEnd s
  | .plateData seq off bytes => Sys2Proof.Machine.execPlateData seq off bytes s
  | .flashPageProgramEnd => Sys2Proof.Machine.execFlashPageProgramEnd s
  | .plateEnd seq => Sys2Proof.Machine.execPlateEnd seq s
  | .flashTimeout => Sys2Proof.Machine.execFlashTimeout s
  | .sliceTurnBoundary list code code2 ovr lo hi vexc => Sys2Proof.Machine.execSliceTurnBoundary list code code2 ovr lo hi vexc s
  | .sampleProcessing => Sys2Proof.Machine.execSampleProcessing s
  | .pairDisagree pair => Sys2Proof.Machine.execPairDisagree pair s
  | .switchDelayExpiry sw => Sys2Proof.Machine.execSwitchDelayExpiry sw s
  | .ageCheck => Sys2Proof.Machine.execAgeCheck s
  | .rotationFiring => Sys2Proof.Machine.execRotationFiring s
  | .rotationHandover => Sys2Proof.Machine.execRotationHandover s
  | .calibrationEnd slice offs gains ref => Sys2Proof.Machine.execCalibrationEnd slice offs gains ref s
  | .blankTriggerAssert trig => Sys2Proof.Machine.execBlankTriggerAssert trig s
  | .blankTriggerEnd trig => Sys2Proof.Machine.execBlankTriggerEnd trig s
  | .blankLimit value => Sys2Proof.Machine.execBlankLimit value s
  | .excFault src meas => Sys2Proof.Machine.execExcFault src meas s
  | .vrefFault => Sys2Proof.Machine.execVrefFault s
  | .modulatorStall slice => Sys2Proof.Machine.execModulatorStall slice s
  | .mainsZeroCrossing => Sys2Proof.Machine.execMainsZeroCrossing s
  | .missingCrossing => Sys2Proof.Machine.execMissingCrossing s
  | .halfCycleRefresh rms => Sys2Proof.Machine.execHalfCycleRefresh rms s
  | .mainsWindowEnd rms periods pos neg acb => Sys2Proof.Machine.execMainsWindowEnd rms periods pos neg acb s
  | .startRequest ch => Sys2Proof.Machine.execStartRequest ch s
  | .startWithdraw ch => Sys2Proof.Machine.execStartWithdraw ch s
  | .decisionStep => Sys2Proof.Machine.execDecisionStep s
  | .startEnd ch => Sys2Proof.Machine.execStartEnd ch s
  | .startStarved ch => Sys2Proof.Machine.execStartStarved ch s
  | .dipLearned ch => Sys2Proof.Machine.execDipLearned ch s
  | .speedPublication tach => Sys2Proof.Machine.execSpeedPublication tach s
  | .fanLoss dryer => Sys2Proof.Machine.execFanLoss dryer s
  | .hardTrip cause => Sys2Proof.Machine.execHardTrip cause s
  | .hostHeartbeat => Sys2Proof.Machine.execHostHeartbeat s
  | .fogStart => Sys2Proof.Machine.execFogStart s
  | .fanFogAck seq mask data => Sys2Proof.Machine.execFanFogAck seq mask data s
  | .fanFixWrite seq n mask words => Sys2Proof.Machine.execFanFixWrite seq n mask words s
  | .motionPublication edges fb => Sys2Proof.Machine.execMotionPublication edges fb s
  | .proveTimeout ch => Sys2Proof.Machine.execProveTimeout ch s
  | .feedbackLoss ch => Sys2Proof.Machine.execFeedbackLoss ch s
  | .weldedContactor ch => Sys2Proof.Machine.execWeldedContactor ch s
  | .routeStop ch => Sys2Proof.Machine.execRouteStop ch s
  | .purgeExpiry ch => Sys2Proof.Machine.execPurgeExpiry ch s
  | .motClr seq mask data => Sys2Proof.Machine.execMotClr seq mask data s
  | .gateCommand ch => Sys2Proof.Machine.execGateCommand ch s
  | .reversalPauseEnd ch => Sys2Proof.Machine.execReversalPauseEnd ch s
  | .gateTravel ch => Sys2Proof.Machine.execGateTravel ch s
  | .gateStall ch => Sys2Proof.Machine.execGateStall ch s
  | .heatPermitChange ch present => Sys2Proof.Machine.execHeatPermitChange ch present s
  | .heatPermit ch => Sys2Proof.Machine.execHeatPermit ch s
  | .outShort row col => Sys2Proof.Machine.execOutShort row col s
  | .outShortRetry row col => Sys2Proof.Machine.execOutShortRetry row col s
  | .calendarSecond => Sys2Proof.Machine.execCalendarSecond s
  | .scheduleEvaluation => Sys2Proof.Machine.execScheduleEvaluation s
  | .operatingSecondTick => Sys2Proof.Machine.execOperatingSecondTick s
  | .xt32Stop => Sys2Proof.Machine.execXt32Stop s
  | .calSet0Write seq mask words => Sys2Proof.Machine.execCalSet0Write seq mask words s
  | .calSet1Commit seq mask data => Sys2Proof.Machine.execCalSet1Commit seq mask data s
  | .calNow0Read seq count => Sys2Proof.Machine.execCalNow0Read seq count s
  | .lockoutEnd => Sys2Proof.Machine.execLockoutEnd s
  | .mailboxLoad bus => Sys2Proof.Machine.execMailboxLoad bus s
  | .mailboxAbort bus mb => Sys2Proof.Machine.execMailboxAbort bus mb s
  | .frameTransmitted bus tdc => Sys2Proof.Machine.execFrameTransmitted bus tdc s
  | .frameReceived bus id ide fdf brs esi rtr data => Sys2Proof.Machine.execFrameReceived bus id ide fdf brs esi rtr data s
  | .canError bus err data tx dom => Sys2Proof.Machine.execCanError bus err data tx dom s
  | .recoveryDelayEnd bus => Sys2Proof.Machine.execRecoveryDelayEnd bus s
  | .recoveryComplete bus => Sys2Proof.Machine.execRecoveryComplete bus s
  | .canRecover seq n mask data => Sys2Proof.Machine.execCanRecover seq n mask data s
  | .mooredJoin recessive => Sys2Proof.Machine.execMooredJoin recessive s
  | .protocolException bus => Sys2Proof.Machine.execProtocolException bus s
  | .heartbeatSend => Sys2Proof.Machine.execHeartbeatSend s
  | .nodeHeartbeat bus => Sys2Proof.Machine.execNodeHeartbeat bus s
  | .nodeLost bus node => Sys2Proof.Machine.execNodeLost bus node s
  | .plantState => Sys2Proof.Machine.execPlantState s
  | .identReq bus node => Sys2Proof.Machine.execIdentReq bus node s
  | .identity bus => Sys2Proof.Machine.execIdentity bus s
  | .channelCmd kind ch => Sys2Proof.Machine.execChannelCmd kind ch s
  | .channelCmdRepeat => Sys2Proof.Machine.execChannelCmdRepeat s
  | .channelStatus bus => Sys2Proof.Machine.execChannelStatus bus s
  | .value bus => Sys2Proof.Machine.execValue bus s
  | .telemetry bus => Sys2Proof.Machine.execTelemetry bus s
  | .hostSectionStart => Sys2Proof.Machine.execHostSectionStart s
  | .hostSectionStop => Sys2Proof.Machine.execHostSectionStop s
  | .hostFaultAck => Sys2Proof.Machine.execHostFaultAck s
  | .hostFogAck => Sys2Proof.Machine.execHostFogAck s
  | .hostStartFreezeSet => Sys2Proof.Machine.execHostStartFreezeSet s
  | .hostStartFreezeRelease => Sys2Proof.Machine.execHostStartFreezeRelease s
  | .hostMotorClear => Sys2Proof.Machine.execHostMotorClear s
  | .hostCalSet => Sys2Proof.Machine.execHostCalSet s
  | .valueRead => Sys2Proof.Machine.execValueRead s
  | .identRead => Sys2Proof.Machine.execIdentRead s
  | .hostUnknownObject => Sys2Proof.Machine.execHostUnknownObject s
  | .switches => Sys2Proof.Machine.execSwitches s
  | .eventNotice => Sys2Proof.Machine.execEventNotice s
  | .synRecRead => Sys2Proof.Machine.execSynRecRead s
  | .synRecClear => Sys2Proof.Machine.execSynRecClear s
  | .transferTimeout => Sys2Proof.Machine.execTransferTimeout s
  | .frameGap cutFrame => Sys2Proof.Machine.execFrameGap cutFrame s
  | .frameTooLong seq cmd len => Sys2Proof.Machine.execFrameTooLong seq cmd len s
  | .frameCrcError seq cmd => Sys2Proof.Machine.execFrameCrcError seq cmd s
  | .retransmission seq cmd => Sys2Proof.Machine.execRetransmission seq cmd s
  | .hello seq => Sys2Proof.Machine.execHello seq s
  | .auth seq role tag => Sys2Proof.Machine.execAuth seq role tag s
  | .close seq => Sys2Proof.Machine.execClose seq s
  | .sessionIdle => Sys2Proof.Machine.execSessionIdle s
  | .baud seq rate => Sys2Proof.Machine.execBaud seq rate s
  | .baudRevert => Sys2Proof.Machine.execBaudRevert s
  | .read seq addr count poisoned => Sys2Proof.Machine.execRead seq addr count poisoned s
  | .registerWrite seq addr mask bytes => Sys2Proof.Machine.execRegisterWrite seq addr mask bytes s
  | .svcRecRead seq start dir count flush => Sys2Proof.Machine.execSvcRecRead seq start dir count flush s
  | .svcRecClear seq guard => Sys2Proof.Machine.execSvcRecClear seq guard s
  | .fltHistRead seq => Sys2Proof.Machine.execFltHistRead seq s
  | .overrideSet seq kind ch value => Sys2Proof.Machine.execOverrideSet seq kind ch value s
  | .overrideRelease seq kind ch op => Sys2Proof.Machine.execOverrideRelease seq kind ch op s
  | .restart seq => Sys2Proof.Machine.execRestart seq s
  | .imageWriteBegin seq slot engine off words => Sys2Proof.Machine.execImageWriteBegin seq slot engine off words s
  | .imageWriteData seq slot engine off words => Sys2Proof.Machine.execImageWriteData seq slot engine off words s
  | .imageWriteFinal seq slot engine off words => Sys2Proof.Machine.execImageWriteFinal seq slot engine off words s
  | .imageActivate seq pair => Sys2Proof.Machine.execImageActivate seq pair s
  | .valueForce seq n mask words => Sys2Proof.Machine.execValueForce seq n mask words s
  | .forceRelease seq n mask data => Sys2Proof.Machine.execForceRelease seq n mask data s
  | .recCtlFlush seq mask data => Sys2Proof.Machine.execRecCtlFlush seq mask data s
  | .stbFreezeSet seq mask => Sys2Proof.Machine.execStbFreezeSet seq mask s
  | .stbFreezeRelease seq mask => Sys2Proof.Machine.execStbFreezeRelease seq mask s
  | .svcSiteWrite seq k mask words => Sys2Proof.Machine.execSvcSiteWrite seq k mask words s
  | .svcKeyWrite seq r g w mask words => Sys2Proof.Machine.execSvcKeyWrite seq r g w mask words s
  | .arbCtlWrite seq n mask data => Sys2Proof.Machine.execArbCtlWrite seq n mask data s
  | .w1cClear seq addr mask data => Sys2Proof.Machine.execW1cClear seq addr mask data s
  | .vbkupPowerOn => Sys2Proof.Machine.execVbkupPowerOn s
  | .chainFrameBoundary => Sys2Proof.Machine.execChainFrameBoundary s
  | .pairDisagreeEnd pair => Sys2Proof.Machine.execPairDisagreeEnd pair s
  | .pwmPeriodBoundary kind ch => Sys2Proof.Machine.execPwmPeriodBoundary kind ch s
  | .busIntegration bus => Sys2Proof.Machine.execBusIntegration bus s
  | .unknownCommand seq cmd => Sys2Proof.Machine.execUnknownCommand seq cmd s
  | .boundaryScanExtest => Sys2Proof.Machine.execBoundaryScanExtest s
  | .busLoadWindow bus => Sys2Proof.Machine.execBusLoadWindow bus s

end Sys2Proof.Machine
end

