-- ==== Sys2Proof/Machine/Pins.lean ====
section
/-! DEFINITION. What the balls do, derived from State: the outputs by the columns of Table 2-6 (R52 to R55), the inputs that are
acted on, the pulls, and what reaches the AIN pins through the crosspoint (Table 15-1). -/

namespace Sys2Proof.Machine

open Sys2Proof

/-- What the driver of an output ball does. An open-drain ball is `low` while it sinks and `hiZ` while it is released. `pwm`
holds the active level for `h` of `n` MAIN periods. `serial` follows a unit's traffic and idles high. `shift` drives in Shift-DR
and Shift-IR only. `scan` is what a boundary-scan cell holds. `analog` is an analog output in service. -/
inductive Drive where
  | hiZ
  | low
  | high
  | pwm (h n : Nat) (activeLow : Bool)
  | serial
  | shift
  | scan
  | analog
  deriving DecidableEq, Repr

/-- The output balls of Table 2-6. -/
inductive OutBall where
  | vrefOut
  | trip
  | tsw (n : Nat)
  | faultN
  | beacon
  | shutdownN
  | canTxd (n : Nat)
  | canStb (n : Nat)
  | svcTxd
  | svcDe
  | tdo
  | heatDem (n : Nat)
  | heatEn (n : Nat)
  | gateOpn (n : Nat)
  | gateCls (n : Nat)
  | fanPwm (n : Nat)
  | motRun (n : Nat)
  | pltCsN
  | pltSck
  | pltIo (n : Nat)
  deriving DecidableEq, Repr

def levelOf (b : Bool) : Drive := if b then .high else .low

/-- An open-drain ball sinks or is released. -/
def sinkIf (b : Bool) : Drive := if b then .low else .hiZ

/-! States of Table 2-6. -/

/-- VIO is below its range, as its supervisor holds the chip reset (R82). The supervisor's range stands for VIO's, and no command
says that VIO has come back before the release (DESIGN CHOICE, assumption 44). -/
def vioOut (s : State) : Bool := s.rst.held && s.rst.holders.contains 3

/-- EXTEST holds the balls (R441): in any other state the instruction acts as BYPASS. -/
def scanHolds (s : State) : Bool := s.rst.extest && !s.rst.held && !s.flt.fatal && isMoored s

/-! Fans. -/

/-- The FAN_SAFE level, which an open FAN_SAFE strap leaves to the board's pull (R62, R77). -/
def fanSafe (s : State) : Drive :=
  if s.straps.isOpen.getD 7 false then .hiZ else levelOf (s.straps.latched.getD 7 false)

/-- A fan pin at its active or inactive level. -/
def fanStatic (low on : Bool) : Drive := levelOf (on != low)

/-- FANn_PWM at a fatal fault: the hard-trip level for the loaded fan group, else FAN_SAFE (R35). -/
def fanFatal (s : State) (n : Nat) : Drive :=
  if tripFan s n then fanStatic (s.fan.groupLow.contains n) s.fan.full else fanSafe s

/-- FANn_PWM while its unit runs (R677). -/
def fanDrive (s : State) (n : Nat) : Drive :=
  match (getFan s n).pin, fanCfg s n with
  | some h, some c =>
    if h == 0 then fanStatic c.pol false else if h ≥ fanN s n then fanStatic c.pol true else .pwm h (fanN s n) c.pol
  | _, _ => fanSafe s

/-! The other plant outputs: their safe rank releases them (R21, R46, R54). -/

/-- HEATn_DEM (R739). -/
def heatDemDrive (s : State) (n : Nat) : Drive :=
  let h := (getHtd s n).pin
  if safeRank s || h == 0 then .low else if h ≥ 40000 then .high else .pwm h 40000 false

/-! The plate port (R55, R63). -/

/-- An access of the flash that lasts: an erase or program and the polling of its status (R519). -/
def pltAccessing (s : State) : Bool := s.plt.write.op.isSome && !s.rst.held && !s.flt.fatal

/-- PLT_IOn during an access, and Hi-Z otherwise: IO0 sends, IO1 receives; IO2 and IO3 are high in single-I/O mode. -/
def pltIoDrive (s : State) (n : Nat) : Drive :=
  if !pltAccessing s then .hiZ
  else if n == 0 then .serial
  else if n ≥ 2 && !(pltAccess s.straps).quad then .high
  else .hiZ

/-! The CAN balls. -/

/-- CANn_STB is low (R866): the controller is configured, its island CONFIGURED, and MAIN not on the RC oscillator. -/
def stbLow (s : State) (n : Nat) : Bool :=
  (getCan s n).cfg.isSome && (getIsl s (n + 1)).st == 2 && !s.isl.onRc && s.start.state != .bootService

/-- CANn_TXD carries frames: the controller takes part in the bus, its island runs on the crystal (R79, R243). -/
def txdLive (s : State) (n : Nat) : Bool :=
  onBus (getCan s n) && (getIsl s (n + 1)).st == 2 && !s.isl.onRc && s.start.state != .bootService

/-! Table 2-6. -/

/-- The Reset column. -/
def resetDrive : OutBall → Drive
  | .vrefOut | .trip => .analog
  | .faultN | .beacon | .shutdownN => .low
  | .tsw _ | .canTxd _ | .canStb _ | .svcTxd | .svcDe | .tdo | .heatDem _ | .heatEn _ | .gateOpn _ | .gateCls _ | .fanPwm _
  | .motRun _ | .pltCsN | .pltSck | .pltIo _ => .hiZ

/-- The Fatal column (R53). -/
def fatalDrive (s : State) : OutBall → Drive
  | .vrefOut | .trip => .analog
  | .tsw n => sinkIf (tswSinks s n)
  | .faultN | .beacon | .shutdownN | .heatDem _ | .svcDe | .pltSck => .low
  | .canTxd _ | .canStb _ | .pltCsN => .high
  | .svcTxd => .serial
  | .tdo => .shift
  | .fanPwm n => fanFatal s n
  | .heatEn _ | .gateOpn _ | .gateCls _ | .motRun _ | .pltIo _ => .hiZ

/-- The Moored column, and the units' own rules while the GW64 runs. What the Moored column says of the plant outputs follows from
their safe rank. A reply of the service port takes no time in the model, so SVC_DE is low between commands. -/
def liveDrive (s : State) : OutBall → Drive
  | .vrefOut | .trip => .analog
  | .tsw n => sinkIf (tswSinks s n)
  | .faultN => sinkIf (faultNLow s.flt)
  | .beacon => levelOf (beaconLevel s)
  | .shutdownN => sinkIf s.fan.trip
  | .canTxd n => if txdLive s n then .serial else .high
  | .canStb n => if stbLow s n then .low else .high
  | .svcTxd => .serial
  | .svcDe => .low
  | .tdo => .shift
  | .heatDem n => heatDemDrive s n
  | .heatEn n => sinkIf (heatEnSinks s n && !shortAt s (7 + n) 17)
  | .gateOpn n => sinkIf (!safeRank s && (getGat s n).drive == 1 && !shortAt s (7 + n / 2) (19 + 2 * (n % 2)))
  | .gateCls n => sinkIf (!safeRank s && (getGat s n).drive == 2 && !shortAt s (7 + n / 2) (20 + 2 * (n % 2)))
  | .fanPwm n => fanDrive s n
  | .motRun n => sinkIf (!safeRank s && sinks (getMot s n).st && !shortAt s (18 + n / 7) (3 * (n % 7) + 1))
  | .pltCsN => levelOf (!pltAccessing s)
  | .pltSck => if pltAccessing s then .serial else .low
  | .pltIo n => pltIoDrive s n

/-- What EXTEST leaves of a ball: FAULT_N and SHUTDOWN_N stay low where they are low (R441). -/
def scanDrive (s : State) (b : OutBall) : Drive :=
  match b with
  | .faultN => if faultNLow s.flt then .low else .scan
  | .shutdownN => if s.fan.trip then .low else .scan
  | .vrefOut | .trip => .analog
  | .tdo => .shift
  | _ => .scan

/-- The island that drives a ball (Table 6-1). -/
def islOf : OutBall → Option Nat
  | .canTxd n | .canStb n => some (1 + n)
  | .heatDem _ | .fanPwm _ => some 5
  | .svcTxd | .svcDe => some 8
  | .pltCsN | .pltSck | .pltIo _ => some 9
  | .vrefOut | .trip | .tsw _ | .faultN | .beacon | .shutdownN | .tdo | .heatEn _ | .gateOpn _ | .gateCls _ | .motRun _ => none

/-- The ball's island is STOPPED: its asynchronous reset holds the ball (Table 6-7 step 3, R242, R243). -/
def islDown (s : State) (b : OutBall) : Bool :=
  match islOf b with
  | none => false
  | some i => (getIsl s i).st == 3

/-- The driver of an output ball (R52, R53, R82): undriven without VIO, by the Fatal column from the fatal fault on even while the
reset is held, by the Reset column while it is held. A STOPPED island's balls take the Reset column in every state (R240, R242),
but EXTEST holds them first. -/
def ballDrive (s : State) (b : OutBall) : Drive :=
  if vioOut s then (match b with | .vrefOut | .trip => .analog | _ => .hiZ)
  else if scanHolds s then scanDrive s b
  else if !s.rst.held && islDown s b then resetDrive b
  else if s.flt.fatal then fatalDrive s b
  else if s.rst.held then resetDrive b
  else liveDrive s b

/-! Levels. -/

/-- The internal pull of an output ball (Table 2-6). -/
def ballPull : OutBall → Option Bool
  | .canTxd _ | .canStb _ | .svcTxd | .pltCsN | .pltIo _ => some true
  | .svcDe | .heatDem _ | .pltSck => some false
  | .vrefOut | .trip | .tsw _ | .faultN | .beacon | .shutdownN | .tdo | .heatEn _ | .gateOpn _ | .gateCls _ | .fanPwm _
  | .motRun _ => none

/-- The pull that the board gives a ball: FANn_PWM to the level that FAN_SAFE states, SHUTDOWN_N to the VIO rail alone, whose loss
reads as an asserted ball (R62, R68). -/
def boardPull (s : State) : OutBall → Option Bool
  | .fanPwm _ => if s.straps.isOpen.getD 7 false then none else s.straps.latched[7]?
  | .shutdownN => some (!vioOut s)
  | _ => none

/-- The steady level of a ball, none where it has none of its own or none that the pulls give: internal pulls are present while VIO
is in range (R82). -/
def ballLevel (s : State) (b : OutBall) : Option Bool :=
  match ballDrive s b with
  | .low => some false
  | .high => some true
  | .hiZ => if (ballPull b).isSome && !vioOut s then ballPull b else boardPull s b
  | .pwm _ _ _ | .serial | .shift | .scan | .analog => none

/-! The AIN pins (R563, Table 15-1). -/

/-- What a closed crosspoint switch brings to a pin: a slice's input, a current out of the pin's ball in nA (negative into it), a
voltage in mV, VANA, or AGND. -/
inductive AinDrive where
  | input (slice : Nat)
  | current (nA : Int)
  | volts (mV : Nat)
  | vana
  | agnd
  deriving DecidableEq, Repr

/-- A side of an excitation source (Table 15-1); `hot` is PIN_P in positive polarity and PIN_N in negative polarity. -/
def excDrive (c : ExcCfg) (hot : Bool) : AinDrive :=
  match c.mode with
  | 0 => .current (if hot then c.iUa * 1000 else -(c.iUa * 1000))
  | 1 => if hot then .volts 2500 else .agnd
  | 2 => if hot then .vana else .agnd
  | _ => .volts (if hot then 3000 else 500)

/-- The burn-out current of a BURNOUT code, in nA. -/
def burnNa (code : Nat) : Int := [0, 500, 2000, 10000].getD code 0

/-- What one closed switch brings. -/
def portDrive (s : State) (x : XPort) : List AinDrive :=
  let exc := fun (e : Nat) (n : Bool) => ((s.plt.plate.excs.filter (·.src == e)).take 1).map (fun c => excDrive c (excNegative s c == n))
  match x with
  | .sliceP n | .sliceN n => [.input n]
  | .excP e => exc e false
  | .excN e => exc e true
  | .bias b =>
    ((s.plt.plate.biases.filter (·.bias == b)).take 1).map (fun c => .volts ([500, 1250, 2500].getD c.level 0))
  | .burnOut _ k => [.current (burnNa k)]
  | .burnIn _ k => [.current (-(burnNa k))]

/-- What drives or reads pin AINn: nothing while the front end does not run (R606, Table 2-6), no excitation or burn-out current while CONV
does not (Table 6-10). -/
def ainDrives (s : State) (n : Nat) : List AinDrive :=
  if convOn s then (s.fe.conns.filter (·.pin == n)).flatMap (fun x => portDrive s x.port) else []

end Sys2Proof.Machine
end

