-- ==== Sys2Proof/Machine/Footprint.lean ====
section
/-! DEFINITION. Which units each command may write, which commands may reset the chip, and which may store in the array or the
flash: the frames that the statements use. A unit is one structure of the state. -/

namespace Sys2Proof.Machine

open Sys2Proof

/-- The units of the state; `free` is the model's own counter. -/
inductive Part where
  | free | rst | straps | pwr | nvm | flt | recr | start | prf | plt | adm | eng
  | spn | isl | fe | sw | mns | stb | fan | mot | gat | htd | cal | can
  | syn | svc
  deriving DecidableEq, Repr

/-- The unit is the same in both states. -/
def Part.same (p : Part) (t s : State) : Prop :=
  match p with
  | .free => t.free = s.free
  | .rst => t.rst = s.rst
  | .straps => t.straps = s.straps
  | .pwr => t.pwr = s.pwr
  | .nvm => t.nvm = s.nvm
  | .flt => t.flt = s.flt
  | .recr => t.recr = s.recr
  | .start => t.start = s.start
  | .prf => t.prf = s.prf
  | .plt => t.plt = s.plt
  | .adm => t.adm = s.adm
  | .eng => t.eng = s.eng
  | .spn => t.spn = s.spn
  | .isl => t.isl = s.isl
  | .fe => t.fe = s.fe
  | .sw => t.sw = s.sw
  | .mns => t.mns = s.mns
  | .stb => t.stb = s.stb
  | .fan => t.fan = s.fan
  | .mot => t.mot = s.mot
  | .gat => t.gat = s.gat
  | .htd => t.htd = s.htd
  | .cal => t.cal = s.cal
  | .can => t.can = s.can
  | .syn => t.syn = s.syn
  | .svc => t.svc = s.svc

/-- The units that `settle` may write. -/
def settleParts : List Part := [.flt, .recr, .start, .eng, .spn, .isl, .fe, .sw, .stb, .fan, .mot, .gat, .htd]

/-- The families of commands. -/
inductive Family where
  | supply | start | memory | fabric | front | plant | links | service
  deriving DecidableEq, Repr

/-- The family of a command. -/
def family (c : Instr) : Family :=
  match c with
  | .resetNAssert | .chipResetRelease _ _ _ _ | .vcoreSupervisorTrip | .vcorePowerOnReset | .vioSupervisorTrip
  | .vanaPowerOnReset | .vanaLow | .vcoreMeasurement _ _ _ _ | .speedMonitorReading _ | .junctionTempReading _
  | .strapChangeCheck _ | .holdupSense _ | .pfwNFall | .pfwNRise | .outShort _ _ | .outShortRetry _ _ | .boundaryScanExtest =>
    .supply
  | .vbkupLow | .hostHeartbeat | .calendarSecond | .scheduleEvaluation | .operatingSecondTick | .xt32Stop | .mailboxLoad _
  | .mailboxAbort _ _ | .frameTransmitted _ _ | .frameReceived _ _ _ _ _ _ _ _ | .canError _ _ _ _ _ | .recoveryDelayEnd _
  | .recoveryComplete _ | .mooredJoin _ | .protocolException _ | .heartbeatSend | .nodeHeartbeat _ | .nodeLost _ _
  | .plantState | .identReq _ _ | .identity _ | .channelCmd _ _ | .channelCmdRepeat | .channelStatus _ | .value _
  | .telemetry _ | .hostSectionStart | .hostSectionStop | .hostFaultAck | .hostFogAck | .hostStartFreezeSet
  | .hostStartFreezeRelease | .hostMotorClear | .hostCalSet | .valueRead | .identRead | .hostUnknownObject | .switches
  | .eventNotice | .synRecRead | .synRecClear | .transferTimeout | .vbkupPowerOn | .busIntegration _ | .busLoadWindow _ =>
    .links
  | .imagePairing | .holdupGateReading _ | .proof _ _ _ _ _ _ _ _ | .keeperStart _ | .plateRead _ _ _ _ _ | .admission _
  | .admissionRerun _ | .islandConfiguration | .firstValuesTimeout | .identityCheckTimeout | .armed | .autoStartArmed _
  | .keeperValueWrite | .startRequest _ | .startWithdraw _ | .decisionStep | .startEnd _ | .startStarved _ | .dipLearned _ =>
    .start
  | .flushStep _ | .storeQueueRetry _ | .holdupLow | .operatingSecondsStore | .wordStoreEnd _ _ | .erasePulseEnd _ _
  | .scrubRead _ | .scrubLate | .rowRetirement _ | .persistentPass | .nvmTimeout _ | .faultRaise _ _ _ | .lineBreak _
  | .faultCauseGone _ | .fatalResetTimeout | .chipResetReaction | .fatalMirrorStore _ | .watchdogKick | .wdogExpiry
  | .beaconToggle | .collectorSelf _ | .recordCreate _ _ _ _ | .oldestRecordTimeout | .chunkStart _ | .chunkStoreEnd
  | .plateBegin _ _ _ | .flashSectorEraseEnd | .plateData _ _ _ | .flashPageProgramEnd | .plateEnd _ | .flashTimeout =>
    .memory
  | .linkWordTransfer _ _ _ _ | .spnLaneSwap | .spineStall _ _ | .arbRequest _ _ _ | .arbRelease _ _ | .arbTurnStart _
  | .arbWithdraw _ _ | .deadCycleEnd _ | .arbFreeze _ | .arbUnfreeze _ | .arbDouble _ | .toggleEvent _ _ _
  | .queueEntry _ _ _ | .holdAndFlag _ _ _ | .probe | .crossingTimeout _ | .resetFlush _ | .xt40Stop | .rcLost
  | .minorFrameTick | .frameTickLost | .taskEntry _ _ | .keeperPacketVote _ _ | .voteTimeout _ _ | .keeperTileReturn _ _
  | .runtimeCheckFail _ _ | .migrationLoadEnd | .spareTileTestFail _ | .sharedSramScrub _ | .chainFrameBoundary => .fabric
  | .fltAck _ _ _ | .fltInject _ _ _ | .svcSectionStart _ _ | .svcSectionStop _ _ _ | .fanFogAck _ _ _
  | .fanFixWrite _ _ _ _ | .motClr _ _ _ | .calSet0Write _ _ _ | .calSet1Commit _ _ _ | .calNow0Read _ _ | .lockoutEnd
  | .canRecover _ _ _ _ | .frameGap _ | .frameTooLong _ _ _ | .frameCrcError _ _ | .retransmission _ _ | .hello _
  | .auth _ _ _ | .close _ | .sessionIdle | .baud _ _ | .baudRevert | .read _ _ _ _ | .registerWrite _ _ _ _
  | .svcRecRead _ _ _ _ _ | .svcRecClear _ _ | .fltHistRead _ | .overrideSet _ _ _ _ | .overrideRelease _ _ _ _
  | .restart _ | .imageWriteBegin _ _ _ _ _ | .imageWriteData _ _ _ _ _ | .imageWriteFinal _ _ _ _ _ | .imageActivate _ _
  | .valueForce _ _ _ _ | .forceRelease _ _ _ _ | .recCtlFlush _ _ _ | .stbFreezeSet _ _ | .stbFreezeRelease _ _
  | .svcSiteWrite _ _ _ _ | .svcKeyWrite _ _ _ _ _ _ | .arbCtlWrite _ _ _ _ | .w1cClear _ _ _ _ | .unknownCommand _ _ =>
    .service
  | .sliceTurnBoundary _ _ _ _ _ _ _ | .sampleProcessing | .pairDisagree _ | .switchDelayExpiry _ | .ageCheck
  | .rotationFiring | .rotationHandover | .calibrationEnd _ _ _ _ | .blankTriggerAssert _ | .blankTriggerEnd _
  | .blankLimit _ | .excFault _ _ | .vrefFault | .modulatorStall _ | .pairDisagreeEnd _ => .front
  | .mainsZeroCrossing | .missingCrossing | .halfCycleRefresh _ | .mainsWindowEnd _ _ _ _ _ | .speedPublication _
  | .fanLoss _ | .hardTrip _ | .fogStart | .motionPublication _ _ | .proveTimeout _ | .feedbackLoss _ | .weldedContactor _
  | .routeStop _ | .purgeExpiry _ | .gateCommand _ | .reversalPauseEnd _ | .gateTravel _ | .gateStall _
  | .heatPermitChange _ _ | .heatPermit _ | .pwmPeriodBoundary _ _ => .plant

/-- The units that a command may write when it does not reset the chip. -/
def mayWrite (c : Instr) : List Part :=
  match c with
  | .resetNAssert | .vcoreSupervisorTrip | .vcorePowerOnReset | .vioSupervisorTrip | .vanaPowerOnReset | .fatalResetTimeout
  | .chipResetReaction => []
  | .chipResetRelease _ _ _ _ =>
    [.free, .rst, .straps, .pwr, .nvm, .flt, .recr, .start, .prf, .plt, .eng, .spn, .isl, .sw, .stb, .cal, .can, .svc]
  | .vanaLow | .vcoreMeasurement _ _ _ _ | .junctionTempReading _ | .holdupSense _ | .faultCauseGone _ | .outShort _ _ =>
    settleParts ++ [.pwr]
  | .vbkupLow => settleParts ++ [.pwr, .cal]
  | .speedMonitorReading _ => settleParts ++ [.free, .pwr]
  | .strapChangeCheck _ => [.straps, .recr, .eng, .sw]
  | .imagePairing => [.flt, .recr, .start, .eng, .spn, .isl, .sw, .fan]
  | .holdupGateReading _ => [.pwr, .nvm, .recr, .start, .prf, .spn]
  | .proof _ _ _ _ _ _ _ _ => [.pwr, .nvm, .flt, .recr, .start, .prf, .eng, .spn, .isl, .sw]
  | .keeperStart _ => settleParts ++ [.free, .pwr, .nvm, .prf, .can]
  | .plateRead _ _ _ _ _ => settleParts ++ [.pwr, .nvm, .prf, .plt, .can]
  | .admission _ | .admissionRerun _ => settleParts ++ [.pwr, .nvm, .prf, .plt, .adm, .can]
  | .islandConfiguration | .eventNotice => settleParts ++ [.pwr, .nvm, .prf, .can, .syn]
  | .firstValuesTimeout | .holdupLow | .arbTurnStart _ | .arbDouble _ | .queueEntry _ _ _ | .rcLost | .frameTickLost
  | .keeperPacketVote _ _ | .voteTimeout _ _ | .keeperTileReturn _ _ | .lineBreak _ | .watchdogKick | .wdogExpiry
  | .autoStartArmed _ | .keeperValueWrite | .sliceTurnBoundary _ _ _ _ _ _ _ | .sampleProcessing | .pairDisagree _
  | .switchDelayExpiry _ | .ageCheck | .rotationFiring | .blankTriggerAssert _ | .blankLimit _ | .excFault _ _ | .vrefFault
  | .decisionStep | .startEnd _ | .startStarved _ | .fanLoss _ | .hardTrip _ | .fogStart | .motionPublication _ _
  | .proveTimeout _ | .feedbackLoss _ | .weldedContactor _ | .routeStop _ | .purgeExpiry _ | .gateCommand _
  | .reversalPauseEnd _ | .gateTravel _ | .gateStall _ | .heatPermitChange _ _ | .heatPermit _ | .pairDisagreeEnd _ =>
    settleParts
  | .identityCheckTimeout | .frameReceived _ _ _ _ _ _ _ _ | .canError _ _ _ _ _ | .nodeLost _ _ | .identity _
  | .hostSectionStart | .hostSectionStop | .hostFaultAck | .hostFogAck | .hostStartFreezeSet | .hostStartFreezeRelease
  | .hostMotorClear => settleParts ++ [.can, .syn]
  | .armed => settleParts ++ [.pwr, .nvm, .prf, .adm, .can, .syn]
  | .pfwNFall | .pfwNRise => settleParts ++ [.pwr, .nvm, .prf, .plt, .can, .svc]
  | .flushStep _ | .storeQueueRetry _ | .erasePulseEnd _ _ | .arbRelease _ _ | .svcRecClear _ _ =>
    settleParts ++ [.pwr, .nvm, .prf, .can, .svc]
  | .operatingSecondsStore | .persistentPass | .migrationLoadEnd => settleParts ++ [.pwr, .nvm, .prf]
  | .wordStoreEnd _ _ => settleParts ++ [.free, .pwr, .nvm, .prf, .can, .syn, .svc]
  | .scrubRead _ | .nvmTimeout _ => settleParts ++ [.free, .pwr, .nvm, .prf, .can, .svc]
  | .scrubLate | .faultRaise _ _ _ | .rotationHandover | .dipLearned _ => settleParts ++ [.nvm]
  | .rowRetirement _ | .lockoutEnd | .svcRecRead _ _ _ _ _ | .imageWriteBegin _ _ _ _ _ | .imageWriteData _ _ _ _ _
  | .imageWriteFinal _ _ _ _ _ | .imageActivate _ _ => settleParts ++ [.pwr, .nvm, .prf, .svc]
  | .linkWordTransfer _ _ _ _ | .spineStall _ _ | .runtimeCheckFail _ _ | .spareTileTestFail _ | .calibrationEnd _ _ _ _
  | .modulatorStall _ => settleParts ++ [.pwr, .nvm, .prf, .adm]
  | .spnLaneSwap | .arbUnfreeze _ => [.pwr, .nvm, .recr, .prf, .spn, .fe]
  | .arbRequest _ _ _ | .arbWithdraw _ _ => [.pwr, .nvm, .flt, .recr, .start, .prf, .eng, .spn, .isl, .sw, .stb, .can, .svc]
  | .deadCycleEnd _ => [.pwr, .nvm, .flt, .recr, .start, .prf, .eng, .spn, .isl, .sw, .can, .svc]
  | .arbFreeze _ => [.spn, .fe]
  | .toggleEvent _ _ _ | .holdAndFlag _ _ _ => [.isl]
  | .probe | .crossingTimeout _ | .resetFlush _ | .halfCycleRefresh _ =>
    settleParts ++ [.pwr, .nvm, .prf, .plt, .mns, .can, .svc]
  | .xt40Stop | .hostHeartbeat | .recoveryDelayEnd _ | .recoveryComplete _ | .channelStatus _ | .value _
  | .busIntegration _ | .busLoadWindow _ => settleParts ++ [.can]
  | .minorFrameTick | .chainFrameBoundary => settleParts ++ [.prf]
  | .taskEntry _ _ => settleParts ++ [.pwr, .nvm, .prf, .adm, .can]
  | .sharedSramScrub _ => [.prf, .spn]
  | .fltAck _ _ _ | .fltInject _ _ _ | .fanFogAck _ _ _ | .fanFixWrite _ _ _ _ | .motClr _ _ _ | .calSet0Write _ _ _
  | .calSet1Commit _ _ _ | .canRecover _ _ _ _ | .registerWrite _ _ _ _ | .valueForce _ _ _ _ | .forceRelease _ _ _ _
  | .recCtlFlush _ _ _ | .stbFreezeSet _ _ | .stbFreezeRelease _ _ | .svcSiteWrite _ _ _ _ | .svcKeyWrite _ _ _ _ _ _
  | .arbCtlWrite _ _ _ _ | .w1cClear _ _ _ _ => settleParts ++ [.straps, .pwr, .nvm, .prf, .cal, .can, .svc]
  | .fatalMirrorStore _ | .chunkStart _ => [.pwr, .nvm, .recr, .prf, .spn]
  | .beaconToggle => [.flt]
  | .collectorSelf _ => [.flt, .recr, .start, .eng, .spn, .isl, .sw]
  | .recordCreate _ _ _ _ | .oldestRecordTimeout => [.recr]
  | .chunkStoreEnd => [.free, .pwr, .nvm, .flt, .recr, .start, .prf, .eng, .spn, .isl, .fe, .sw, .can, .syn, .svc]
  | .svcSectionStart _ _ | .svcSectionStop _ _ _ | .frameTooLong _ _ _ | .retransmission _ _ | .baud _ _ | .fltHistRead _
  | .overrideSet _ _ _ _ | .overrideRelease _ _ _ _ | .restart _ | .unknownCommand _ _ => settleParts ++ [.svc]
  | .plateBegin _ _ _ | .plateData _ _ _ | .plateEnd _ | .close _ | .sessionIdle => settleParts ++ [.plt, .svc]
  | .flashSectorEraseEnd => settleParts ++ [.plt]
  | .flashPageProgramEnd => settleParts ++ [.nvm, .plt, .svc]
  | .flashTimeout => settleParts ++ [.free, .plt, .svc]
  | .blankTriggerEnd _ => [.fe]
  | .mainsZeroCrossing | .missingCrossing => [.mns]
  | .mainsWindowEnd _ _ _ _ _ => settleParts ++ [.mns]
  | .startRequest _ => [.stb]
  | .startWithdraw _ => [.flt, .recr, .stb]
  | .speedPublication _ => settleParts ++ [.free]
  | .outShortRetry _ _ => [.pwr]
  | .calendarSecond | .scheduleEvaluation | .xt32Stop | .vbkupPowerOn => settleParts ++ [.cal]
  | .operatingSecondTick => [.cal]
  | .calNow0Read _ _ | .read _ _ _ _ => settleParts ++ [.free, .nvm, .cal, .svc]
  | .mailboxLoad _ => [.pwr, .nvm, .flt, .recr, .start, .prf, .eng, .spn, .isl, .sw, .can, .syn]
  | .mailboxAbort _ _ => [.spn, .can]
  | .frameTransmitted _ _ => [.flt, .recr, .start, .eng, .spn, .isl, .sw, .can, .syn]
  | .mooredJoin _ => [.flt, .recr, .spn, .can]
  | .protocolException _ => [.can]
  | .heartbeatSend | .nodeHeartbeat _ | .plantState | .identReq _ _ | .channelCmd _ _ | .channelCmdRepeat | .valueRead
  | .identRead | .hostUnknownObject | .switches => [.can, .syn]
  | .telemetry _ => [.eng, .can]
  | .hostCalSet => settleParts ++ [.cal, .can, .syn]
  | .synRecRead => [.recr, .can, .syn]
  | .synRecClear => [.pwr, .nvm, .recr, .prf, .spn, .can, .svc]
  | .transferTimeout => [.syn]
  | .frameGap _ | .frameCrcError _ _ | .baudRevert => [.svc]
  | .hello _ => settleParts ++ [.free, .svc]
  | .auth _ _ _ => settleParts ++ [.pwr, .nvm, .prf, .plt, .svc]
  | .pwmPeriodBoundary _ _ => [.fan, .htd]
  | .boundaryScanExtest => [.rst]

/-- The command may reset the chip (R86, R354, R361). -/
def mayReset (c : Instr) : Bool :=
  match c with
  | .resetNAssert | .vcoreSupervisorTrip | .vcorePowerOnReset | .vioSupervisorTrip | .vanaPowerOnReset
  | .proof _ _ _ _ _ _ _ _ | .flushStep _ | .storeQueueRetry _ | .wordStoreEnd _ _ | .keeperPacketVote _ _
  | .voteTimeout _ _ | .faultRaise _ _ _ | .lineBreak _ | .fltAck _ _ _ | .fatalResetTimeout | .chipResetReaction
  | .wdogExpiry | .fltInject _ _ _ | .collectorSelf _ | .chunkStoreEnd | .fanFogAck _ _ _ | .fanFixWrite _ _ _ _
  | .motClr _ _ _ | .calSet0Write _ _ _ | .calSet1Commit _ _ _ | .canRecover _ _ _ _ | .registerWrite _ _ _ _
  | .valueForce _ _ _ _ | .forceRelease _ _ _ _ | .recCtlFlush _ _ _ | .stbFreezeSet _ _ | .stbFreezeRelease _ _
  | .svcSiteWrite _ _ _ _ | .svcKeyWrite _ _ _ _ _ _ | .arbCtlWrite _ _ _ _ | .w1cClear _ _ _ _ => true
  | .chipResetRelease _ _ _ _ | .vanaLow | .vbkupLow | .vcoreMeasurement _ _ _ _ | .speedMonitorReading _
  | .junctionTempReading _ | .strapChangeCheck _ | .holdupSense _ | .imagePairing | .holdupGateReading _ | .keeperStart _
  | .plateRead _ _ _ _ _ | .admission _ | .admissionRerun _ | .islandConfiguration | .firstValuesTimeout
  | .identityCheckTimeout | .armed | .pfwNFall | .pfwNRise | .holdupLow | .operatingSecondsStore | .erasePulseEnd _ _
  | .scrubRead _ | .scrubLate | .rowRetirement _ | .persistentPass | .nvmTimeout _ | .linkWordTransfer _ _ _ _
  | .spnLaneSwap | .spineStall _ _ | .arbRequest _ _ _ | .arbRelease _ _ | .arbTurnStart _ | .arbWithdraw _ _
  | .deadCycleEnd _ | .arbFreeze _ | .arbUnfreeze _ | .arbDouble _ | .toggleEvent _ _ _ | .queueEntry _ _ _
  | .holdAndFlag _ _ _ | .probe | .crossingTimeout _ | .resetFlush _ | .xt40Stop | .rcLost | .minorFrameTick
  | .frameTickLost | .taskEntry _ _ | .keeperTileReturn _ _ | .runtimeCheckFail _ _ | .migrationLoadEnd
  | .spareTileTestFail _ | .sharedSramScrub _ | .faultCauseGone _ | .fatalMirrorStore _ | .watchdogKick | .beaconToggle
  | .recordCreate _ _ _ _ | .oldestRecordTimeout | .chunkStart _ | .svcSectionStart _ _ | .svcSectionStop _ _ _
  | .autoStartArmed _ | .keeperValueWrite | .plateBegin _ _ _ | .flashSectorEraseEnd | .plateData _ _ _
  | .flashPageProgramEnd | .plateEnd _ | .flashTimeout | .sliceTurnBoundary _ _ _ _ _ _ _ | .sampleProcessing
  | .pairDisagree _ | .switchDelayExpiry _ | .ageCheck | .rotationFiring | .rotationHandover | .calibrationEnd _ _ _ _
  | .blankTriggerAssert _ | .blankTriggerEnd _ | .blankLimit _ | .excFault _ _ | .vrefFault | .modulatorStall _
  | .mainsZeroCrossing | .missingCrossing | .halfCycleRefresh _ | .mainsWindowEnd _ _ _ _ _ | .startRequest _
  | .startWithdraw _ | .decisionStep | .startEnd _ | .startStarved _ | .dipLearned _ | .speedPublication _ | .fanLoss _
  | .hardTrip _ | .hostHeartbeat | .fogStart | .motionPublication _ _ | .proveTimeout _ | .feedbackLoss _
  | .weldedContactor _ | .routeStop _ | .purgeExpiry _ | .gateCommand _ | .reversalPauseEnd _ | .gateTravel _
  | .gateStall _ | .heatPermitChange _ _ | .heatPermit _ | .outShort _ _ | .outShortRetry _ _ | .calendarSecond
  | .scheduleEvaluation | .operatingSecondTick | .xt32Stop | .calNow0Read _ _ | .lockoutEnd | .mailboxLoad _
  | .mailboxAbort _ _ | .frameTransmitted _ _ | .frameReceived _ _ _ _ _ _ _ _ | .canError _ _ _ _ _ | .recoveryDelayEnd _
  | .recoveryComplete _ | .mooredJoin _ | .protocolException _ | .heartbeatSend | .nodeHeartbeat _ | .nodeLost _ _
  | .plantState | .identReq _ _ | .identity _ | .channelCmd _ _ | .channelCmdRepeat | .channelStatus _ | .value _
  | .telemetry _ | .hostSectionStart | .hostSectionStop | .hostFaultAck | .hostFogAck | .hostStartFreezeSet
  | .hostStartFreezeRelease | .hostMotorClear | .hostCalSet | .valueRead | .identRead | .hostUnknownObject | .switches
  | .eventNotice | .synRecRead | .synRecClear | .transferTimeout | .frameGap _ | .frameTooLong _ _ _ | .frameCrcError _ _
  | .retransmission _ _ | .hello _ | .auth _ _ _ | .close _ | .sessionIdle | .baud _ _ | .baudRevert | .read _ _ _ _
  | .svcRecRead _ _ _ _ _ | .svcRecClear _ _ | .fltHistRead _ | .overrideSet _ _ _ _ | .overrideRelease _ _ _ _
  | .restart _ | .imageWriteBegin _ _ _ _ _ | .imageWriteData _ _ _ _ _ | .imageWriteFinal _ _ _ _ _ | .imageActivate _ _
  | .vbkupPowerOn | .chainFrameBoundary | .pairDisagreeEnd _ | .pwmPeriodBoundary _ _ | .busIntegration _
  | .unknownCommand _ _ | .boundaryScanExtest | .busLoadWindow _ => false

/-- The command may change a word of the array or a byte of the flash when it does not reset the chip. -/
def mayStore (c : Instr) : Bool :=
  match c with
  | .resetNAssert | .chipResetRelease _ _ _ _ | .vcoreSupervisorTrip | .vcorePowerOnReset | .vioSupervisorTrip
  | .vanaPowerOnReset | .vanaLow | .vbkupLow | .vcoreMeasurement _ _ _ _ | .speedMonitorReading _ | .junctionTempReading _
  | .strapChangeCheck _ | .holdupSense _ | .imagePairing | .holdupGateReading _ | .keeperStart _ | .plateRead _ _ _ _ _
  | .admission _ | .admissionRerun _ | .islandConfiguration | .firstValuesTimeout | .identityCheckTimeout | .armed
  | .pfwNFall | .pfwNRise | .flushStep _ | .storeQueueRetry _ | .holdupLow | .operatingSecondsStore | .scrubLate
  | .rowRetirement _ | .persistentPass | .linkWordTransfer _ _ _ _ | .spnLaneSwap | .spineStall _ _ | .arbRequest _ _ _
  | .arbRelease _ _ | .arbTurnStart _ | .arbWithdraw _ _ | .deadCycleEnd _ | .arbFreeze _ | .arbUnfreeze _ | .arbDouble _
  | .toggleEvent _ _ _ | .queueEntry _ _ _ | .holdAndFlag _ _ _ | .probe | .crossingTimeout _ | .resetFlush _ | .xt40Stop
  | .rcLost | .minorFrameTick | .frameTickLost | .taskEntry _ _ | .keeperPacketVote _ _ | .voteTimeout _ _
  | .keeperTileReturn _ _ | .runtimeCheckFail _ _ | .migrationLoadEnd | .spareTileTestFail _ | .sharedSramScrub _
  | .faultRaise _ _ _ | .lineBreak _ | .faultCauseGone _ | .fltAck _ _ _ | .fatalResetTimeout | .chipResetReaction
  | .fatalMirrorStore _ | .watchdogKick | .wdogExpiry | .beaconToggle | .fltInject _ _ _ | .collectorSelf _
  | .recordCreate _ _ _ _ | .oldestRecordTimeout | .chunkStart _ | .svcSectionStart _ _ | .svcSectionStop _ _ _
  | .autoStartArmed _ | .keeperValueWrite | .plateBegin _ _ _ | .plateData _ _ _ | .plateEnd _
  | .sliceTurnBoundary _ _ _ _ _ _ _ | .sampleProcessing | .pairDisagree _ | .switchDelayExpiry _ | .ageCheck
  | .rotationFiring | .rotationHandover | .calibrationEnd _ _ _ _ | .blankTriggerAssert _ | .blankTriggerEnd _
  | .blankLimit _ | .excFault _ _ | .vrefFault | .modulatorStall _ | .mainsZeroCrossing | .missingCrossing
  | .halfCycleRefresh _ | .mainsWindowEnd _ _ _ _ _ | .startRequest _ | .startWithdraw _ | .decisionStep | .startEnd _
  | .startStarved _ | .dipLearned _ | .speedPublication _ | .fanLoss _ | .hardTrip _ | .hostHeartbeat | .fogStart
  | .fanFogAck _ _ _ | .fanFixWrite _ _ _ _ | .motionPublication _ _ | .proveTimeout _ | .feedbackLoss _
  | .weldedContactor _ | .routeStop _ | .purgeExpiry _ | .motClr _ _ _ | .gateCommand _ | .reversalPauseEnd _
  | .gateTravel _ | .gateStall _ | .heatPermitChange _ _ | .heatPermit _ | .outShort _ _ | .outShortRetry _ _
  | .calendarSecond | .scheduleEvaluation | .operatingSecondTick | .xt32Stop | .calSet0Write _ _ _ | .calSet1Commit _ _ _
  | .calNow0Read _ _ | .lockoutEnd | .mailboxLoad _ | .mailboxAbort _ _ | .frameTransmitted _ _
  | .frameReceived _ _ _ _ _ _ _ _ | .canError _ _ _ _ _ | .recoveryDelayEnd _ | .recoveryComplete _ | .canRecover _ _ _ _
  | .mooredJoin _ | .protocolException _ | .heartbeatSend | .nodeHeartbeat _ | .nodeLost _ _ | .plantState | .identReq _ _
  | .identity _ | .channelCmd _ _ | .channelCmdRepeat | .channelStatus _ | .value _ | .telemetry _ | .hostSectionStart
  | .hostSectionStop | .hostFaultAck | .hostFogAck | .hostStartFreezeSet | .hostStartFreezeRelease | .hostMotorClear
  | .hostCalSet | .valueRead | .identRead | .hostUnknownObject | .switches | .eventNotice | .synRecRead | .synRecClear
  | .transferTimeout | .frameGap _ | .frameTooLong _ _ _ | .frameCrcError _ _ | .retransmission _ _ | .hello _
  | .auth _ _ _ | .close _ | .sessionIdle | .baud _ _ | .baudRevert | .read _ _ _ _ | .registerWrite _ _ _ _
  | .svcRecRead _ _ _ _ _ | .svcRecClear _ _ | .fltHistRead _ | .overrideSet _ _ _ _ | .overrideRelease _ _ _ _
  | .restart _ | .imageWriteBegin _ _ _ _ _ | .imageWriteData _ _ _ _ _ | .imageWriteFinal _ _ _ _ _ | .imageActivate _ _
  | .valueForce _ _ _ _ | .forceRelease _ _ _ _ | .recCtlFlush _ _ _ | .stbFreezeSet _ _ | .stbFreezeRelease _ _
  | .svcSiteWrite _ _ _ _ | .svcKeyWrite _ _ _ _ _ _ | .arbCtlWrite _ _ _ _ | .w1cClear _ _ _ _ | .vbkupPowerOn
  | .chainFrameBoundary | .pairDisagreeEnd _ | .pwmPeriodBoundary _ _ | .busIntegration _ | .unknownCommand _ _
  | .boundaryScanExtest | .busLoadWindow _ => false
  | .proof _ _ _ _ _ _ _ _ | .wordStoreEnd _ _ | .erasePulseEnd _ _ | .scrubRead _ | .nvmTimeout _ | .chunkStoreEnd
  | .flashSectorEraseEnd | .flashPageProgramEnd | .flashTimeout => true

end Sys2Proof.Machine
end

