-- ==== Sys2Proof/WellFormed.lean ====
section
/-! DEFINITION. Well-formed commands: each operand fits the field that carries it into the block. `exec` is total on any
operand; what lies outside these ranges cannot reach the block. -/

namespace Sys2Proof

/-! Checks. -/

/-- A byte of a frame (Table 25-1), or an index of 256. -/
def isByte (n : Nat) : Bool := n < 256
/-- A bit. -/
def isBit (n : Nat) : Bool := n < 2
/-- Two bytes. -/
def isHalf (n : Nat) : Bool := n < 65536
/-- An address, a LENGTH or a word offset: three bytes (R954). -/
def isAddr (n : Nat) : Bool := n < 2 ^ 24
/-- Four bytes. -/
def isLong (n : Nat) : Bool := n < 2 ^ 32
/-- A locator: one word (R391). -/
def isWordNat (n : Nat) : Bool := n < 2 ^ 40
/-- A CAN bus, a word of the site identity, a key set or generation: 0 to 3. -/
def isBus (n : Nat) : Bool := n < 4
/-- A bank of the array (R298). -/
def isBank (n : Nat) : Bool := n < 4
/-- An island (Table 6-1). -/
def isIsland (n : Nat) : Bool := n < 10
/-- A node address (Table 24-1). -/
def isNode (n : Nat) : Bool := 1 ≤ n && n < 127
/-- The destination of an identity request: a node, or all of them. -/
def isNodes (n : Nat) : Bool := isNode n || n == 0xFF
/-- A converter slice. -/
def isSlice (n : Nat) : Bool := n < 6
/-- A scan list. -/
def isList (n : Nat) : Bool := n < 7
/-- A blanking trigger (Table 15-8). -/
def isTrig (n : Nat) : Bool := n < 7
/-- An excitation source (R566). -/
def isExc (n : Nat) : Bool := n < 8
/-- A value index (R511). -/
def isValue (n : Nat) : Bool := n < 4096
/-- A code of a 12-bit converter (R90). -/
def isCode (n : Nat) : Bool := n < 4096
/-- A logical tile. -/
def isTile (n : Nat) : Bool := n < 64
/-- A physical tile, whose number is that of its router (R175). -/
def isPhys (n : Nat) : Bool := n < 72
/-- An output port of a router: local, north, south, east, west (R175). -/
def isOutPort (n : Nat) : Bool := n < 5
/-- A port as packets name it: below 64 an edge port, from 64 on a tile's local port (R176). -/
def isSpinePort (n : Nat) : Bool := n < 136
/-- Lanes of a link (R171). -/
def isLanes (xs : List Nat) : Bool := xs.all (fun l => decide (l < 50))
/-- A keeper tile. -/
def isKeeper (n : Nat) : Bool := n < 3
/-- A fault source (R370). -/
def isSource (n : Nat) : Bool := n < 0x60
/-- A word of a key cell (R962). -/
def isKeyWord (n : Nat) : Bool := n < 7
/-- An instance of ARB_CTLn (Table 5-9). -/
def isArb (n : Nat) : Bool := n < 23
/-- A 29-bit identifier. -/
def isCanId (n : Nat) : Bool := n < 2 ^ 29
/-- The data bytes of a WRITE or PLATE_DATA frame (R947). -/
def isPayload (xs : List Byte) : Bool := xs.length ≤ 1020
/-- An HMAC-SHA-256 tag. -/
def isTag (xs : List Byte) : Bool := xs.length == 32
/-- The guard of REC_CLEAR. -/
def isGuard (xs : List Byte) : Bool := xs.length == 4
/-- The data field of a CAN frame. -/
def isCanData (xs : List Byte) : Bool := xs.length ≤ 64
/-- One reading for each strap ball (Table 2-10). -/
def isStraps (xs : List Bool) : Bool := xs.length == 11
/-- The sixteen speed monitors (R183). -/
def isMonitors (xs : List Nat) : Bool := xs.length == 16
/-- The four junction sensors (R165). -/
def isSensors (xs : List Nat) : Bool := xs.length == 4
/-- One reading for each mains phase. -/
def isPhases (xs : List Int) : Bool := xs.length == 3
/-- One reading for each phase and for the neutral. -/
def isMains (xs : List Int) : Bool := xs.length == 4
/-- The words of a WRITE frame: at least one, and no more than the payload holds (R954). -/
def isWrite (xs : List Word) : Bool := !xs.isEmpty && xs.length ≤ 204
/-- The words of an IMAGE_WRITE frame. -/
def isFrameWords (xs : List Word) : Bool := xs.length ≤ 203

/-- Every operand of a command fits its field. -/
def WellFormed (i : Instr) : Bool :=
  match i with
  | .resetNAssert => true
  | .chipResetRelease _ up down _ => isStraps up && isStraps down
  | .vcoreSupervisorTrip | .vcorePowerOnReset | .vioSupervisorTrip | .vanaPowerOnReset | .vanaLow => true
  | .vbkupLow | .vcoreMeasurement _ _ _ _ => true
  | .speedMonitorReading ps => isMonitors ps
  | .junctionTempReading codes => isSensors codes
  | .strapChangeCheck levels => isStraps levels
  | .holdupSense code => isCode code
  | .imagePairing => true
  | .holdupGateReading code => isCode code
  | .proof _ _ _ _ _ _ _ _ | .keeperStart _ | .plateRead _ _ _ _ _ | .admission _ | .admissionRerun _ => true
  | .islandConfiguration | .firstValuesTimeout | .identityCheckTimeout => true
  | .armed | .pfwNFall | .pfwNRise => true
  | .flushStep code => isCode code
  | .storeQueueRetry code => isCode code
  | .holdupLow | .operatingSecondsStore => true
  | .wordStoreEnd bank _ => isBank bank
  | .erasePulseEnd bank _ => isBank bank
  | .scrubRead _ | .scrubLate | .rowRetirement _ | .persistentPass => true
  | .nvmTimeout bank => isBank bank
  | .linkWordTransfer _ wrong src head => isLanes wrong && isSpinePort src && isSpinePort head.dst
  | .spnLaneSwap => true
  | .spineStall router port => isPhys router && isOutPort port
  | .arbRequest _ _ _ | .arbRelease _ _ | .arbTurnStart _ | .arbWithdraw _ _ | .deadCycleEnd _ => true
  | .arbFreeze _ | .arbUnfreeze _ | .arbDouble _ => true
  | .toggleEvent island _ _ => isIsland island
  | .queueEntry island _ _ => isIsland island
  | .holdAndFlag island _ _ => isIsland island
  | .probe => true
  | .crossingTimeout island => isIsland island
  | .resetFlush island => isIsland island
  | .xt40Stop | .rcLost | .minorFrameTick | .frameTickLost => true
  | .taskEntry tile _ => isTile tile
  | .keeperPacketVote _ _ | .voteTimeout _ _ => true
  | .keeperTileReturn k _ => isKeeper k
  | .runtimeCheckFail tile _ => isTile tile
  | .migrationLoadEnd => true
  | .spareTileTestFail phys => isPhys phys
  | .sharedSramScrub _ => true
  | .faultRaise src _ unit => isSource src && isByte unit
  | .lineBreak src => isSource src
  | .faultCauseGone src => isSource src
  | .fltAck seq mask _ => isByte seq && isByte mask
  | .fatalResetTimeout | .chipResetReaction => true
  | .fatalMirrorStore code => isCode code
  | .watchdogKick | .wdogExpiry | .beaconToggle => true
  | .fltInject seq mask _ => isByte seq && isByte mask
  | .collectorSelf _ => true
  | .recordCreate code unit _ _ => isHalf code && isByte unit
  | .oldestRecordTimeout => true
  | .chunkStart code => isCode code
  | .chunkStoreEnd => true
  | .svcSectionStart seq sect => isByte seq && isByte sect
  | .svcSectionStop seq sect op => isByte seq && isByte sect && isByte op
  | .autoStartArmed sect => isByte sect
  | .keeperValueWrite => true
  | .plateBegin seq slot length => isByte seq && isByte slot && isAddr length
  | .flashSectorEraseEnd => true
  | .plateData seq off bytes => isByte seq && isLong off && isPayload bytes
  | .flashPageProgramEnd => true
  | .plateEnd seq => isByte seq
  | .flashTimeout => true
  | .sliceTurnBoundary list _ _ _ _ _ _ => isList list
  | .sampleProcessing | .pairDisagree _ => true
  | .switchDelayExpiry sw => isByte sw
  | .ageCheck | .rotationFiring | .rotationHandover => true
  | .calibrationEnd slice _ _ _ => isSlice slice
  | .blankTriggerAssert trig => isTrig trig
  | .blankTriggerEnd trig => isTrig trig
  | .blankLimit value => isValue value
  | .excFault src _ => isExc src
  | .vrefFault => true
  | .modulatorStall slice => isSlice slice
  | .mainsZeroCrossing | .missingCrossing => true
  | .halfCycleRefresh rms => isPhases rms
  | .mainsWindowEnd rms _ _ _ _ => isMains rms
  | .startRequest ch => isByte ch
  | .startWithdraw ch => isByte ch
  | .decisionStep => true
  | .startEnd ch => isByte ch
  | .startStarved ch => isByte ch
  | .dipLearned ch => isByte ch
  | .speedPublication _ | .fanLoss _ | .hardTrip _ | .hostHeartbeat | .fogStart => true
  | .fanFogAck seq mask _ => isByte seq && isByte mask
  | .fanFixWrite seq n mask words => isByte seq && isByte n && isByte mask && isWrite words
  | .motionPublication _ _ => true
  | .proveTimeout ch => isByte ch
  | .feedbackLoss ch => isByte ch
  | .weldedContactor ch => isByte ch
  | .routeStop ch => isByte ch
  | .purgeExpiry ch => isByte ch
  | .motClr seq mask _ => isByte seq && isByte mask
  | .gateCommand ch => isByte ch
  | .reversalPauseEnd ch => isByte ch
  | .gateTravel ch => isByte ch
  | .gateStall ch => isByte ch
  | .heatPermitChange ch _ => isByte ch
  | .heatPermit ch => isByte ch
  | .outShort _ _ | .outShortRetry _ _ | .calendarSecond => true
  | .scheduleEvaluation | .operatingSecondTick | .xt32Stop => true
  | .calSet0Write seq mask words => isByte seq && isByte mask && isWrite words
  | .calSet1Commit seq mask _ => isByte seq && isByte mask
  | .calNow0Read seq count => isByte seq && isHalf count
  | .lockoutEnd => true
  | .mailboxLoad bus => isBus bus
  | .mailboxAbort bus _ => isBus bus
  | .frameTransmitted bus _ => isBus bus
  | .frameReceived bus id _ _ _ _ _ data => isBus bus && isCanId id && isCanData data
  | .canError bus _ _ _ _ => isBus bus
  | .recoveryDelayEnd bus => isBus bus
  | .recoveryComplete bus => isBus bus
  | .canRecover seq n mask _ => isByte seq && isBus n && isByte mask
  | .mooredJoin _ => true
  | .protocolException bus => isBus bus
  | .heartbeatSend => true
  | .nodeHeartbeat bus => isBus bus
  | .nodeLost bus node => isBus bus && isNode node
  | .plantState => true
  | .identReq bus node => isBus bus && isNodes node
  | .identity bus => isBus bus
  | .channelCmd kind ch => isByte kind && isByte ch
  | .channelCmdRepeat => true
  | .channelStatus bus => isBus bus
  | .value bus => isBus bus
  | .telemetry bus => isBus bus
  | .hostSectionStart | .hostSectionStop | .hostFaultAck | .hostFogAck | .hostStartFreezeSet => true
  | .hostStartFreezeRelease | .hostMotorClear | .hostCalSet | .valueRead | .identRead => true
  | .hostUnknownObject | .switches | .eventNotice | .synRecRead | .synRecClear => true
  | .transferTimeout | .frameGap _ => true
  | .frameTooLong seq cmd len => isByte seq && isByte cmd && isHalf len
  | .frameCrcError seq cmd => isByte seq && isByte cmd
  | .retransmission seq cmd => isByte seq && isByte cmd
  | .hello seq => isByte seq
  | .auth seq role tag => isByte seq && isByte role && isTag tag
  | .close seq => isByte seq
  | .sessionIdle => true
  | .baud seq rate => isByte seq && isLong rate
  | .baudRevert => true
  | .read seq addr count _ => isByte seq && isAddr addr && isHalf count
  | .registerWrite seq addr mask bytes => isByte seq && isAddr addr && isByte mask && isPayload bytes
  | .svcRecRead seq start dir count flush => isByte seq && isWordNat start && isByte dir && isByte count && isByte flush
  | .svcRecClear seq guard => isByte seq && isGuard guard
  | .fltHistRead seq => isByte seq
  | .overrideSet seq kind ch _ => isByte seq && isByte kind && isByte ch
  | .overrideRelease seq kind ch op => isByte seq && isByte kind && isByte ch && isByte op
  | .restart seq => isByte seq
  | .imageWriteBegin seq slot _ off words => isByte seq && isBit slot && isAddr off && isFrameWords words
  | .imageWriteData seq slot _ off words => isByte seq && isBit slot && isAddr off && isFrameWords words
  | .imageWriteFinal seq slot _ off words => isByte seq && isBit slot && isAddr off && isFrameWords words
  | .imageActivate seq pair => isByte seq && isByte pair
  | .valueForce seq n mask words => isByte seq && isValue n && isByte mask && isWrite words
  | .forceRelease seq n mask _ => isByte seq && isValue n && isByte mask
  | .recCtlFlush seq mask _ => isByte seq && isByte mask
  | .stbFreezeSet seq mask => isByte seq && isByte mask
  | .stbFreezeRelease seq mask => isByte seq && isByte mask
  | .svcSiteWrite seq k mask words => isByte seq && isBus k && isByte mask && isWrite words
  | .svcKeyWrite seq r g w mask words => isByte seq && isBus r && isBus g && isKeyWord w && isByte mask && isWrite words
  | .arbCtlWrite seq n mask _ => isByte seq && isArb n && isByte mask
  | .w1cClear seq addr mask _ => isByte seq && isAddr addr && isByte mask
  | .vbkupPowerOn | .chainFrameBoundary | .pairDisagreeEnd _ => true
  | .pwmPeriodBoundary kind ch => isByte kind && isByte ch
  | .busIntegration bus => isBus bus
  | .unknownCommand seq cmd => isByte seq && isByte cmd
  | .boundaryScanExtest => true
  | .busLoadWindow bus => isBus bus

end Sys2Proof
end

