-- ==== Sys2Proof/Safety.lean ====
section
/-! DEFINITION. What a safe run of the block is, in the terms the statements use: a step that answers a next state, the canonical
form of the block's memories, and plain names for what several statements say of a state. -/

namespace Sys2Proof.Machine

open Sys2Proof

/-- The command runs to a next state of which P holds. -/
def Runs (c : Instr) (s : State) (P : State → Prop) : Prop := ∃ t, exec c s = .next t ∧ P t

/-- The command leaves the state as it is. -/
def Idle (c : Instr) (s : State) : Prop := exec c s = .next s

/-- The command answers the state that the plant units make (`settle`) of one of which P holds. -/
def Settles (c : Instr) (s : State) (P : State → Prop) : Prop := ∃ u, exec c s = .next (settle u) ∧ P u

/-- A WRITE answers the state that the plant units make of one of which P holds; a fatal fault latched on the way resets the chip
(R361). -/
def SettlesWrite (c : Instr) (s : State) (P : State → Prop) : Prop :=
  ∃ u, exec c s = .next (latchReset s.flt.fatal (settle u)) ∧ P u

/-- The frame at the head of the receive queue of bus n is f, it is of the class p, and the master takes it. -/
def Heard (s : State) (n : Nat) (p : CanFrame → Bool) (f : CanFrame) : Prop :=
  ∃ e, rxHead s n = some e ∧ e.frame = f ∧ p f = true ∧ screen s n f.id f.data.length = .take

/-- A word of the packet c may cross the link direction d, which is in service and on the packet's route. -/
def Crosses (s : State) (d : Nat) (c : Cross) : Prop :=
  c.num = 0 ∧ c.left = 0 ∧ s.rst.held = false ∧ linkExists d = true ∧ (getLink s d).dead = false ∧ wordFits s d c = true

/-- What one word of a packet leaves to cross a link: nothing after the last. -/
def wordsLeft (x : Cross) : Option Cross := if x.left ≤ 1 then none else some { x with left := x.left - 1 }

/-- The service port takes a request: it hears frames, the request repeats none, and the state offers the command. -/
def Taken (s : State) (seq cmd : Nat) : Prop :=
  svcHears s = true ∧ isRepeatReq s seq cmd = false ∧ offered s cmd = true

/-- The state in which a request that is taken acts: the session has heard it, and a command other than READ and WRITE has
discarded the staging (R960, R974). -/
def asked (s : State) (cmd : Nat) : State := if cmd == 0x10 || cmd == 0x11 then heard s else dropStage (heard s)

/-- A session of one of these roles is open. -/
def HasRole (s : State) (roles : List Nat) : Prop := ∃ r, sessRole s = some r ∧ r ∈ roles

/-- A WRITE with every byte enabled is taken, with no group staged, of a role that may write the address. -/
def Writes (s : State) (seq mask addr : Nat) : Prop :=
  Taken s seq 0x11 ∧ mask % 32 = 31 ∧ s.svc.stage = none ∧ ∃ roles, writeRoles s addr = some roles ∧ HasRole s roles

/-- SEQ and CMD of a command that is a request of the service port; none where the operands make it none. -/
def requestOf (c : Instr) : Option (Nat × Nat) :=
  match c with
  | .frameTooLong seq cmd len => if len ≤ 1024 && svcCmds.contains cmd && !layoutOk cmd len then some (seq, cmd) else none
  | .hello seq => some (seq, 0x01)
  | .auth seq _ _ => some (seq, 0x02)
  | .close seq => some (seq, 0x03)
  | .baud seq _ => some (seq, 0x04)
  | .read seq _ _ _ => some (seq, 0x10)
  | .calNow0Read seq _ => some (seq, 0x10)
  | .registerWrite seq _ _ _ => some (seq, 0x11)
  | .fltAck seq _ _ => some (seq, 0x11)
  | .fltInject seq _ _ => some (seq, 0x11)
  | .recCtlFlush seq _ _ => some (seq, 0x11)
  | .stbFreezeSet seq _ => some (seq, 0x11)
  | .stbFreezeRelease seq _ => some (seq, 0x11)
  | .fanFogAck seq _ _ => some (seq, 0x11)
  | .motClr seq _ _ => some (seq, 0x11)
  | .calSet0Write seq _ _ => some (seq, 0x11)
  | .calSet1Commit seq _ _ => some (seq, 0x11)
  | .svcRecRead seq _ _ _ _ => some (seq, 0x20)
  | .svcRecClear seq _ => some (seq, 0x21)
  | .fltHistRead seq => some (seq, 0x22)
  | .overrideSet seq _ _ _ => some (seq, 0x30)
  | .svcSectionStart seq _ => some (seq, 0x31)
  | .restart seq => some (seq, 0x32)
  | .plateBegin seq _ _ => some (seq, 0x40)
  | .plateData seq _ _ => some (seq, 0x41)
  | .plateEnd seq => some (seq, 0x42)
  | .imageWriteBegin seq _ _ _ _ => some (seq, 0x48)
  | .imageWriteData seq _ _ _ _ => some (seq, 0x48)
  | .imageWriteFinal seq _ _ _ _ => some (seq, 0x48)
  | .imageActivate seq _ => some (seq, 0x49)
  | .retransmission seq cmd => some (seq, cmd % 256)
  | .overrideRelease seq _ _ op => if op == 1 then none else some (seq, 0x30)
  | .svcSectionStop seq _ op => if op == 1 then none else some (seq, 0x31)
  | .arbCtlWrite seq n _ _ => if n ≤ 22 then some (seq, 0x11) else none
  | .fanFixWrite seq n _ _ => if n ≤ 255 then some (seq, 0x11) else none
  | .canRecover seq n _ _ => if n ≤ 3 then some (seq, 0x11) else none
  | .svcSiteWrite seq k _ _ => if k ≤ 3 then some (seq, 0x11) else none
  | .svcKeyWrite seq r g w _ _ => if r ≤ 3 && g ≤ 3 && w ≤ 6 then some (seq, 0x11) else none
  | .valueForce seq n _ _ => if n ≤ 4095 then some (seq, 0x11) else none
  | .forceRelease seq n _ _ => if n ≤ 4095 then some (seq, 0x11) else none
  | .w1cClear seq a _ _ => if w1cAddr a then some (seq, 0x11) else none
  | .unknownCommand seq cmd => if svcCmds.contains (cmd % 256) then none else some (seq, cmd % 256)
  | _ => none

/-- A source that has cleared (R358). -/
def clearedSrc (s : State) (n : Nat) : Prop :=
  (getSrc s.flt n).uncleared = false ∧ (getSrc s.flt n).eff = .advisory ∧ (getSrc s.flt n).repeats = 0 ∧
    (getSrc s.flt n).escalated = false

/-- The newest record of the buffer is the mirror of the clearing of a source, unless the buffer was full (R394, R399). -/
def mirrored (s : State) (n : Nat) : Prop :=
  s.recr.dropSince ≠ 0 ∨ (s.recr.buf.getLast?.map (·.code)) = some (0x1200 + n)

/-- The state after n steps; none where one of them answers no next state. -/
def stepsFrom : Nat → State → Option State
  | 0, s => some s
  | n + 1, s => match step s with
    | .next t => stepsFrom n t
    | .fault _ => none
    | .refused _ => none

/-- A raise of the source makes an instance: no injection replaces its rails (R368), and it does not stand acknowledged with its
cause present (R350). -/
abbrev Raisable (s : State) (n : Nat) : Prop :=
  injected s.flt n = false ∧ ((getSrc s.flt n).acked && (getSrc s.flt n).uncleared && (getSrc s.flt n).cause) = false

/-- The turns of a bank: the one in hand and those that wait. -/
def bankTurns (s : State) (b : Nat) : List Store := (getBank s.nvm b).hand.toList ++ (getBank s.nvm b).turns

/-- A store of these words is in hand of the bank, waits for its turn there, or waits in the store queue or behind it. -/
def storePends (s : State) (b : Nat) (ws : List (Nat × Word)) : Bool :=
  (bankTurns s b ++ s.pwr.queue ++ s.pwr.waiting).any (fun t => t.words == ws)

/-- The memories of the block in canonical form: the cells of the array, those of its spare rows and of the rows that these stand
in for, listed where they are not erased, and the bytes of the plate flash, listed where they are not blank. -/
def Memory.wf (s : State) : Bool :=
  tabWf .erased s.nvm.cells && tabWf .erased s.nvm.spareCells && tabWf .erased s.nvm.oldCells && redirectOk s.nvm.redirect &&
    tabWf 0xFF#8 s.plt.flash

end Sys2Proof.Machine
end

