-- ==== Sys2Proof/Certificates/Slice0/Obligations.lean ====
section
/-! DEFINITION. The statements for the provers. Those that say what a command does name the fields that its rules give; `Runs`
says that the command answers a next state of which these hold, `Settles` that it answers the state which the plant units make
(`settle`) of one of which they hold. -/

open Sys2Proof Sys2Proof.Machine

/-- O1. RESET_N, the VCORE supervisor, the VCORE power-on reset, the VIO supervisor and the VANA power-on reset each put
the chip into reset: the holder of the source is noted (codes 0 to 4 of CAUSE), the buffered records are lost, and the
clock and the queue of commands stay. RESET_N and the VANA power-on reset clear the hard-trip latch and are noted for
the sampling of TRIP_N at the release; the other sources keep the latch. The VCORE power-on reset is noted and loses
the fatal latch, which the two supervisors of VCORE and VIO keep. (Completes: RESET_N_ASSERT, VCORE_SUPERVISOR_TRIP,
VCORE_POWER_ON_RESET, VIO_SUPERVISOR_TRIP, VANA_POWER_ON_RESET.) (R86, R87, R57, R123, R141, 02_balls_straps,
03_supplies_holdup, 04_ratings.) -/
def Obligations.ResetSourcesHoldTheChipReset : Prop :=
  (∀ s, Runs .resetNAssert s fun t => t.rst.held = true ∧ 0 ∈ t.rst.holders ∧ t.rst.latchTrip = true ∧ t.fan.trip = false ∧
    t.recr.buf = [] ∧ t.now = s.now ∧ t.pending = s.pending) ∧
  (∀ s, Runs .vcoreSupervisorTrip s fun t => t.rst.held = true ∧ 1 ∈ t.rst.holders ∧ t.fan.trip = s.fan.trip ∧
    t.flt.fatal = s.flt.fatal ∧ t.recr.buf = [] ∧ t.now = s.now ∧ t.pending = s.pending) ∧
  (∀ s, Runs .vcorePowerOnReset s fun t => t.rst.held = true ∧ 2 ∈ t.rst.holders ∧ t.rst.por = true ∧ t.fan.trip = s.fan.trip ∧
    t.flt.fatal = false ∧ t.recr.buf = [] ∧ t.now = s.now ∧ t.pending = s.pending) ∧
  (∀ s, Runs .vioSupervisorTrip s fun t => t.rst.held = true ∧ 3 ∈ t.rst.holders ∧ t.fan.trip = s.fan.trip ∧
    t.flt.fatal = s.flt.fatal ∧ t.recr.buf = [] ∧ t.now = s.now ∧ t.pending = s.pending) ∧
  (∀ s, Runs .vanaPowerOnReset s fun t => t.rst.held = true ∧ 4 ∈ t.rst.holders ∧ t.rst.latchTrip = true ∧ t.fan.trip = false ∧
    t.recr.buf = [] ∧ t.now = s.now ∧ t.pending = s.pending)

/-- O2. A release of the chip reset ends it with no holder left, starts the timeline at the present instant with its
cause, the straps sampled and the operating seconds read from the array. VANA low is noted and takes the known energy
to 0 at once. While the keeper runs, a measurement of the four rails and a junction reading are held as read (cut to
their fields), the latter with its peaks, and a VCORE of 900 mV or more ends the count of low ones. At most each 10 ms
a speed-monitor reading is taken: the period in ps that each ring's count gives, with the lowest and the highest seen;
it takes one free word, and within 10 ms nothing happens. While the reset is not held a HOLDUP_SNS reading is held and
gives the energy. (Completes: CHIP_RESET_RELEASE, VANA_LOW, VCORE_MEASUREMENT, SPEED_MONITOR_READING,
JUNCTION_TEMP_READING, HOLDUP_SENSE.) (R86, R118, R88, R183, R165, R90, R317, 03_supplies_holdup, 04_ratings,
05_spine_arbiters, 08_nvm.) -/
def Obligations.SupplyMeasurementsAreTaken : Prop :=
  (∀ s cause up down xtal, s.rst.held = true → Runs (.chipResetRelease cause up down xtal) s fun t =>
    t.rst.held = false ∧ t.rst.holders = [] ∧ t.rst.t0 = s.now ∧ t.rst.cause = releaseCause s cause ∧
    t.straps = sampleStraps s.straps up down s.rst.latchTrip ∧ t.cal.opSec = storedOpSec s.nvm) ∧
  (∀ s, Runs .vanaLow s fun t => t.pwr.vanaLow = true ∧ t.pwr.energyUj = 0) ∧
  (∀ s vcore vio vana vbkup, keeperRuns s = true → Runs (.vcoreMeasurement vcore vio vana vbkup) s fun t =>
    t.pwr.vcoreMv = min 4095 vcore ∧ t.pwr.vioMv = min 8191 vio ∧ t.pwr.vanaMv = min 8191 vana ∧
    t.pwr.vbkupMv = min 4095 vbkup ∧ (900 ≤ vcore → t.pwr.vcoreLowN = 0)) ∧
  (∀ s counts, keeperRuns s = true → (∀ at_, s.pwr.monAt = some at_ → at_ + 10000 ≤ s.now) →
    Runs (.speedMonitorReading counts) s fun t =>
      t.pwr.monNow = (rangeFrom 0 16).map (fun m => ringPs (counts.getD m 0)) ∧ t.pwr.monAt = some s.now ∧
      t.pwr.monMin = (rangeFrom 0 16).map (fun m => min (s.pwr.monMin.getD m 8191) (ringPs (counts.getD m 0))) ∧
      t.pwr.monMax = (rangeFrom 0 16).map (fun m => max (s.pwr.monMax.getD m 0) (ringPs (counts.getD m 0))) ∧
      t.free = s.free + 1) ∧
  (∀ s counts at_, s.pwr.monAt = some at_ → s.now < at_ + 10000 → Idle (.speedMonitorReading counts) s) ∧
  (∀ s codes, keeperRuns s = true → Runs (.junctionTempReading codes) s fun t =>
    t.pwr.tj = (rangeFrom 0 4).map (fun k => min 1023 (codes.getD k 0)) ∧
    t.pwr.tjPeak = (rangeFrom 0 4).map (fun k => max (s.pwr.tjPeak.getD k 0) (min 1023 (codes.getD k 0)))) ∧
  (∀ s code, s.rst.held = false → Runs (.holdupSense code) s fun t =>
    t.pwr.snsPin = min 4095 code ∧ t.pwr.snsCode = min 4095 code ∧ t.pwr.energyUj = energyOf s (min 4095 code))

/-- O3. PFW_N falling starts the warning and notes its instant, with the flush of Table 3-7 at its first step; PFW_N
rising ends it when the mains watch does not hold it. While the chip reset is held the level is taken and nothing else
happens. (Completes: PFW_N_FALL, PFW_N_RISE.) (R105, R107, R109, 03_supplies_holdup.) -/
def Obligations.PowerFailWarningFollowsItsPins : Prop :=
  (∀ s, s.rst.held = false → s.pwr.pfw = false → Runs .pfwNFall s fun t =>
    t.pwr.pfwPin = true ∧ t.pwr.pfw = true ∧ t.pwr.flush = some 0 ∧ t.pwr.pfwSince = s.now) ∧
  (∀ s, s.rst.held = false → s.pwr.pfwMns = false → s.pwr.pfw = true → Runs .pfwNRise s fun t =>
    t.pwr.pfwPin = false ∧ t.pwr.pfw = false) ∧
  (∀ s, s.rst.held = true →
    Runs .pfwNFall s (fun t => t = { s with pwr := { s.pwr with pfwPin := true } }) ∧
    Runs .pfwNRise s (fun t => t = { s with pwr := { s.pwr with pfwPin := false } }))

/-- O4. A short on an open-drain ball, while the reset is not held, releases the ball (the ball's key with the instant;
the two balls that R163 exempts are not released) and notes the instant. Once a second has passed since the release,
the retry drives the ball again. EXTEST toggles between moored or boot-ROM service states and the normal drive;
elsewhere it leaves the balls alone. A strap check takes the present level of every ball that was not found open,
counts its consecutive differences from the latched level, sets CHANGED at the second one, and records STRAP_CHANGED
once a ball; what was latched stays. (Completes: OUT_SHORT, OUT_SHORT_RETRY, BOUNDARY_SCAN_EXTEST,
STRAP_CHANGE_CHECK.) (R163, R74, R441, 02_balls_straps, 04_ratings, 11_start.) -/
def Obligations.OutputShortsAndPinTests : Prop :=
  (∀ s row col unit exempt, s.rst.held = false → odBall row col = some (unit, exempt) → Runs (.outShort row col) s fun t =>
    t.pwr.shortAt = s.now ∧ ((row * 32 + col, s.now) ∈ t.pwr.shorts ↔ exempt = false)) ∧
  (∀ s row col at_, s.pwr.shorts.find? (·.1 == row * 32 + col) = some (row * 32 + col, at_) → at_ + 1000000 ≤ s.now →
    Runs (.outShortRetry row col) s fun t =>
      t = { s with pwr := { s.pwr with shorts := s.pwr.shorts.filter (·.1 != row * 32 + col) } }) ∧
  (∀ s, s.rst.held = false → s.flt.fatal = false → (s.start.state = .moored ∨ s.start.state = .bootService) →
    Runs .boundaryScanExtest s fun t => t = { s with rst := { s.rst with extest := !s.rst.extest } }) ∧
  (∀ s, ¬(s.rst.held = false ∧ s.flt.fatal = false ∧ (s.start.state = .moored ∨ s.start.state = .bootService)) →
    Runs .boundaryScanExtest s fun t => t = { s with rst := { s.rst with extest := false } }) ∧
  (∀ s levels (differs twice : Nat → Bool), s.rst.held = false → s.straps.present.length = 11 → s.straps.diffs.length = 11 →
    s.straps.recorded.length = 11 →
    (∀ i, differs i = (!s.straps.isOpen.getD i false && levels.getD i false != s.straps.latched.getD i false)) →
    (∀ i, twice i = (differs i && decide (1 ≤ s.straps.diffs.getD i 0))) →
    Runs (.strapChangeCheck levels) s fun t =>
      t.straps.latched = s.straps.latched ∧ t.straps.changed = (s.straps.changed || (rangeFrom 0 11).any twice) ∧
      (∀ i < 11, s.straps.isOpen.getD i false = false → t.straps.present.getD i none = some (levels.getD i false) ∧
        t.straps.diffs.getD i 0 = (if differs i then min 2 (s.straps.diffs.getD i 0 + 1) else 0) ∧
        t.straps.recorded.getD i false = (s.straps.recorded.getD i false || twice i)) ∧
      t.recr = ((rangeFrom 0 11).filter (fun i => twice i && !s.straps.recorded.getD i false)).foldl (fun r i =>
        recrAdd r (newRecord s 0x0003 0x18 (pw i)
          (packW [(0, 0, b2n (s.straps.latched.getD i false)), (1, 1, b2n (levels.getD i false))]))) s.recr)

/-- O5. IMAGE_PAIRING at step 1 verifies the four images, notes the preferred slot and goes to step 2; with no pair that
runs the start is boot-ROM service. The first HOLDUP_GATE_READING opens step 3 and counts the reading: with the
hold-up class open the start ends in boot-ROM service, with enough energy and PFW_N high it goes to step 4, else it
waits. PROOF at step 4, once the power-cycle count is stored, ends with its duration held, and with TESTMODE set the
chip is moored, unless the proof of its fabric over the repair map just loaded (`proofFabric`) holds the chip reset or
sets the fatal latch: then it ends with that. (Completes: IMAGE_PAIRING, HOLDUP_GATE_READING, PROOF.) (R432, R433,
R96, R469, R467, 03_supplies_holdup, 11_start, 12_proof.) -/
def Obligations.StartTimelineToProof : Prop :=
  (∀ s, starting s = true → s.start.step = 1 → Runs .imagePairing s fun t =>
    t.start.step = 2 ∧ t.start.imgs = (rangeFrom 0 4).map (imgResult s.nvm) ∧ t.start.preferred = preferredB s.nvm ∧
    (pairWhy t.start.imgs 0 ≠ 0 → pairWhy t.start.imgs 1 ≠ 0 → t.start.state = .bootService)) ∧
  (∀ s code, s.rst.held = false → s.flt.fatal = false → s.start.state = .starting → s.start.step = 2 → s.pwr.gate = false →
    Runs (.holdupGateReading code) s fun t =>
      (huOpen s = true → t.start.state = .bootService ∧ t.start.step = 3) ∧
      (huOpen s = false → eGate ≤ energyOf s (min 4095 code) → s.pwr.pfwPin = false → t.start.step = 4) ∧
      (huOpen s = false → (energyOf s (min 4095 code) < eGate ∨ s.pwr.pfwPin = true) →
        t.start.step = 3 ∧ t.pwr.gateReads = 1 ∧ t.pwr.gate = false)) ∧
  (∀ s ms lanes keepers tiles rows sram weak slices, starting s = true → s.start.step = 4 → s.pwr.pccStored = true →
    ∃ u, u = proofFabric (let m := mapLoad { s with start := { s.start with step := 5 }, nvm := journalFrom s.nvm }
        { m with prf := { m.prf with nvmSet := m.pwr.powerCycles % 9 } }) lanes keepers ∧
      Runs (.proof ms lanes keepers tiles rows sram weak slices) s fun t =>
        ((u.rst.held = true ∨ u.flt.fatal = true) → t = u) ∧
        (u.rst.held = false → u.flt.fatal = false → t.prf.done = true ∧ t.prf.durMs = min 1023 ms ∧
          (testmode u = true → t.start.state = .moored ∧ t.start.moorWhy = 1)))

/-- O6. KEEPER_START goes to step 6. PLATE_READ reads a slot with the access that PLT_MODE selects and holds the flash
facts, taken once before plate A, and the slot tried; a slot that passes validation is the candidate. ADMISSION admits
the candidate exactly when the calculation of the admission rules (`admitNow`) finds no failing check, and holds its
duration; its re-run decides so over the tiles numbered afresh and notes that it was made. ISLAND_CONFIGURATION goes
to step 10, notes the instant of step 9, and has the front end's grid running and every declared node silent. The
first values and the identities end their waits when all are there or the time has passed. ARMED follows once both
have ended, and notes its instant, from which the persistent pass counts. AUTO_START_ARMED fires a section's rule
once, after its delay: an IDLE section starts unless fog mode or a hard trip found at admission bars it.
KEEPER_VALUE_WRITE notes the writing of every second. (Completes: KEEPER_START, PLATE_READ, ADMISSION,
ADMISSION_RERUN, ISLAND_CONFIGURATION, FIRST_VALUES_TIMEOUT, IDENTITY_CHECK_TIMEOUT, ARMED, AUTO_START_ARMED,
KEEPER_VALUE_WRITE.) (R296, R437, R534, R557, R252, R605, R444, R443, R449, R451, 06_islands, 07_tiles_numbers.) -/
def Obligations.StartTimelineToArmed : Prop :=
  (∀ s bad, s.rst.held = false → s.flt.fatal = false → (s.start.state = .starting ∨ s.start.state = .moored) → s.start.step = 5 →
    s.prf.done = true → Settles (.keeperStart bad) s fun u =>
      u.start.step = 6) ∧
  (∀ s ok e4 a4 op d, starting s = true → testmode s = false → keeperRuns s = true → s.start.step ≤ 8 → s.plt.cand = none →
    s.plt.admitted = false → Runs (.plateRead ok e4 a4 op d) s fun t =>
      let facts := if slotTried s = 0 then ⟨ok && islRuns s 9, e4, a4, op, d⟩ else s.plt.facts
      let words := slotWords (pltAccess s.straps) s.plt.flash (slotTried s)
      t.plt.facts = facts ∧ t.plt.candSlot = slotTried s ∧
      t.plt.cand = if (validatePlate (plateEnv s facts) words).isNone then some (decodePlate words) else none) ∧
  (∀ s ms p, starting s = true → s.start.step = 7 → s.plt.cand = some p → Runs (.admission ms) s fun t =>
    t.plt.admitted = (admitNow s p true).fail.isNone ∧ t.adm.durMs = min 4095 ms) ∧
  (∀ s ms p, starting s = true → s.start.step = 8 → s.plt.admitted = true → s.plt.cand = some p → s.adm.rerun = true →
    s.adm.reran = false → Runs (.admissionRerun ms) s fun t =>
      t.plt.admitted = (admitNow (assignTiles s) p false).fail.isNone ∧ t.adm.reran = true) ∧
  (∀ s, starting s = true → s.start.step = 8 → s.plt.admitted = true → (s.adm.rerun = true → s.adm.reran = true) →
    Settles .islandConfiguration s fun u =>
    u.start.step = 10 ∧ u.start.step9At = s.now ∧ u.fe.grid = true ∧
    u.syn.nodes = s.plt.plate.nodes.foldl (fun (t : Tab NodeSt) c => tset {} t (nodeKey c.bus c.node) { st := 1 }) []) ∧
  (∀ s, starting s = true → 10 ≤ s.start.step → s.start.step10 = false →
    (listsDelivered s = true ∨ s.start.step9At + 1000000 ≤ s.now) → Settles .firstValuesTimeout s fun u => u.start.step10 = true) ∧
  (∀ s, starting s = true → 10 ≤ s.start.step → s.start.step11 = false →
    (nodesSilent s = [] ∨ s.start.step9At + 5000000 ≤ s.now) → Settles .identityCheckTimeout s fun u => u.start.step11 = true) ∧
  (∀ s, starting s = true → 10 ≤ s.start.step → s.start.step10 = true → s.start.step11 = true → Settles .armed s fun u =>
    u.start.state = .armed ∧ u.start.step = 12 ∧ u.start.armedAt = s.now ∧ u.nvm.lastPass = s.now) ∧
  (∀ s n c, sectCfg s n = some c → isArmed s = true → c.auto = 1 → (getSect s n).fired = false →
    s.start.armedAt + c.delayS * 1000000 ≤ s.now → Settles (.autoStartArmed n) s fun u => (getSect u n).fired = true ∧
      ((getSect s n).st = 1 → s.fan.fog = false → tripBars s n = false → (getSect u n).st = 2)) ∧
  (∀ s, keeperWrites s = true → s.start.lastKeeperWrite + 1000000 ≤ s.now → Settles .keeperValueWrite s fun u =>
    u.start.lastKeeperWrite = s.now)

/-- O7. A standing request enters the list with its instant, once. A request that no longer stands leaves it. A decision
step of the armed plant starts the motor chosen at the step before, or is a dead step where its request stands no
more, chooses for the next one, and moves the next step by 100 ms. A start whose channel is proved for two seconds and
its proving time ends, and the motor is supervised. A request older than the plate's wait raises START_STARVED once. A
dip watch ends two seconds after its start, and an unspoiled one that saw a low half cycle is learned. (Completes:
START_REQUEST, START_WITHDRAW, DECISION_STEP, START_END, START_STARVED, DIP_LEARNED.) (R651, R657, R652, R655, R656,
R659, 17_mains_starts.) -/
def Obligations.StartBudgetServesRequests : Prop :=
  (∀ s ch, reqStands s ch = true → s.stb.reqs.any (·.1 == ch) = false → Runs (.startRequest ch) s fun t =>
    t = { s with stb := { s.stb with reqs := s.stb.reqs ++ [(ch, s.now)] } }) ∧
  (∀ s ch, reqStands s ch = false → s.stb.reqs.any (·.1 == ch) = true → Runs (.startWithdraw ch) s fun t =>
    t.stb.reqs = s.stb.reqs.filter (·.1 != ch) ∧ (s.stb.next = some ch → t.stb.next = none ∧ t.stb.dead = true)) ∧
  (∀ s, isArmed s = true → s.stb.stepAt ≤ s.now → Settles .decisionStep s fun u =>
    u.stb.stepAt = s.stb.stepAt + 100000 ∧
    u.stb.next = (if mayDecide (serveStep s) (s.now + 100000) then oldestReq (serveStep s) else none)) ∧
  (∀ s ch, isArmed s = true → s.stb.stepAt ≤ s.now → s.stb.next = some ch → reqStands s ch = true →
    Settles .decisionStep s fun u =>
      (getMot u ch).st = 1 ∧ (getMot u ch).grantAt = s.now ∧ u.stb.lastCh = ch ∧ u.stb.lastAt = some s.now ∧
      u.stb.grants = (s.stb.grants + 1) % 2 ^ 24 ∧ u.stb.reqs = s.stb.reqs.filter (·.1 != ch) ∧
      u.stb.active = s.stb.active.filter (·.1 != ch) ++ [(ch, s.now)]) ∧
  (∀ s ch, isArmed s = true → s.stb.stepAt ≤ s.now → s.stb.next = some ch → reqStands s ch = false →
    Settles .decisionStep s fun u =>
      u.stb.deadCount = min 65535 (s.stb.deadCount + 1) ∧ u.stb.reqs = s.stb.reqs.filter (·.1 != ch)) ∧
  (∀ s ch c, motorCfg s ch = some c → s.stb.active.any (·.1 == ch) = true → (getMot s ch).proved = true →
    (getMot s ch).grantAt + 2000000 ≤ s.now → (getMot s ch).grantAt + c.prove * 100000 ≤ s.now → Settles (.startEnd ch) s fun u =>
      (getMot u ch).superv = true ∧ u.stb.active = s.stb.active.filter (·.1 != ch)) ∧
  (∀ s ch b r, startsCfg s = some b → s.stb.reqs.find? (·.1 == ch) = some r → s.stb.starved.contains ch = false →
    b.waitS * 1000000 < s.now - r.2 → injected s.flt 0x38 = false → Settles (.startStarved ch) s fun u =>
      u.stb.starved = s.stb.starved ++ [ch] ∧ (getSrc u.flt 0x38).uncleared = true) ∧
  (∀ s ch b w low, startsCfg s = some b → s.stb.watches.find? (·.ch == ch) = some w → w.start + 2000000 ≤ s.now → w.low = some low →
    w.spoiled = false → Settles (.dipLearned ch) s fun u =>
      u.stb.watches = s.stb.watches.filter (·.ch != ch) ∧
      tget none u.stb.learned ch = some (newDip b.alpha (dipOf s ch) (max 0 (w.base - low))))

/-- O8. When the word in hand of a bank verifies, and is programmed (no unit that stands written otherwise, no rewrite
overtaken), the array holds it CLEAN at its location and every other word is as before, unless the store ends the
flush of the fatal sequence, which resets the chip. A copy of a row under retirement changes the spare row alone, and
the second copy of its map entry redirects the row. A second program that differs asks for the retirement of the row.
A blank erase pulse leaves every word of its row ERASED and every other word as before; one that is not blank counts.
A bank that exceeds its time raises NVM_TIMEOUT (source 21H) with the bank; a word of the block's own in hand then
waits in the store queue again, where that has room and no other turn of the bank waits. (Completes: WORD_STORE_END,
ERASE_PULSE_END, NVM_TIMEOUT.) (R304, R305, R301, R330, R329, R343, 08_nvm.) -/
def Obligations.StoresCompleteInTheirBanks : Prop :=
  (∀ s bank q x xs, s.rst.held = false → (getBank s.nvm (bank % 4)).hand = some q → q.kind ≠ .erase → q.kind ≠ .read →
    q.words = x :: xs → q.owner ≠ .retireCopy → q.owner ≠ .retireMap → wordOut s.nvm q x false = .programmed →
    Runs (.wordStoreEnd bank false) s fun t => t.rst.held = true ∨ (tget .erased t.nvm.cells x.1 = .clean x.2 ∧
      ∀ l, l ≠ x.1 → tget .erased t.nvm.cells l = tget .erased s.nvm.cells l)) ∧
  (∀ s bank q x r, s.rst.held = false → (getBank s.nvm (bank % 4)).hand = some q → q.kind = .word → q.owner = .retireCopy →
    q.words = [x] → s.nvm.retire = some r → wordOut s.nvm q x false = .programmed →
    Runs (.wordStoreEnd bank false) s fun t => t.rst.held = true ∨ (t.nvm.spareCells = tset .erased s.nvm.spareCells
      (spareKey r.bank r.spare (locWord x.1)) (copyCell s.nvm x.1 (tget .erased s.nvm.cells x.1)) ∧
      t.nvm.cells = s.nvm.cells)) ∧
  (∀ s bank q x r, s.rst.held = false → (getBank s.nvm (bank % 4)).hand = some q → q.kind = .unit → q.owner = .retireMap →
    q.words = [x] → locBank x.1 = 1 → s.nvm.retire = some r → wordOut s.nvm q x false = .programmed →
    Runs (.wordStoreEnd bank false) s fun t => t.rst.held = true ∨
      (tget 0 t.nvm.redirect (locOf r.bank r.row 0) = 1024 + r.spare ∧ t.nvm.retired = true)) ∧
  (∀ s bank q x, s.rst.held = false → (getBank s.nvm (bank % 4)).hand = some q → q.kind = .word → q.words = [x] →
    q.second = true → retiring s.nvm (bank % 4) (locRow x.1) = false → (getBank s.nvm (bank % 4)).spares.length < 32 →
    Runs (.wordStoreEnd bank true) s fun t => t.rst.held = true ∨ (bank % 4, locRow x.1) ∈ t.nvm.retireWait) ∧
  (∀ s bank q e, s.rst.held = false → (getBank s.nvm (bank % 4)).hand = some q → q.kind = .erase →
    (getBank s.nvm (bank % 4)).erase = some e → Runs (.erasePulseEnd bank true) s fun t =>
      ∀ l, tget .erased t.nvm.cells l =
        if l / 512 = locOf (bank % 4) e.row 0 / 512 then .erased else tget .erased s.nvm.cells l) ∧
  (∀ s bank q e, s.rst.held = false → (getBank s.nvm (bank % 4)).hand = some q → q.kind = .erase →
    (getBank s.nvm (bank % 4)).erase = some e → e.pulses < 15 → Runs (.erasePulseEnd bank false) s fun t =>
      (getBank t.nvm (bank % 4)).erase = some { e with pulses := e.pulses + 1 } ∧ t.nvm.cells = s.nvm.cells) ∧
  (∀ s bank, s.rst.held = false → ((getArb s (8 + bank % 4)).owner.isSome = true ∨ bankOwned s (bank % 4) = true) → Raisable s 0x21 →
    Settles (.nvmTimeout bank) s fun u => (getSrc u.flt 0x21).uncleared = true ∧ (getSrc u.flt 0x21).param = pw (bank % 4)) ∧
  (∀ s bank q, s.rst.held = false → (getBank s.nvm (bank % 4)).hand = some q → q.kind = .word → svcStore q = false →
    (getBank s.nvm (bank % 4)).turns = [] → queueTaken s < 64 → s.pwr.waiting = [] → Settles (.nvmTimeout bank) s fun u =>
      storePends u (bank % 4) q.words = true)

/-- O9. Once the gate has passed, a flush step that is over goes to the next one while the warning lasts, and the flush
ends after its last step or with the warning; a step that is not over stays. A retry of the store queue notes its
instant: an entry with too little energy stays and sets REFUSED; a word with enough is passed to its bank, where no
other turn waits. Where a step or a retry completes the flush of the fatal sequence, the chip reset follows instead.
An entry of the queue that has waited ten seconds outside warnings is the cause of HOLDUP_LOW. The operating seconds
are to be stored in the next word of their rotation once 360 s have passed. The persistent pass notes its instant. The
scrubber notes each turn, and a pass longer than a day is the cause of SCRUB_LATE. A retirement takes the lowest spare
row left for the row that has waited longest; one whose spare reads back well goes to step 4, behind the frozen
arbiter of its bank. (Completes: FLUSH_STEP, STORE_QUEUE_RETRY, HOLDUP_LOW, OPERATING_SECONDS_STORE, PERSISTENT_PASS,
SCRUB_READ, SCRUB_LATE, ROW_RETIREMENT.) (R107, R100, R104, R112, R319, R325, R328, R330, 03_supplies_holdup, 08_nvm.) -/
def Obligations.FlushAndQueueGoOn : Prop :=
  (∀ s code k, s.rst.held = false → s.pwr.gate = true → s.pwr.flush = some k → flushOver (senseHoldup s code) k = true →
    (s.pwr.pfw = false ∨ 8 ≤ k) → Runs (.flushStep code) s fun t => t.pwr.flush = none) ∧
  (∀ s code k, s.rst.held = false → s.pwr.gate = true → s.pwr.flush = some k → flushOver (senseHoldup s code) k = true →
    s.pwr.pfw = true → k < 8 → Runs (.flushStep code) s fun t => t.pwr.flush = some (k + 1)) ∧
  (∀ s code k, s.rst.held = false → s.pwr.gate = true → s.pwr.flush = some k → flushOver (senseHoldup s code) k = false →
    Runs (.flushStep code) s fun t => t.pwr.flush = some k ∧ t.pwr.snsCode = min 4095 code) ∧
  (∀ s code x, s.rst.held = false → s.pwr.lastRetry + 1000 ≤ s.now → retryPick (senseHoldup s code) = some x →
    Runs (.storeQueueRetry code) s fun t => t.rst.held = true ∨ t.pwr.lastRetry = s.now) ∧
  (∀ s code x, s.rst.held = false → s.pwr.lastRetry + 1000 ≤ s.now → retryPick (senseHoldup s code) = some x →
    (mayStoreNow s = false ∨ canStore (senseHoldup s code) x = false) →
    Runs (.storeQueueRetry code) s fun t => t.rst.held = true ∨ (t.pwr.refused = true ∧ x ∈ t.pwr.queue)) ∧
  (∀ s code x, s.rst.held = false → s.pwr.lastRetry + 1000 ≤ s.now → retryPick (senseHoldup s code) = some x →
    mayStoreNow s = true → canStore (senseHoldup s code) x = true → x.kind = .word → mapOwner x.owner = false →
    (getBank s.nvm (storeBank x)).turns = [] →
    Runs (.storeQueueRetry code) s fun t => t.rst.held = true ∨ (bankTurns t (storeBank x)).any (·.words == x.words) = true) ∧
  (∀ s, s.rst.held = false → s.pwr.pfw = false → 10000000 ≤ headWait s → injected s.flt 0x26 = false →
    Settles .holdupLow s fun u => (getSrc u.flt 0x26).cause = true) ∧
  (∀ s, keeperRuns s = true → storedOpSec s.nvm + 360 ≤ s.cal.opSec → flushTurns s 2 = false →
    (getBank s.nvm 2).turns = [] → Settles .operatingSecondsStore s fun u =>
      storePends u 2 [(nextRot s.nvm 0 (·.toNat), pw s.cal.opSec)] = true) ∧
  (∀ s, isArmed s = true → s.pwr.pfw = false → s.nvm.lastPass + 900000000 ≤ s.now → Runs .persistentPass s fun t =>
    t.nvm.lastPass = s.now ∧ t.nvm.passed = true) ∧
  (∀ s found, keeperRuns s = true → s.nvm.lastScrub + 400000 ≤ s.now → Runs (.scrubRead found) s fun t =>
    t.nvm.lastScrub = s.now) ∧
  (∀ s, keeperRuns s = true → s.nvm.scrubFrom + 86400 ≤ s.cal.opSec → injected s.flt 0x25 = false →
    Runs .scrubLate s (fun t => t.nvm.late = true) ∧ Settles .scrubLate s (fun u => (getSrc u.flt 0x25).cause = true)) ∧
  (∀ s b row rest k, keeperRuns s = true → s.pwr.pfw = false → s.nvm.retire = none → s.nvm.journaled = [] →
    s.nvm.retireWait = (b, row) :: rest → freeSpare (getBank s.nvm b) = some k → retireBusy s = false → b < 4 →
    Runs (.rowRetirement false) s fun t => t.nvm.retireWait = rest ∧ k ∈ (getBank t.nvm b).spares ∧
      t.nvm.retire.map (fun r => (r.bank, r.row, r.spare, r.step)) = some (b, row, k, 1)) ∧
  (∀ s r, keeperRuns s = true → s.pwr.pfw = false → s.nvm.retire = some r → r.step = 3 → r.reads = 0 → r.bank < 4 →
    retireBusy s = false → s.prf.noMap = false → Runs (.rowRetirement false) s fun t =>
      t.nvm.retire = some { r with step := 4 } ∧ (getArb t (8 + r.bank)).frozen = true)

/-- O10. A word of a packet that crosses a link of its route without error takes the packet one word on there and changes
no link; the last one ends it. With one wrong bit on a lane that the link carries the word is corrected, counted on
the link, and goes on; the lane's 16th correction within an hour raises SPINE_LANE, and with a spare lane left the
keeper freezes the ports and lists the swap. With two or more wrong bits the word poisons its packet, and the last
word of a poisoned packet notes the instant on the route, where the transfer is to be sent once more. A pending lane
swap, once the ports at both ends are drained, steers past the lane, uses a spare and lets the ports go on. A stalled
router port sets the stall flag and raises SPINE_STALL (source 12H) with router and port. The packet that holds it
ends on every link, and its transfer counts as poisoned; a port that no packet holds is released. Where the reaction
of the source resets the spine, every packet ends and the port is idle with it. (Completes: LINK_WORD_TRANSFER,
SPN_LANE_SWAP, SPINE_STALL.) (R172, R173, R208, R209, R210, R174, 05_spine_arbiters.) -/
def Obligations.SpineLinksCorrectAndPoison : Prop :=
  (∀ s d w c, Crosses s d c → w.eraseDups.filter (carries (getLink s d)) = [] →
    s.spn.bad.contains (256 * c.src + c.dst, (crossing s d c).num) = false →
    Runs (.linkWordTransfer d w c.src ⟨c.dst, c.len, c.back⟩) s fun t =>
      getCross t d = wordsLeft (crossing s d c) ∧ t.spn.links = s.spn.links ∧ t.spn.bad = s.spn.bad) ∧
  (∀ s d w c l, Crosses s d c → w.eraseDups.filter (carries (getLink s d)) = [l] →
    s.spn.bad.contains (256 * c.src + c.dst, (crossing s d c).num) = false →
    Runs (.linkWordTransfer d w c.src ⟨c.dst, c.len, c.back⟩) s fun t =>
      getCross t d = wordsLeft (crossing s d c) ∧ (getLink t d).corr = min 65535 ((getLink s d).corr + 1)) ∧
  (∀ s d w c l, Crosses s d c → w.eraseDups.filter (carries (getLink s d)) = [l] →
    s.spn.bad.contains (256 * c.src + c.dst, (crossing s d c).num) = false →
    15 ≤ ((getLink s d).hits.filter (fun h => decide (s.now < h.2 + 3600000000) && h.1 == l)).length →
    Settles (.linkWordTransfer d w c.src ⟨c.dst, c.len, c.back⟩) s fun u => u.spn.lane = true ∧
      (Raisable s 0x14 → (getSrc u.flt 0x14).uncleared = true) ∧
      (lanesUsed s d < 2 → s.spn.swaps.contains (d, l) = false → keeperRuns u = true →
        u.spn.swaps = s.spn.swaps ++ [(d, l)] ∧ ∀ p ∈ linkPorts d, (getArb u p).frozen = true)) ∧
  (∀ s d w c, Crosses s d c → 2 ≤ (w.eraseDups.filter (carries (getLink s d))).length →
    ¬((crossing s d c).left ≤ 1 ∧ lastLink s c = some d) →
    Runs (.linkWordTransfer d w c.src ⟨c.dst, c.len, c.back⟩) s fun t =>
      getCross t d = wordsLeft (crossing s d c) ∧ (256 * c.src + c.dst, (crossing s d c).num) ∈ t.spn.bad) ∧
  (∀ s d w c, Crosses s d c → w.eraseDups.filter (carries (getLink s d)) = [] →
    s.spn.bad.contains (256 * c.src + c.dst, (crossing s d c).num) = true → (crossing s d c).left ≤ 1 → lastLink s c = some d →
    Runs (.linkWordTransfer d w c.src ⟨c.dst, c.len, c.back⟩) s fun t =>
      tget none t.spn.poison (256 * c.src + c.dst) = some s.now) ∧
  (∀ s d w c, Crosses s d c → 2 ≤ (w.eraseDups.filter (carries (getLink s d))).length → (crossing s d c).left ≤ 1 →
    lastLink s c = some d → Runs (.linkWordTransfer d w c.src ⟨c.dst, c.len, c.back⟩) s fun t =>
      tget none t.spn.poison (256 * c.src + c.dst) = some s.now) ∧
  (∀ s x xs, s.spn.swaps = x :: xs → keeperRuns s = true → (linkPorts x.1).all (fun p => drained (getArb s p)) = true →
    Runs .spnLaneSwap s fun t => t.spn.swaps = xs ∧ t.spn.spareLeft = s.spn.spareLeft - 1 ∧
      getLink t x.1 = steer (getLink s x.1) x.2 ∧
      ∀ p ∈ linkPorts x.1, xs.any (fun y => (linkPorts y.1).contains p) = false → (getArb t p).frozen = false) ∧
  (∀ s router port, s.rst.held = false → router < 72 → port < 5 → Runs (.spineStall router port) s fun t =>
    t.spn.stall = true) ∧
  (∀ s router port, s.rst.held = false → router < 72 → 1 ≤ port → port < 5 → packetAt s (256 + 5 * router + port) = none →
    Settles (.spineStall router port) s fun u => (Raisable s 0x12 → (getSrc u.flt 0x12).uncleared = true ∧
        (getSrc u.flt 0x12).param = packW [(14, 8, router), (2, 0, port)]) ∧
      (getArb u (256 + 5 * router + port) = phaseRelease (getArb s (256 + 5 * router + port)) ∨
        (reactHas (cfgOf s.flt 0x12).2 2 = true ∧ (getArb u (256 + 5 * router + port)).owner = none))) ∧
  (∀ s router port c, s.rst.held = false → router < 72 → port < 5 → packetAt s (256 + 5 * router + port) = some c →
    Runs (.spineStall router port) s fun t => t.spn.stall = true ∧ crossLinks t c = [] ∧
      (reactHas (cfgOf s.flt 0x12).2 2 = true ∨ tget none t.spn.poison (256 * c.src + c.dst) = some s.now))

/-- O11. A request at a phase arbiter makes the requester wait or own; a release by the owner ends its turn; a withdrawal
and the end of a dead cycle act as the arbiter's rules say (`phaseRequest` and so on); every other arbiter is
unchanged, but that of the recorder's bank 2, where a waiting read or clear is looked at. A packet through a router
port keeps it. At the arbiter of a bank a turn of the bank may start with it, and the bank's own ports ask by what the
bank holds; so does the SRAM scrub, whose packet ends with its release and is dropped by its withdrawal. A bus
arbiter's turn starts with its prepared choice and prepares the next; a withdrawn choice makes a dead turn. Arbiter 22
(motor starts) hands its requests, turns and withdrawals to the start budget, arbiters 18 to 21 hand withdrawals to
the mailboxes and choose on a request while idle. A scan arbiter takes no request but its lists'. A freeze stops
grants of the arbiter, a release of the freeze lets it go on. A double grant raises ARB_DOUBLE (source 03H) with the
instance. (Completes: ARB_REQUEST, ARB_RELEASE, ARB_TURN_START, ARB_WITHDRAW, DEAD_CYCLE_END, ARB_FREEZE,
ARB_UNFREEZE, ARB_DOUBLE.) (R186, R189, R191, R195, R197, R198, R211, 05_spine_arbiters.) -/
def Obligations.ArbitersFollowTheirRules : Prop :=
  (∀ s n r back, s.rst.held = false → phaseStyle n = true → unassigned n = false → bankPort n r = false →
    sramPort n r = false → Runs (.arbRequest n r back) s fun t => arbHas (getArb t n) r = true ∧ (¬(8 ≤ n ∧ n < 12) →
      getArb t n = phaseRequest (getArb s n) r back ∧ ∀ m, m ≠ n → m ≠ 10 → getArb t m = getArb s m)) ∧
  (∀ s n r back, sramPort n r = true → Idle (.arbRequest n r back) s) ∧
  (∀ s n r back, s.rst.held = false → bankPort n r = true →
    Runs (.arbRequest n r back) s fun t => t = svcStores (bankAsk s (n - 8))) ∧
  (∀ s n r back, s.rst.held = false → 18 ≤ n → n < 22 → onBus (getCan s (n - 18)) = true → (getArb s n).owner = none →
    (getArb s n).next = none → (getArb s n).deadDue = false → (getArb s n).dead = false → Runs (.arbRequest n r back) s fun t =>
      getArb t n = aheadChoose (getArb s n) (mbBest s (n - 18)) (rrNext (mbWaiting s (n - 18) 24 8) (getArb s n).lastBg) ∧
      ∀ m, m ≠ n → getArb t m = getArb s m) ∧
  (∀ s r back, s.rst.held = false → reqStands s r = true → s.stb.reqs.any (·.1 == r) = false →
    Runs (.arbRequest 22 r back) s fun t => t.stb.reqs = s.stb.reqs ++ [(r, s.now)]) ∧
  (∀ s n r back, (unassigned n = true ∨ (phaseStyle n = false ∧ (n < 18 ∨ 22 < n))) → Idle (.arbRequest n r back) s) ∧
  (∀ s n r, s.rst.held = false → phaseStyle n = true → (getArb s n).owner = some r → portBusy s n = false →
    ¬(8 ≤ n ∧ n < 12) → Runs (.arbRelease n r) s fun t => getArb t n = phaseRelease (getArb s n) ∧
      (sramPort n r = false → ∀ m, m ≠ n → m ≠ 10 → getArb t m = getArb s m) ∧
      (sramPort n r = true → t.prf.sramTurns = s.prf.sramTurns.filter (·.1 != n))) ∧
  (∀ s n r, portBusy s n = true → (getArb s n).owner = some r → Idle (.arbRelease n r) s ∧ Idle (.arbWithdraw n r) s) ∧
  (∀ s n r, s.rst.held = false → 8 ≤ n → n < 12 → (getArb s n).owner = some r → bankTurn s n r = none → portBusy s n = false →
    Runs (.arbRelease n r) s fun t => t = svcStores (bankAsk (modArb s n phaseRelease) (n - 8))) ∧
  (∀ s n r q, s.rst.held = false → 8 ≤ n → n < 12 → (getArb s n).owner = some r → bankTurn s n r = some q → q.kind = .read →
    portBusy s n = false → Settles (.arbRelease n r) s fun u => u = svcStores (readEnd s (n - 8) q)) ∧
  (∀ s n, 18 ≤ n → n < 22 → canRuns s (n - 18) = true → onBus (getCan s (n - 18)) = true → (getCan s (n - 18)).pexWait = false →
    (getArb s n).owner = none → (getArb s n).dead = false → ((getArb s n).next.isSome = true ∨ (getArb s n).deadDue = true) →
    Runs (.arbTurnStart n) s fun t => t = canChoose (modArb s n aheadServe) (n - 18)) ∧
  (∀ s n m, 18 ≤ n → n < 22 → canRuns s (n - 18) = true → onBus (getCan s (n - 18)) = true →
    (getCan s (n - 18)).pexWait = false → (getArb s n).owner = none → (getArb s n).dead = false → (getArb s n).frozen = false →
    (getArb s n).next = some m → (getArb s n).deadDue = false → Runs (.arbTurnStart n) s fun t =>
      (getArb t n).owner = some m ∧ (getArb t n).grants = ((getArb s n).grants + 1) % 16777216) ∧
  (∀ s n, 18 ≤ n → n < 22 → canRuns s (n - 18) = true → onBus (getCan s (n - 18)) = true → (getCan s (n - 18)).pexWait = false →
    (getArb s n).owner = none → (getArb s n).dead = false → (getArb s n).frozen = false → (getArb s n).deadDue = true →
    Runs (.arbTurnStart n) s fun t => (getArb t n).dead = true ∧ (getArb t n).deadDue = false ∧
      (getArb t n).deads = min 65535 ((getArb s n).deads + 1)) ∧
  (∀ s, exec (.arbTurnStart 22) s = exec .decisionStep s) ∧
  (∀ s n r, s.rst.held = false → phaseStyle n = true → ¬(8 ≤ n ∧ n < 12) →
    ¬((getArb s n).owner = some r ∧ portBusy s n = true) → Runs (.arbWithdraw n r) s fun t =>
      getArb t n = phaseWithdraw (getArb s n) r ∧ (∀ m, m ≠ n → m ≠ 10 → getArb t m = getArb s m) ∧
      (sramPort n r = true → t.prf.sramTurns = s.prf.sramTurns.filter (·.1 != n))) ∧
  (∀ s n r, s.rst.held = false → 8 ≤ n → n < 12 → bankPort n r = false → Runs (.arbWithdraw n r) s fun t =>
    t = svcStores (bankAsk (modArb s n (fun a => phaseWithdraw a r)) (n - 8))) ∧
  (∀ s n r, s.rst.held = false → bankPort n r = true → bankTurn s n r = none → Runs (.arbWithdraw n r) s fun t =>
    getArb t n = phaseWithdraw (getArb s n) r ∧ ∀ m, m ≠ n → getArb t m = getArb s m) ∧
  (∀ s n r, s.rst.held = false → 18 ≤ n → n < 22 → exec (.arbWithdraw n r) s = exec (.mailboxAbort (n - 18) r) s) ∧
  (∀ s r, s.rst.held = false → exec (.arbWithdraw 22 r) s = exec (.startWithdraw r) s) ∧
  (∀ s n, s.rst.held = false → phaseStyle n = true → ¬(8 ≤ n ∧ n < 12) → Runs (.deadCycleEnd n) s fun t =>
    getArb t n = phaseDeadEnd (getArb s n) ∧ ∀ m, m ≠ n → m ≠ 10 → getArb t m = getArb s m) ∧
  (∀ s n, s.rst.held = false → 8 ≤ n → n < 12 → Runs (.deadCycleEnd n) s fun t =>
    t = svcStores (bankAsk (modArb s n phaseDeadEnd) (n - 8))) ∧
  (∀ s n, s.rst.held = false → 18 ≤ n → n < 22 → (getArb s n).dead = true → Runs (.deadCycleEnd n) s fun t =>
    (getArb t n).dead = false ∧ ∀ m, m ≠ n → getArb t m = getArb s m) ∧
  (∀ s n, keeperRuns s = true → freezable n = true → Runs (.arbFreeze n) s fun t => (getArb t n).frozen = true ∧
    (n < 12 ∨ 22 ≤ n ∨ (getArb s n).frozen = true ∨ (getArb t n).next = none) ∧ ∀ m, m ≠ n → getArb t m = getArb s m) ∧
  (∀ s n, keeperRuns s = true → freezable n = true → (getArb s n).frozen = true → Runs (.arbUnfreeze n) s fun t =>
    (getArb t n).frozen = false ∧ ∀ m, m ≠ n → getArb t m = getArb s m) ∧
  (∀ s n, s.rst.held = false → Raisable s 0x03 → Settles (.arbDouble n) s fun u =>
    (getSrc u.flt 0x03).uncleared = true ∧ (getSrc u.flt 0x03).param = pw n)

/-- O12. For an island that runs, a toggle event counts or changes the level of its toggle; a queue entry enters a queue
with room, waits where the fabric writes to a full one, or sets the overflow flag of a full one, and taking an entry
removes the oldest and lets the oldest waiting one in; a hold-and-flag transfer of at most four words writes them from
the base. Each 10 ms a probe changes the level of the probe toggle of every island that runs and has its clock, and
stops one that runs without a clock. A probe that is not due changes nothing. (The numbers of the probe toggles are
the model's choice, assumption 12.) (Completes: TOGGLE_EVENT, QUEUE_ENTRY, HOLD_AND_FLAG, PROBE.) (R222, R223, R224,
R226, R231, R240, 06_islands.) -/
def Obligations.CrossingsCarryEvents : Prop :=
  (∀ s i n more, s.rst.held = false → i < 10 → islRuns s i = true → Runs (.toggleEvent i n more) s fun t =>
    tget {} t.isl.toggles (islKey i n) = (if more then
      { level := (tget {} s.isl.toggles (islKey i n)).level, counted := min 255 ((tget {} s.isl.toggles (islKey i n)).counted + 1) }
      else { level := !(tget {} s.isl.toggles (islKey i n)).level, counted := (tget {} s.isl.toggles (islKey i n)).counted - 1 }) ∧
    ∀ k, k ≠ islKey i n → tget {} t.isl.toggles k = tget {} s.isl.toggles k) ∧
  (∀ s i n d f w, s.rst.held = false → i < 10 → islRuns s i = true → s.isl.isls.length = 10 → queueOf i n = some (d, f) →
    Settles (.queueEntry i n (some w)) s fun u =>
      ((tget [] s.isl.queues (islKey i n)).length < d →
        tget [] u.isl.queues (islKey i n) = tget [] s.isl.queues (islKey i n) ++ [w]) ∧
      (d ≤ (tget [] s.isl.queues (islKey i n)).length → f = true →
        tget [] u.isl.late (islKey i n) = tget [] s.isl.late (islKey i n) ++ [w]) ∧
      (d ≤ (tget [] s.isl.queues (islKey i n)).length → f = false → (getIsl u i).ovf = true)) ∧
  (∀ s i n d f, s.rst.held = false → i < 10 → islRuns s i = true → queueOf i n = some (d, f) →
    tget [] s.isl.queues (islKey i n) ≠ [] → Runs (.queueEntry i n none) s fun t =>
      tget [] t.isl.queues (islKey i n) =
        (tget [] s.isl.queues (islKey i n)).drop 1 ++ (tget [] s.isl.late (islKey i n)).take 1) ∧
  (∀ s i base words, s.rst.held = false → i < 10 → islRuns s i = true → words.length ≤ 4 → Runs (.holdAndFlag i base words) s fun t =>
    ∀ k < words.length, tget 0#40 t.isl.work (islKey i base + k) = words.getD k 0#40) ∧
  (∀ s, s.rst.held = false → (∀ at_, s.isl.probeAt = some at_ → at_ + 10000 ≤ s.now) →
    s.isl.isls.length = 10 → Settles .probe s fun u => u.isl.probeAt = some s.now ∧ u.isl.xtOk = s.isl.xtOk ∧
      (∀ i < 10, islRuns s i = true → islClock s i = true → (tget {} u.isl.toggles (islKey i (probeToggle i))).level =
        !(tget {} s.isl.toggles (islKey i (probeToggle i))).level) ∧
      (∀ i < 10, islRuns s i = true → islClock s i = false → (getIsl u i).st = 3 ∧ (getIsl u i).tmo = true)) ∧
  (∀ s at_, s.isl.probeAt = some at_ → s.now < at_ + 10000 → Idle .probe s)

/-- O13. A crossing that exceeds its time stops its island, with its flag set, and raises ISL_TIMEOUT (source 0AH). A
reset flush of an island whose clock runs counts and leaves the island at its defaults or configured; without its
clock nothing happens. When the 40 MHz crystal stops, MAIN goes over to an RC oscillator that runs, the switch and the
stop are noted and every controller that was configured leaves the bus; without an RC oscillator, or with MAIN on it
already, the stop alone is noted. A lost RC oscillator is noted and raised (source 11H). A crystal that runs again
shows in XT_OK, and MAIN and the cause of XT40_STOP (source 09H) stay as they are. (Completes: CROSSING_TIMEOUT,
RESET_FLUSH, XT40_STOP, RC_LOST, FAULT_CAUSE_GONE.) (R240, R244, R246, R247, R250, 06_islands.) -/
def Obligations.IslandsStopAndFlush : Prop :=
  (∀ s i, s.rst.held = false → i < 10 → s.isl.isls.length = 10 → (getIsl s i).st ≠ 3 →
    Settles (.crossingTimeout i) s fun u => (getIsl u i).st = 3 ∧ (getIsl u i).tmo = true ∧
      (injected s.flt 0x0A = false → (getSrc u.flt 0x0A).uncleared = true)) ∧
  (∀ s i, s.rst.held = false → i < 10 → s.isl.isls.length = 10 → islClock s i = true → Settles (.resetFlush i) s fun u =>
    (getIsl u i).resets = min 15 ((getIsl s i).resets + 1) ∧ ((getIsl u i).st = 1 ∨ (getIsl u i).st = 2)) ∧
  (∀ s i, islClock s i = false → Idle (.resetFlush i) s) ∧
  (∀ s, s.rst.held = false → s.isl.xtOk = true → s.isl.rcOk = true → s.isl.onRc = false → Settles .xt40Stop s fun u =>
    u.isl.xtOk = false ∧ u.isl.onRc = true ∧ u.isl.switched = true ∧ u.isl.xtStops = min 255 (s.isl.xtStops + 1) ∧
      ∀ n < 4, (getCan s n).st ≠ 0 → (getCan u n).st = 4 ∨ (getCan u n).st = 7) ∧
  (∀ s, s.rst.held = false → s.isl.xtOk = true → (s.isl.rcOk = false ∨ s.isl.onRc = true) → Settles .xt40Stop s fun u =>
    u.isl.xtOk = false ∧ u.isl.onRc = s.isl.onRc ∧ u.isl.xtStops = min 255 (s.isl.xtStops + 1)) ∧
  (∀ s, s.rst.held = false → s.isl.xtOk = true → s.isl.rcOk = true → Settles .rcLost s fun u =>
    u.isl.rcOk = false ∧ (injected s.flt 0x11 = false → (getSrc u.flt 0x11).uncleared = true)) ∧
  (∀ s, s.rst.held = false → injected s.flt 0x09 = false → Settles (.faultCauseGone 0x09) s fun u =>
    u.isl.xtOk = true ∧ u.isl.onRc = s.isl.onRc ∧ ((getSrc s.flt 0x09).cause = true → (getSrc u.flt 0x09).cause = true))

/-- O14. A tick of the running tiles begins the next minor frame (number 0 first) and notes its instant; while the tiles
idle, a tick is noted and ends the background segment that each healthy logical tile has run since the tick before, if
there was one. A tick that does not come within 55 ms sets the chain and raises FRAME_TICK_LOST (source 0BH), and a
chain boundary begins the next frame; the first tick of the configured island ends the chain. A tick within 49 ms of
the last one changes nothing. An entry of the frame in hand runs on a healthy tile whose copy of the cycle table
matches its CRC, so that the next entry of that tile follows. (Completes: MINOR_FRAME_TICK, FRAME_TICK_LOST,
CHAIN_FRAME_BOUNDARY, TASK_ENTRY.) (R265, R292, R266, R288, R482, 07_tiles_numbers, 12_proof.) -/
def Obligations.MinorFramesAdvance : Prop :=
  (∀ s, islRuns s 5 = true → (s.eng.framesOn = true → s.eng.chain = false → s.eng.lastTick + 49000 ≤ s.now) → tilesIdle s = true →
    Runs .minorFrameTick s fun t => t.eng.lastTick = s.now ∧ t.eng.frames = s.eng.frames ∧
      ∀ p < 72, (getTile t p).bg = (getTile s p).bg + (if s.eng.lastTick ≠ 0 ∧ p ∈ bgTiles s then 1 else 0)) ∧
  (∀ s, islRuns s 5 = true → (s.eng.framesOn = true → s.eng.lastTick + 49000 ≤ s.now) → tilesRun s = true → s.eng.chain = false →
    Settles .minorFrameTick s fun u => u.eng.lastTick = s.now ∧ u.eng.framesOn = true ∧
      u.eng.frames = (if s.eng.framesOn then s.eng.frames + 1 else 0)) ∧
  (∀ s, (getIsl s 5).st = 2 → tilesRun s = true → s.eng.chain = true → Settles .minorFrameTick s fun u =>
    u.eng.chain = false ∧ u.eng.lastTick = s.now ∧ u.eng.frames = (if s.eng.framesOn then s.eng.frames + 1 else 0)) ∧
  (∀ s, s.eng.framesOn = true → s.eng.chain = false → s.now < s.eng.lastTick + 49000 → Idle .minorFrameTick s) ∧
  (∀ s, tilesRun s = true → s.eng.framesOn = true → s.eng.chain = false → s.eng.lastTick + 55000 ≤ s.now →
    Settles .frameTickLost s fun u => u.eng.chain = true ∧
      (injected s.flt 0x0B = false → (getSrc u.flt 0x0B).uncleared = true)) ∧
  (∀ s, tilesRun s = true → s.eng.chain = true → s.eng.lastTick + 47500 ≤ s.now → Settles .chainFrameBoundary s fun u =>
    u.eng.lastTick = s.now ∧ u.eng.frames = (if s.eng.framesOn then s.eng.frames + 1 else 0)) ∧
  (∀ s t f p, (getLt s t).frame = some f → physOf s t = some p → tilesRun s = true → (getTile s p).st = 0 →
    tableOk s t p = true → (getLt s t).lost = false → s.prf.loads.any (fun l => l.logical == t) = false → (getLt s t).ran + 1 < (entriesAt s t f).length →
    (∀ e, (entriesAt s t f)[(getLt s t).ran]? = some e → (s.plt.plate.tasks.find? (·.task == e.task)).isSome = true) →
    Settles (.taskEntry t 0) s fun u => (getLt u t).ran = (getLt s t).ran + 1)

/-- O15. With three voters, three equal packets change nothing, one that differs is a miscompare of its tile, which leaves
the vote; three different ones split the keeper; a late third packet counts by the two that came. A keeper tile comes
back to the vote, where no migration delays it, at the next major-frame boundary (at once while no minor frame has
run, the model's choice, assumption 45) when it holds, else it is retired. A tile that fails its runtime check goes to
state 4. Where it holds its cycle table a load of a spare for its logical tile follows or, without a spare, its loss;
in step 8 after the second admission run that waits for the arming, and in any other state before the tables it
retires and loses its logical number. A spare that fails its test is retired; the end of a migration load takes it off
the list and gives the spare the logical tile with its table. The shared-SRAM scrub goes on by one packet each 10 ms
and asks at every bank where it asks for none yet; the end of its turn there notes the bad rows found. (Completes:
KEEPER_PACKET_VOTE, VOTE_TIMEOUT, KEEPER_TILE_RETURN, RUNTIME_CHECK_FAIL, MIGRATION_LOAD_END, SPARE_TILE_TEST_FAIL,
SHARED_SRAM_SCRUB, ARB_RELEASE.) (R260, R262, R289, R481, R482, R484, R489, 07_tiles_numbers, 12_proof.) -/
def Obligations.KeeperVotesAndTilesFail : Prop :=
  (∀ s port w x y, keeperRuns s = true → voters s = [0, 1, 2] → x ≠ w → y ≠ w → x ≠ y →
    Settles (.keeperPacketVote port [(0, w), (1, w), (2, w)]) s (fun u => u = s) ∧
    Settles (.keeperPacketVote port [(0, w), (1, w), (2, x)]) s (fun u => u = miscompare s 2 port ∧ u.eng.voting.getD 2 true = false) ∧
    Settles (.keeperPacketVote port [(0, w), (1, x), (2, w)]) s (fun u => u = miscompare s 1 port ∧ u.eng.voting.getD 1 true = false) ∧
    Settles (.keeperPacketVote port [(0, x), (1, w), (2, w)]) s (fun u => u = miscompare s 0 port ∧ u.eng.voting.getD 0 true = false) ∧
    Settles (.keeperPacketVote port [(0, w), (1, x), (2, y)]) s (fun u => u = keeperSplit s)) ∧
  (∀ s port w x, keeperRuns s = true → voters s = [0, 1, 2] → x ≠ w →
    Settles (.voteTimeout port [(0, w), (1, w)]) s (fun u => u = miscompare s 2 port ∧ u.eng.voting.getD 2 true = false) ∧
    Settles (.voteTimeout port [(0, w), (1, x)]) s (fun u => u = keeperSplit s)) ∧
  (∀ s k ok, keeperRuns s = true → k < 3 → s.eng.voting.getD k true = false → s.eng.kRetired.getD k false = false →
    s.prf.loads = [] → (s.eng.framesOn = true → s.eng.frames % 1200 = 0 ∧ ∀ g, s.eng.leftIn.getD k none = some g → g < s.eng.frames) →
    Settles (.keeperTileReturn k ok) s fun u => u.eng.voting = listSet s.eng.voting k ok ∧
      (ok = false → u.eng.kRetired = listSet s.eng.kRetired k true ∧
        (injected s.flt 0x0E = false → (getSrc u.flt 0x0E).uncleared = true))) ∧
  (∀ s k ok, s.eng.framesOn = true → s.eng.frames % 1200 ≠ 0 → Idle (.keeperTileReturn k ok) s) ∧
  (∀ s t p pub, keeperRuns s = true → s.prf.done = true → (getLt s t).lost = false →
    s.prf.loads.find? (fun l => l.logical == t) = none → physOf s t = some p →
    s.adm.late.contains t = false → Settles (.runtimeCheckFail t pub) s fun u => (getTile u p).st = 4 ∧
      (tablesHeld s = true → s.start.step ≠ 8 → (∃ q, q ∈ sparesLeft s ∧ q ≠ p) → ∃ l ∈ u.prf.loads, l.logical = t ∧ l.retired = p) ∧
      (tablesHeld s = true → s.start.step ≠ 8 → sparesLeft s = [] → (getLt u t).lost = true) ∧
      (tablesHeld s = true → s.start.step = 8 → s.adm.reran = true → t ∈ u.adm.late) ∧
      (tablesHeld s = false → (getTile u p).logical = 127)) ∧
  (∀ s l ls, s.prf.loads = l :: ls → keeperRuns s = true → l.retired ≠ l.spare → Settles .migrationLoadEnd s fun u =>
    u.prf.loads = ls ∧ u.prf.migCount = min 255 (s.prf.migCount + 1) ∧ (getTile u l.spare).logical = l.logical ∧
    (getTile u l.spare).st = 0 ∧ (getTile u l.spare).crc = tget 0 s.adm.crcs l.logical ∧ (getTile u l.retired).logical = 127) ∧
  (∀ s p, keeperRuns s = true → (sparesLeft s).contains p = true → Settles (.spareTileTestFail p) s fun u =>
    (getTile u p).st = 4 ∧ (getTile u p).logical = 127) ∧
  (∀ s bad, keeperRuns s = true → (∀ at_, s.prf.sramScrubAt = some at_ → at_ + 10000 ≤ s.now) →
    Runs (.sharedSramScrub bad) s fun t => t.prf.sramScrub = (s.prf.sramScrub + 1) % 2048 ∧ t.prf.sramScrubAt = some s.now ∧
      ∀ b < 8, arbHas (getArb s b) portSram = false →
        arbHas (getArb t b) portSram = true ∧ (b, bad.filter (fun r => r / 128 == b)) ∈ t.prf.sramTurns) ∧
  (∀ s n e, s.rst.held = false → n < 8 → (getArb s n).owner = some portSram → e ∈ s.prf.sramTurns → e.1 = n →
    Runs (.arbRelease n portSram) s fun t => ∀ row ∈ e.2, row < 1024 → row ∈ t.prf.sramNoted) ∧
  (∀ s bad at_, s.prf.sramScrubAt = some at_ → s.now < at_ + 10000 → Idle (.sharedSramScrub bad) s)

/-- O16. A source with rails whose cause is absent becomes uncleared and unacknowledged with its parameter and a unit that
Table 9-6 gives it, unless an injection replaces its rails or it resets the chip at once. A broken line holds its
source asserted and raises LINE_BREAK (source 00H) with its number, unless that is injected or stands acknowledged
with its cause present. A cause that is gone, whose line has not been broken for the last second and that no unit
upholds, is no longer present. (Completes: FAULT_RAISE, LINE_BREAK, FAULT_CAUSE_GONE.) (R349, R350, R355, R358, R379,
R386, 09_faults, 10_recorder.) -/
def Obligations.UnitsRaiseAndClearSources : Prop :=
  (∀ s n p q, s.rst.held = false → isSrc n = true → noRails n = false → fatalAtOnce n = false → injected s.flt n = false →
    srcUnit n q = true → (getSrc s.flt n).cause = false → Settles (.faultRaise n p q) s fun u =>
      (getSrc u.flt n).uncleared = true ∧ (getSrc u.flt n).acked = false ∧ (getSrc u.flt n).param = p ∧
      (getSrc u.flt n).unit = q) ∧
  (∀ s n, s.rst.held = false → isSrc n = true → noRails n = false → fatalAtOnce n = false → injected s.flt n = false →
    (getSrc s.flt n).broken = false → Settles (.lineBreak n) s fun u =>
      (getSrc u.flt n).broken = true ∧ (getSrc u.flt n).cause = true ∧
      (Raisable s 0x00 → (getSrc u.flt 0x00).uncleared = true ∧ (getSrc u.flt 0x00).param = pw n)) ∧
  (∀ s n, s.rst.held = false → isSrc n = true → noRails n = false → injected s.flt n = false →
    ((getSrc s.flt n).broken = true → (getSrc s.flt n).brokenAt + 1000000 ≤ s.now) →
    causeStands (unitRecovers (lineMended s n) n) n = false → Settles (.faultCauseGone n) s fun u => (getSrc u.flt n).cause = false)

/-- O17. One second after the fatal latch, and when a chip-reset reaction or a restart is due, the collector resets the
chip (holder 6) and the fatal latch stays. COLLECTOR_SELF, whose class is Fatal, makes a fresh raise that latches its
source and parameter and resets the chip at once, unless a fatal fault is latched or an injection replaces it. In
fatal service the record of the fatal fault, alone, is put into a chunk once the energy suffices, a sector is there
for it and no HU_CLASS ball is open, and REFUSED is set while the energy does not. (Completes: FATAL_RESET_TIMEOUT,
CHIP_RESET_REACTION, COLLECTOR_SELF, FATAL_MIRROR_STORE.) (R354, R360, R361, R378, R980, 09_faults, 25_service.) -/
def Obligations.FatalResetsFollow : Prop :=
  (∀ s a, s.flt.fatalAt = some a → s.rst.held = false → a + 1000000 ≤ s.now → Runs .fatalResetTimeout s fun t =>
    t.rst.held = true ∧ t.rst.holders = [6] ∧ t.flt.fatal = s.flt.fatal ∧ t.flt.fatalSrc = s.flt.fatalSrc) ∧
  (∀ s, s.rst.held = false → resetDue s = true → Runs .chipResetReaction s fun t =>
    t.rst.held = true ∧ t.rst.holders = [6] ∧ t.flt.fatal = s.flt.fatal) ∧
  (∀ s p, s.rst.held = false → s.flt.fatal = false → Raisable s 0x05 → (cfgOf s.flt 0x05).1 = .fatal →
    ((getSrc s.flt 0x05).uncleared = false ∨ (getSrc s.flt 0x05).acked = true) → Runs (.collectorSelf p) s fun t =>
      t.rst.held = true ∧ t.rst.holders = [6] ∧ t.flt.fatal = true ∧ t.flt.fatalSrc = 0x05 ∧ t.flt.fatalParam = p) ∧
  (∀ s code, s.rst.held = false → s.start.state = .fatalService → s.flt.fatalRecorded = false → s.recr.chunk = none →
    huOpen s = false → canStore (senseHoldup s code) chunkStore = true → (fatalSector (senseHoldup s code)).isSome = true →
    Runs (.fatalMirrorStore code) s fun t => ∃ c, t.recr.chunk = some c ∧ c.recs.map (·.2.2) = [fatalRecord s]) ∧
  (∀ s code, s.rst.held = false → s.start.state = .fatalService → s.flt.fatalRecorded = false → s.recr.chunk = none →
    huOpen s = false → canStore (senseHoldup s code) chunkStore = false → Runs (.fatalMirrorStore code) s fun t =>
      t.pwr.refused = true ∧ t.recr.chunk = none)

/-- O18. A kick inside the window restarts it, and no plant response waits any longer. A kick outside it, and the end of
the window, are expiries: each counts in its 3 600 s, and the keeper is hung from then. One millisecond later the
first two of them reset the chip as holder 5, and the third latches WDOG_FATAL (source 01H, where its class is Fatal,
it is raised afresh and nothing is latched) and resets it. The beacon changes every 250 ms while the keeper runs
without a severe fault, and is off otherwise. (Completes: WATCHDOG_KICK, WDOG_EXPIRY, BEACON_TOGGLE.) (R363, R364,
R365, R380, 09_faults.) -/
def Obligations.WatchdogAndBeacon : Prop :=
  (∀ s, wdogRuns s = true → s.flt.earlyMs * 1000 ≤ s.now - s.flt.wdogKick → s.now - s.flt.wdogKick < s.flt.lateMs * 1000 →
    Settles .watchdogKick s fun u => u.flt.wdogKick = s.now ∧ u.flt.hungAt = none ∧ ∀ n < 0x60, (getSrc u.flt n).waits = false) ∧
  (∀ s, wdogRuns s = true → (s.now - s.flt.wdogKick < s.flt.earlyMs * 1000 ∨ s.flt.lateMs * 1000 ≤ s.now - s.flt.wdogKick) →
    Settles .watchdogKick s fun u => u.flt.hungAt = some s.now ∧ u.flt.expiryDue = true ∧ u.rst.held = false ∧
      u.flt.expiries = (if s.flt.expiries = 0 ∨ s.flt.expiryTick + 3600 < s.cal.ticks then 1 else s.flt.expiries + 1)) ∧
  (∀ s, wdogRuns s = true → s.flt.wdogKick + s.flt.lateMs * 1000 ≤ s.now → Settles .wdogExpiry s fun u =>
    u.flt.hungAt = some s.now ∧ u.flt.expiryDue = true ∧ u.rst.held = false ∧
      u.flt.expiries = (if s.flt.expiries = 0 ∨ s.flt.expiryTick + 3600 < s.cal.ticks then 1 else s.flt.expiries + 1)) ∧
  (∀ s a, s.flt.hungAt = some a → s.rst.held = false → a + 1000 ≤ s.now → s.flt.expiries < 3 → Runs .wdogExpiry s fun t =>
    t.rst.held = true ∧ t.rst.holders = [5] ∧ t.flt.expiries = s.flt.expiries) ∧
  (∀ s a, s.flt.hungAt = some a → s.rst.held = false → a + 1000 ≤ s.now → 3 ≤ s.flt.expiries → s.flt.fatal = false →
    Raisable s 0x01 → (cfgOf s.flt 0x01).1 = .fatal →
    ((getSrc s.flt 0x01).uncleared = false ∨ (getSrc s.flt 0x01).acked = true) → Runs .wdogExpiry s fun t =>
      t.rst.held = true ∧ t.rst.holders = [5] ∧ t.flt.fatal = true ∧ t.flt.fatalSrc = 0x01) ∧
  (∀ s, beaconRuns s = true → s.flt.beaconAt + 250000 ≤ s.now → Runs .beaconToggle s fun t =>
    t = { s with flt := { s.flt with beacon := !s.flt.beacon, beaconAt := s.now } }) ∧
  (∀ s, beaconRuns s = false → Runs .beaconToggle s fun t => t = { s with flt := { s.flt with beacon := false } })

/-- O19. A record of an event code, with a unit and parameters that the tables give it, enters the buffer behind the
others with the operating seconds, power-cycle count and parameters, unless the newest record takes it as a repeat or
the buffer is full. An hour after the oldest record a flush begins. While no refused chunk and no clear waits: a flush
with nothing left ends; the chunk that a flush wants is taken once the ahead sector has been checked, is erased if the
chunk needs it, and the energy suffices; and a chunk without the energy, or before the hold-up gate has passed, is
refused. The last word of the chunk in hand ends the chunk: the word is in the array and every other is as before.
(Completes: RECORD_CREATE, OLDEST_RECORD_TIMEOUT, CHUNK_START, CHUNK_STORE_END.) (R384, R386, R394, R395, R396, R397,
R393, R100, R411, R424, R1010, 03_supplies_holdup.) -/
def Obligations.RecordsReachTheArray : Prop :=
  (∀ s code unit a b, s.rst.held = false → isEventCode code = true → eventUnit code unit a = true → eventParams code a b = true →
    code ≠ 0x000A → s.recr.buf.length < 256 → (∀ y, s.recr.buf.getLast? = some y → isRepeat y code unit a b = false) →
    s.recr.dropSince = 0 → Runs (.recordCreate code unit a b) s fun t => t.recr.buf = s.recr.buf ++ [newRecord s code unit a b]) ∧
  (∀ s x xs, s.recr.buf = x :: xs → s.rst.held = false → x.at_ + 3600000000 ≤ s.now → Runs .oldestRecordTimeout s fun t =>
    t = { s with recr := { s.recr with flushing := true } }) ∧
  (∀ s code, chunkMay s = true → s.recr.flushing = true → chunkQueued s = false → s.recr.clears = [] → s.recr.buf = [] →
    Runs (.chunkStart code) s fun t => t.recr.flushing = false ∧ t.recr.chunk = none) ∧
  (∀ s code x xs, chunkMay s = true → s.recr.flushing = true → chunkQueued s = false → s.recr.clears = [] →
    chunkFrom s = x :: xs → s.recr.aheadChecked = true → (sectorFull s = true → s.recr.aheadOk = true) → mayStoreNow s = true →
    canStore (senseHoldup s code) chunkStore = true → Runs (.chunkStart code) s fun t => t.recr.chunk.isSome = true) ∧
  (∀ s code x xs, chunkMay s = true → s.recr.flushing = true → chunkQueued s = false → s.recr.clears = [] →
    chunkFrom s = x :: xs → s.recr.aheadChecked = true →
    (mayStoreNow s = false ∨ canStore (senseHoldup s code) chunkStore = false) →
    Runs (.chunkStart code) s fun t => t.recr.chunk = none ∧ t.pwr.refused = true) ∧
  (∀ s q x, s.rst.held = false → s.recr.chunk.isSome = true → s.flt.fatalAt = none → (getBank s.nvm 2).hand = some q →
    q.kind = .chunk → q.owner = .chunk → q.words = [x] → q.second = false → s.recr.clears = [] → locBank x.1 = 2 → wordOut s.nvm q x false = .programmed →
    (getBank s.nvm 2).turns = [] → s.pwr.queue = [] → s.pwr.waiting = [] → Runs .chunkStoreEnd s fun t =>
      t.recr.chunk = none ∧ tget .erased t.nvm.cells x.1 = .clean x.2 ∧
      ∀ l, l ≠ x.1 → tget .erased t.nvm.cells l = tget .erased s.nvm.cells l)

/-- O20. The oldest sample of the queue is taken, and while the front end runs the value of one that is in no pair and not
forced is written at this instant. A pair whose disagreement has lasted its limit disagrees and raises PAIR_DISAGREE
(source 2BH); agreement as long ends it. A switch is evaluated on its source. The age check notes the values that have
passed their limits. (Completes: SAMPLE_PROCESSING, PAIR_DISAGREE, PAIR_DISAGREE_END, SWITCH_DELAY_EXPIRY, AGE_CHECK.)
(R607, R621, R622, R626, R620, 16_fe_values.) -/
def Obligations.SamplesBecomeValues : Prop :=
  (∀ s x xs, s.fe.conv = x :: xs → Runs .sampleProcessing s fun t => t.fe.conv = xs) ∧
  (∀ s x xs c v, s.fe.conv = x :: xs → frontOn s = true → scanCfg s x.value = some c → valCfg s x.value = some v →
    pairIdx s x.value = none → (getVal s x.value).forced = false → Settles .sampleProcessing s fun u =>
      (getVal u x.value).at_ = some s.now) ∧
  (∀ s k p, s.plt.plate.pairs[k]? = some p → frontOn s = true → (getPair s k).run = true → (getPair s k).dis = false →
    p.limitMs * 1000 ≤ timerUs s.now (getPair s k) → injected s.flt 0x2B = false → Settles (.pairDisagree k) s fun u =>
      (getPair u k).dis = true ∧ (getPair u k).run = false ∧ (getSrc u.flt 0x2B).uncleared = true) ∧
  (∀ s k p, s.plt.plate.pairs[k]? = some p → frontOn s = true → (getPair s k).run = true → (getPair s k).dis = true →
    p.limitMs * 1000 ≤ timerUs s.now (getPair s k) → Settles (.pairDisagreeEnd k) s fun u =>
      (getPair u k).dis = false ∧ (getPair u k).run = false) ∧
  (∀ s n c, swCfg s n = some c → frontOn s = true → Settles (.switchDelayExpiry n) s fun u =>
    getSw u c.sw = swStep s.now c (getSw s c.sw) (seenVal s c.source)) ∧
  (∀ s, frontOn s = true → Settles .ageCheck s fun u => u.sw.seen = agedOut s)

/-- O21. At the boundary of its last turn the entry in hand delivers its sample, with the code of its reading, the flags
of overrange, pin monitors, source, reference and amplitude, and the turn. An aborted entry delivers none and leaves a
dead turn; a choice that was withdrawn leaves one too. A list between entries begins the entry chosen, or chooses the
next. A calibration that ends within its limits gives its slice the new corrections, and one that does not retires the
slice; one made under a faulty reference ends without either. A rotation that is due puts an outgoing and an incoming
slice into overlap; once it is ready the handover, at an entry boundary, gives the list to the incoming slice and is
counted. A stalled slice is retired. A blanking trigger is asserted with its end, blanks the entries that name it
while the front end converts, and ends. A value blanked too long goes stale and raises BLANK_LIMIT (2CH). An
excitation fault is noted with its measurement, and raised (30H) if it is new; a reference fault is noted, and the
cause of VREF_FAULT (31H) is present. (Completes: SLICE_TURN_BOUNDARY, CALIBRATION_END, ROTATION_FIRING,
ROTATION_HANDOVER, MODULATOR_STALL, BLANK_TRIGGER_ASSERT, BLANK_TRIGGER_END, BLANK_LIMIT, EXC_FAULT, VREF_FAULT.)
(R578, R579, R580, R582, R583, R584, R585, R603, R589, R591, R601, R602.) -/
def Obligations.SlicesTurnRotateAndFail : Prop :=
  (∀ s l n e c code code2 ovr lo hi vexc, listSlice s l = some n → convOn s = true → (getSlice s n).calKind = none →
    (getList s l).cur = some e → (getList s l).aborted = false → (getList s l).lastTurn ≤ turnNow s → scanCfg s e = some c →
    s.fe.conv.length < 256 → Settles (.sliceTurnBoundary l code code2 ovr lo hi vexc) s fun u =>
      ∃ x, u.fe.conv = s.fe.conv ++ [x] ∧ x.value = e ∧ x.list = l ∧ x.slice = n ∧ x.code = (codeOf s c n code vexc).1 ∧
        x.ovr = (ovr || (codeOf s c n code vexc).2) ∧ x.pinLo = decide (lo < 100000) ∧
        x.pinHi = (decide (hi > 4000000) || drivenHigh s c ((getList s l).lastTurn - convTurns c.odr) (convTurns c.odr)) ∧
        x.exc = excInWindow s c (getList s l) ∧ x.ref = refInWindow s (getList s l) ∧
        x.ampLo = (c.cap && decide (vexc < 2250000)) ∧ x.endT = (getList s l).lastTurn % 2 ^ 32) ∧
  (∀ s l n e code code2 ovr lo hi vexc, listSlice s l = some n → convOn s = true → (getSlice s n).calKind = none →
    (getList s l).cur = some e → (getList s l).aborted = true → Settles (.sliceTurnBoundary l code code2 ovr lo hi vexc) s fun u =>
      (getList u l).cur = none ∧ (getList u l).dead = true ∧ u.fe.conv = s.fe.conv) ∧
  (∀ s l n code code2 ovr lo hi vexc, listSlice s l = some n → convOn s = true → (getSlice s n).calKind = none →
    (getList s l).cur = none → (getList s l).lastTurn ≤ turnNow s → listFrozen s l = false → (getList s l).wd = true →
    Settles (.sliceTurnBoundary l code code2 ovr lo hi vexc) s fun u =>
      (getList u l).cur = none ∧ (getList u l).dead = true ∧ u.fe.conv = s.fe.conv) ∧
  (∀ s l n e c code code2 ovr lo hi vexc, listSlice s l = some n → convOn s = true → (getSlice s n).calKind = none →
    (getList s l).cur = none → (getList s l).lastTurn ≤ turnNow s → listFrozen s l = false → (getList s l).wd = false →
    choiceAt s l (getList s l) = some e → valueBlanked s e = false → scanCfg s e = some c →
    Settles (.sliceTurnBoundary l code code2 ovr lo hi vexc) s fun u =>
      (getList u l).cur = some e ∧ (getList u l).lastTurn = turnNow s + entryTurns c ∧ u.fe.conv = s.fe.conv) ∧
  (∀ s l n code code2 ovr lo hi vexc, listSlice s l = some n → convOn s = true → (getSlice s n).calKind = none →
    (getList s l).cur = none → (getList s l).lastTurn ≤ turnNow s → listFrozen s l = false → (getList s l).wd = false →
    choiceAt s l (getList s l) = none → Settles (.sliceTurnBoundary l code code2 ovr lo hi vexc) s fun u =>
      (getList u l).cur = none ∧ (getList u l).next = chooseNext s l (getList s l).pos ∧ u.fe.conv = s.fe.conv) ∧
  (∀ s n k offs gains ref, s.fe.slices.length = 6 → n < 6 → (getSlice s n).calKind = some k → convOn s = true → refOk ref = true →
    Settles (.calibrationEnd n offs gains ref) s fun u => (getSlice u n).calKind = none ∧
      (calSpoilt s n = false → (getSlice u n).off = (rangeFrom 0 8).map (fun g => offs.getD g 0) ∧
        (getSlice u n).gain = (rangeFrom 0 8).map (fun g => gains.getD g 0))) ∧
  (∀ s n k offs gains ref, s.fe.slices.length = 6 → n < 6 → (getSlice s n).calKind = some k → convOn s = true → refOk ref = false →
    calSpoilt s n = false → Settles (.calibrationEnd n offs gains ref) s fun u => (getSlice u n).st = 5) ∧
  (∀ s n k offs gains ref, s.fe.slices.length = 6 → n < 6 → (getSlice s n).calKind = some k → convOn s = true → calSpoilt s n = true →
    Settles (.calibrationEnd n offs gains ref) s fun u => (getSlice u n).calKind = none ∧ (getSlice u n).off = (getSlice s n).off ∧
      (getSlice u n).gain = (getSlice s n).gain) ∧
  (∀ s i o, convOn s = true → s.fe.rotOn = true → s.plt.plate.rotateS ≠ 0 → s.fe.rotAt + s.plt.plate.rotateS * 1000000 ≤ s.now →
    s.fe.overlap = none → s.fe.slices.length = 6 → (rangeFrom 0 6).find? (fun n => (getSlice s n).st == 2) = some i →
    outgoing s = some o → Settles .rotationFiring s fun u => u.fe.overlap = some { out := o, inc := i } ∧
      (getSlice u o).st = 4 ∧ (getSlice u i).st = 3 ∧ u.fe.rotAt = s.fe.rotAt + s.plt.plate.rotateS * 1000000) ∧
  (∀ s o, s.fe.overlap = some o → o.ready = true → atBoundary s (getSlice s o.out).list = true →
    Settles .rotationHandover s fun u => u.fe.overlap = none ∧
      u.fe.handovers = (s.fe.handovers + 1) % 65536 ∧ u.fe.lastOut = o.out ∧ u.fe.lastIn = o.inc ∧
      (s.fe.slices.length = 6 → o.out < 6 → o.inc < 6 → o.out ≠ o.inc → (getSlice u o.inc).st = 0 ∧
        (getSlice u o.inc).list = (getSlice s o.out).list ∧ (getSlice u o.out).list = 7 ∧
        (getSlice u o.out).calKind = some 1)) ∧
  (∀ s o, s.fe.overlap = some o → (o.ready = false ∨ atBoundary s (getSlice s o.out).list = false) → Idle .rotationHandover s) ∧
  (∀ s n, s.fe.slices.length = 6 → n < 6 → convOn s = true → (getSlice s n).st ≠ 5 →
    Settles (.modulatorStall n) s fun u => (getSlice u n).st = 5) ∧
  (∀ s k, s.rst.held = false → k < 7 → (k < 4 → ballHeard s (.blank k) = true) → s.fe.trig.length = 7 → s.fe.trigEnd.length = 7 →
    convOn s = false → Runs (.blankTriggerAssert k) s fun t =>
      t.fe.trig.getD k false = true ∧ t.fe.trigEnd.getD k 0 = s.now + trigUs k) ∧
  (∀ s k, s.rst.held = false → k < 7 → (k < 4 → ballHeard s (.blank k) = true) → s.fe.trig.length = 7 → s.fe.trigEnd.length = 7 →
    convOn s = true → Settles (.blankTriggerAssert k) s fun u =>
      u.fe.trig.getD k false = true ∧ u.fe.trigEnd.getD k 0 = s.now + trigUs k ∧
      ∀ c ∈ s.plt.plate.scans, bitsN c.blankMask k k = 1 → (tget none u.fe.blankSince c.value).isSome = true) ∧
  (∀ s k, k < 7 → (k < 4 ∨ s.fe.trigEnd.getD k 0 ≤ s.now) → Runs (.blankTriggerEnd k) s fun t =>
    t = { s with fe := { s.fe with trig := listSet s.fe.trig k false } }) ∧
  (∀ s i c a, scanCfg s i = some c → tget none s.fe.blankSince i = some a → convOn s = true → s.fe.blankStale.contains i = false →
    c.blankMs * 1000 < s.now - a → injected s.flt 0x2C = false → Settles (.blankLimit i) s fun u =>
      u.fe.blankStale = i :: s.fe.blankStale ∧ (getSrc u.flt 0x2C).uncleared = true) ∧
  (∀ s e meas, convOn s = true → e < 8 → Settles (.excFault e meas) s fun u =>
    e ∈ u.fe.excBad ∧ tget 0 u.fe.excMeas e = min 65535 meas ∧
    (e ∉ s.fe.excBad → injected s.flt 0x30 = false → (getSrc u.flt 0x30).uncleared = true)) ∧
  (∀ s, s.rst.held = false → s.fe.refBad = false → injected s.flt 0x31 = false → Settles .vrefFault s fun u =>
    u.fe.refBad = true ∧ (getSrc u.flt 0x31).cause = true)

/-- O22. While the mains watch samples, a zero crossing starts the cycle at this instant; a crossing missing for one and a
half periods is put in its place; a half-cycle refresh holds the three voltages, each at most what its clipping lets
through, and the lowest since the last window; a window's end counts it and holds its readings, the frequency that its
MAIN periods give, the unbalance where all three phases are declared and the positive sequence is not low, and its
instant. (Completes: MAINS_ZERO_CROSSING, MISSING_CROSSING, HALF_CYCLE_REFRESH, MAINS_WINDOW_END.) (R644, R645, R646,
R157, 04_ratings, 17_mains_starts.) -/
def Obligations.MainsReadingsAreTaken : Prop :=
  (∀ s c, mnsCfg s = some c → Runs .mainsZeroCrossing s fun t => t = { s with mns := { s.mns with cycleAt := s.now } }) ∧
  (∀ s c, mnsCfg s = some c → 3 * mainsPeriod c ≤ 2 * (s.now - s.mns.cycleAt) → Runs .missingCrossing s fun t =>
    t = { s with mns := { s.mns with cycleAt := s.mns.cycleAt + mainsPeriod c } }) ∧
  (∀ s c rms, mnsCfg s = some c → Runs (.halfCycleRefresh rms) s fun t => t.mns.half = (clipped c rms).take 3 ∧
    t.mns.halfMin = some (min (minI (declared c (clipped c rms))) (s.mns.halfMin.getD (minI (declared c (clipped c rms)))))) ∧
  (∀ s c rms periods pos neg acb, mnsCfg s = some c → Runs (.mainsWindowEnd rms periods pos neg acb) s fun t =>
    t.mns.windows = s.mns.windows + 1 ∧ t.mns.rms = (rangeFrom 0 4).map (fun k => (clipped c rms).getD k 0) ∧
    t.mns.low = minI (declared c (clipped c rms)) ∧ t.mns.freq = windowFreq c periods ∧
    (c.phases = 7 → belowPct c 10 pos = false → t.mns.unbal = unbalancePct pos neg) ∧
    t.mns.windowAt = some s.now ∧ t.mns.halfMin = none)

/-- O23. A speed publication of the running PWM island, at most each 98 ms (the model's choice, assumption 47), holds
speed and edges of each local channel, as the last reading of it gives them. A group loss longer than its limit raises
FAN_GROUP_LOSS (3AH). A hard trip latches with its causes (an open sensor reads above the threshold too), and further
causes join. Fog mode starts when the host has been silent for its time; a host heartbeat restarts that time and
counts in fog mode. At a PWM period boundary a pin takes the level its channel's owner asks for. (Completes:
SPEED_PUBLICATION, FAN_LOSS, HARD_TRIP, FOG_START, HOST_HEARTBEAT, PWM_PERIOD_BOUNDARY.) (R686, R691, R693, R698,
R699, R678, R743, 18_air, 19_motion_heat.) -/
def Obligations.FansTripAndFog : Prop :=
  (∀ s xs ys ch e p c, frontOn s = true → (∀ a, s.fan.pubAt = some a → a + 98000 ≤ s.now) → islRuns s 5 = true →
    fanCfg s ch = some c → ch < 32 → tachUndefined e p = false → (∀ y ∈ ys, y.1 ≠ ch) →
    Settles (.speedPublication (xs ++ (ch, e, p) :: ys)) s fun u =>
      u.fan.pubAt = some s.now ∧ (getFan u ch).edges = min 65535 e ∧ (getFan u ch).rpm = rpmOf c e p) ∧
  (∀ s tach a, s.fan.pubAt = some a → s.now < a + 98000 → Idle (.speedPublication tach) s) ∧
  (∀ s d a, tget none s.fan.lossSince d = some a → frontOn s = true → s.fan.lossRaised.contains d = false →
    groupStallMs s d * 1000 < s.now - a → Settles (.fanLoss d) s fun u =>
      u.fan.lossRaised = s.fan.lossRaised ++ [d] ∧ (injected s.flt 0x3A = false → (getSrc u.flt 0x3A).uncleared = true)) ∧
  (∀ s cause m, m = (if bitsN cause 1 1 == 1 then cause % 8 ||| 4 else cause % 8) → m ≠ 0 → tripBlocked s = false →
    s.fan.trip = true → Runs (.hardTrip cause) s fun t =>
      t = { s with fan := { s.fan with tripCause := s.fan.tripCause ||| m } }) ∧
  (∀ s cause m, m = (if bitsN cause 1 1 == 1 then cause % 8 ||| 4 else cause % 8) → m ≠ 0 → tripBlocked s = false →
    s.fan.trip = false → Runs (.hardTrip cause) s fun t => t.fan.trip = true ∧ t.fan.tripCause = m ∧
      t.fan.tripT = if opSecKnown s then some s.cal.opSec else none) ∧
  (∀ s c, supCfg s = some c → isArmed s = true → s.fan.fog = false → c.hostS ≠ 0 → s.fan.supFrom + c.hostS * 1000000 ≤ s.now →
    Runs .fogStart s fun t => t.fan.fog = true ∧ t.fan.hb = 0) ∧
  (∀ s f c, Heard s (hostBus s) (fromHost 2) f → supCfg s = some c → Runs .hostHeartbeat s fun t =>
    t.fan.lastHb = some s.now ∧ t.fan.supFrom = s.now ∧ t.fan.fog = s.fan.fog ∧
    (s.fan.fog = true → ∀ a, s.fan.lastHb = some a → s.now - a ≤ c.hostS * 1000000 → t.fan.hb = min 3 (s.fan.hb + 1))) ∧
  (∀ s ch, islRuns s 5 = true → s.rst.held = false → ch < 32 → Runs (.pwmPeriodBoundary 0 ch) s fun t =>
    t = setFan s ch { getFan s ch with pin := fanWant s ch }) ∧
  (∀ s ch c, islRuns s 5 = true → s.rst.held = false → heatCfg s ch = some c → ch < 8 → Runs (.pwmPeriodBoundary 1 ch) s fun t =>
    t = setHtd s ch { getHtd s ch with pin := heatWant s c })

/-- O24. A motion publication, at most each 98 ms (the model's choice, assumption 47), takes the feedback of a channel
with the instant of its change and the rate that its edges give, while the balls are heard: out of reset, with no
fatal latch. A start not proved in time, or by feedback alone where motion is supervised, trips the motor with cause 1
and raises MOT_NO_START (3EH); one whose feedback is there, of a motor without motion sensor, is proved. A motor whose
feedback is lost for a second trips with cause 5 and raises MOT_FEEDBACK (42H); feedback that stays two seconds after
the release marks the channel welded and raises it too. A route stop of a running motor that is due releases it, or,
while a feeder of it runs, lets it empty (state 3); the end of the purge releases it. (Completes: MOTION_PUBLICATION,
PROVE_TIMEOUT, FEEDBACK_LOSS, WELDED_CONTACTOR, ROUTE_STOP, PURGE_EXPIRY.) (R718, R721, R726, R730, R723, R724,
19_motion_heat.) -/
def Obligations.MotorsAreSupervised : Prop :=
  (∀ s edges xs ys ch b, ballHeard s (.motFb ch) = true → (∀ a, s.mot.pubAt = some a → a + 98000 ≤ s.now) → ch < 24 →
    (∀ y ∈ ys, y.1 ≠ ch) → Settles (.motionPublication edges (xs ++ (ch, b) :: ys)) s fun u => u.mot.pubAt = some s.now ∧ (getMot u ch).fb = b ∧
      ((getMot s ch).fb ≠ b → (getMot u ch).fbSince = s.now)) ∧
  (∀ s edges fb ch k span c, ballHeard s (.motMov ch) = true → (∀ a, s.mot.pubAt = some a → a + 98000 ≤ s.now) →
    motorCfg s ch = some c → ch < 24 → c.nomMov ≠ 0 → islRuns s 5 = true → edges.find? (·.1 == ch) = some (ch, k, span) →
    Settles (.motionPublication edges fb) s fun u =>
      (getMot u ch).rate = rateOf k span ∧ (getMot u ch).edges = min 65535 k) ∧
  (∀ s edges fb a, s.mot.pubAt = some a → s.now < a + 98000 → Idle (.motionPublication edges fb) s) ∧
  (∀ s ch c, motorCfg s ch = some c → isArmed s = true → (getMot s ch).st = 1 → (getMot s ch).grantAt + c.prove * 100000 ≤ s.now →
    (proves s c = false ∨ c.nomMov ≠ 0) → injected s.flt 0x3E = false → Settles (.proveTimeout ch) s fun u =>
      (getMot u ch).st = 4 ∧ (getMot u ch).cause = 1 ∧ ch ∈ u.mot.proveBad ∧ (getSrc u.flt 0x3E).uncleared = true) ∧
  (∀ s ch c, motorCfg s ch = some c → isArmed s = true → (getMot s ch).st = 1 → (getMot s ch).grantAt + c.prove * 100000 ≤ s.now →
    proves s c = true → c.nomMov = 0 → Settles (.proveTimeout ch) s fun u =>
      (getMot u ch).st = 2 ∧ (getMot u ch).proved = true) ∧
  (∀ s ch c, motorCfg s ch = some c → isArmed s = true → sinks (getMot s ch).st = true → (getMot s ch).proved = true →
    (getMot s ch).fb = false → (getMot s ch).fbSince + 1000000 ≤ s.now → injected s.flt 0x42 = false →
    Settles (.feedbackLoss ch) s fun u =>
      (getMot u ch).st = 4 ∧ (getMot u ch).cause = 5 ∧ (getSrc u.flt 0x42).uncleared = true) ∧
  (∀ s ch c a, motorCfg s ch = some c → ballHeard s (.motFb ch) = true → (getMot s ch).releasedAt = some a → sinks (getMot s ch).st = false →
    (getMot s ch).fb = true → (getMot s ch).welded = false → (getMot s ch).fbSince ≤ a → a + 2000000 ≤ s.now →
    injected s.flt 0x42 = false → Settles (.weldedContactor ch) s fun u =>
      (getMot u ch).welded = true ∧ (getSrc u.flt 0x42).uncleared = true) ∧
  (∀ s ch c, motorCfg s ch = some c → routeDue s c = true → ((getMot s ch).st = 1 ∨ (getMot s ch).st = 2) →
    Settles (.routeStop ch) s fun u =>
      (getMot u ch).st = if (feedersOf s ch).any (runningNow s) then 3 else 0) ∧
  (∀ s ch a, (getMot s ch).stopAt = some a → (getMot s ch).st = 3 → a ≤ s.now → Settles (.purgeExpiry ch) s fun u =>
    (getMot u ch).st = 0)

/-- O25. The command of the owner of a gate becomes the gate's target and clears its failure. After a reversal pause the
output towards the target sinks where the position reads usable and is not there yet, and none otherwise. A gate that
exceeds its travel time, or does not move for its stall time, fails with code 1 or 2 and raises GATE_TRAVEL (44H) or
GATE_STALL (45H). A change of a heat permit is held while the ball is heard; a permit absent for two seconds against
demand raises HEAT_PERMIT (46H). (Completes: GATE_COMMAND, REVERSAL_PAUSE_END, GATE_TRAVEL, GATE_STALL,
HEAT_PERMIT_CHANGE, HEAT_PERMIT.) (R734, R735, R736, R741, 19_motion_heat.) -/
def Obligations.GatesAndHeatAreSupervised : Prop :=
  (∀ s ch c z, gateCfg s ch = some c → gateAsk s ch = some z → isArmed s = true → (getGat s ch).target ≠ some z →
    Settles (.gateCommand ch) s fun u => (getGat u ch).target = some z ∧ (getGat u ch).fail = 0) ∧
  (∀ s ch c z, gateCfg s ch = some c → (∀ g ∈ s.plt.plate.gates, g.ch = ch → g = c) → ch < 16 → (getGat s ch).target = some z →
    (getGat s ch).drive = 3 → (getGat s ch).pauseEnd ≤ s.now → (getGat s ch).relAt + 200000 ≤ s.now →
    Runs (.reversalPauseEnd ch) s fun t => (getGat t ch).drive ≠ 3 ∧ (isArmed t = true → ∀ y, (getGat t ch).target = some y →
      isBad (seenVal t c.pos) = false → (getGat t ch).fail = 0 → gateAt c y (seenVal t c.pos).v = false →
      (getGat t ch).drive = gateDir c y (seenVal t c.pos).v)) ∧
  (∀ s ch, (getGat s ch).drive = 3 → s.now < (getGat s ch).pauseEnd → Idle (.reversalPauseEnd ch) s) ∧
  (∀ s ch c a, gateCfg s ch = some c → (getGat s ch).moveAt = some a → ch < 16 → isArmed s = true → a + c.travelMs * 1000 ≤ s.now →
    injected s.flt 0x44 = false → Settles (.gateTravel ch) s fun u =>
      (getGat u ch).fail = 1 ∧ ch ∈ u.gat.travelBad ∧ (getSrc u.flt 0x44).uncleared = true) ∧
  (∀ s ch c, gateCfg s ch = some c → ch < 16 → isArmed s = true → (getGat s ch).moveAt.isSome = true →
    gateStill s.now c (getGat s ch).track = true → injected s.flt 0x45 = false → Settles (.gateStall ch) s fun u =>
      (getGat u ch).fail = 2 ∧ ch ∈ u.gat.stallBad ∧ (getSrc u.flt 0x45).uncleared = true) ∧
  (∀ s ch b, (heatCfg s ch).isSome = true → ch < 8 → ballHeard s (.heatPmt ch) = true → Settles (.heatPermitChange ch b) s fun u =>
    (getHtd u ch).pmt = b) ∧
  (∀ s ch, (heatCfg s ch).isSome = true → isArmed s = true → (getHtd s ch).pmt = false → (getHtd s ch).pmtBad = false →
    heldFor s.now (getHtd s ch).lackSince 2000000 = true → injected s.flt 0x46 = false → Settles (.heatPermit ch) s fun u =>
      (getHtd u ch).pmtBad = true ∧ (getSrc u.flt 0x46).uncleared = true)

/-- O26. A second of the calendar advances it by one and notes the instant, while it is in range, and stops it at its end.
A tick of the running 32 kHz crystal counts the operating seconds of a chip that is not held in reset and whose TIME
island runs. When the 32 kHz crystal stops, when VBKUP is low and when the backup supply returns the calendar is
invalid with reason 3, 2 and 1, and the return starts it at zero. A schedule evaluation spends the due minute: an
entry that matches starts the idle section that names it, unless fog mode or the trip of its dryer keeps it, and a
calendar that cannot be used leaves SCHED_SKIPPED on record. (Completes: CALENDAR_SECOND, OPERATING_SECOND_TICK,
XT32_STOP, VBKUP_LOW, VBKUP_POWER_ON, SCHEDULE_EVALUATION.) (R839, R840, R80, R449, R852, R853, R861, 02_balls_straps,
11_start, 22_calendar.) -/
def Obligations.CalendarKeepsTime : Prop :=
  (∀ s, s.cal.atEnd = false → calGoesOn s.cal = true → Runs .calendarSecond s fun t =>
    t.cal.utc = s.cal.utc + 1 ∧ t.cal.secAt = s.now ∧ t.cal.xtRun = true) ∧
  (∀ s, s.cal.atEnd = false → calGoesOn s.cal = false → Runs .calendarSecond s fun t =>
    t.cal.utc = s.cal.utc ∧ t.cal.atEnd = true) ∧
  (∀ s, s.cal.xtRun = true → Runs .operatingSecondTick s fun t => t = { s with cal := { s.cal with
    ticks := s.cal.ticks + 1, opSec := if s.rst.held || !islRuns s 0 then s.cal.opSec else s.cal.opSec + 1 } }) ∧
  (∀ s, s.cal.xtRun = false → Idle .operatingSecondTick s) ∧
  (∀ s, Runs .xt32Stop s fun t => t.cal = { s.cal with xtRun := false, valid := false, why := 3 }) ∧
  (∀ s, Runs .vbkupLow s fun t => t.cal = { s.cal with valid := false, why := 2 } ∧ t.pwr = { s.pwr with vbkupLow := true }) ∧
  (∀ s, Runs .vbkupPowerOn s fun t => t.cal.valid = false ∧ t.cal.why = 1 ∧ t.cal.utc = 0 ∧ t.cal.offset = 0 ∧ t.cal.secAt = s.now ∧
    t.cal.set0 = 0#40 ∧ t.cal.set1 = 0#40) ∧
  (∀ s, Runs .scheduleEvaluation s fun t => t.cal = { s.cal with evalDue := none }) ∧
  (∀ s d e n, keeperRuns s = true → s.plt.admitted = true → s.cal.evalDue = some d → calUsable s.cal = true →
    s.plt.plate.scheds = [e] → schedMatch e (dateOf d) = true → schedSects s e.entry = [n] → isArmed s = true →
    (getSect s n).st = 1 → s.fan.fog = false → tripBars s n = false → Settles .scheduleEvaluation s fun u =>
      (getSect u n).st = 2 ∧ (getSect u n).run = true ∧ (getSect u n).lastStart = 2) ∧
  (∀ s d e, keeperRuns s = true → s.plt.admitted = true → s.cal.evalDue = some d → calUsable s.cal = false →
    s.plt.plate.scheds = [e] → schedSects s e.entry ≠ [] → s.recr.buf = [] → Settles .scheduleEvaluation s fun u =>
      u.recr.buf.map (fun r => (r.code, r.a)) = [(0x200D, pw e.entry)])

/-- O27. The frame at the head of the load queue, as the keeper and a recorder transfer have filled it by then, is put
into the mailbox found for it and leaves the queue. An abort marks the mailbox that owns the bus and empties one that
does not, which makes a dead turn of one chosen next. A frame that has been sent counts, leaves its mailbox and ends
the turn. An error on the bus is counted by the error rules and held as the last one. (Completes: MAILBOX_LOAD,
MAILBOX_ABORT, FRAME_TRANSMITTED, CAN_ERROR.) (R872, R223, R874, R875, R194, R880, 05_spine_arbiters, 06_islands,
23_can.) -/
def Obligations.MailboxesLoadAndSend : Prop :=
  (∀ s n e es m, canRuns s n = true → (getCan (loadReady s n) n).load = e :: es → mbFor (loadReady s n) n e = some m →
    Runs (.mailboxLoad n) s fun t => (∃ b, tget none (getCan t n).mbs m = some b ∧ b.frame.id = e.frame.id ∧ b.abort = false) ∧
      (getCan t n).load = es) ∧
  (∀ s n m b, tget none (getCan s n).mbs m = some b → canRuns s n = true → Runs (.mailboxAbort n m) s fun t =>
    tget none (getCan t n).mbs m = (if (getArb s (18 + n)).owner = some m then some { b with abort := true } else none) ∧
    ((getArb s (18 + n)).owner ≠ some m → (getArb s (18 + n)).next = some m →
      (getArb t (18 + n)).next = none ∧ (getArb t (18 + n)).deadDue = true)) ∧
  (∀ s n m b c tdc, (getArb s (18 + n)).owner = some m → canRuns s n = true → onBus (getCan s n) = true →
    tget none (getCan s n).mbs m = some b → (getCan s n).cfg = some c → Runs (.frameTransmitted n tdc) s fun t =>
      tget none (getCan t n).mbs m = none ∧ (getCan t n).txCnt = ((getCan s n).txCnt + 1) % 2 ^ 40 ∧
      (getCan t n).tec = (getCan s n).tec - 1 ∧ (getArb t (18 + n)).owner = none) ∧
  (∀ s n err data tx dom, canRuns s n = true → 1 ≤ err → err ≤ 5 → onBus (getCan s n) = true → (getCan s n).pexWait = false → Settles (.canError n err data tx dom) s fun u =>
    (getCan u n).tec = (errCounts (getCan s n) err tx dom).1 ∧ (getCan u n).recN = (errCounts (getCan s n) err tx dom).2 ∧
    (getCan u n).lastErr = err)

/-- O28. The end of the recovery delay requests a recovery while attempts are left, else the controller stays out and
CAN_RECOVERY_OUT (49H) is raised. A recovery ends error-active, a moored join and an integration in the state that the
error counts give; an integration after a protocol exception ends that. A protocol exception is counted. A load window
gives the load in per mille and starts a new count. A received frame adds its time to the bus load, is counted when
remote or when nothing matches, and enters the receive queue with its filter where one matches, if there is room and
no screen of the master applies. (Completes: RECOVERY_DELAY_END, RECOVERY_COMPLETE, MOORED_JOIN, BUS_INTEGRATION,
PROTOCOL_EXCEPTION, BUS_LOAD_WINDOW, FRAME_RECEIVED.) (R884, R883, R887, R900, R890, R928, R877, 23_can, 24_syntagel.) -/
def Obligations.BusesRecoverAndIntegrate : Prop :=
  (∀ s n a c, (getCan s n).pendAt = some a → (getCan s n).cfg = some c → canRuns s n = true → a ≤ s.now → (getCan s n).st = 4 →
    s.isl.onRc = false → (attemptsNow s (getCan s n)).length < c.recovN → Runs (.recoveryDelayEnd n) s fun t =>
      (getCan t n).st = 5 ∧ (getCan t n).attempts = s.cal.opSec :: attemptsNow s (getCan s n) ∧ (getCan t n).pendAt = none) ∧
  (∀ s n a c, (getCan s n).pendAt = some a → (getCan s n).cfg = some c → canRuns s n = true → a ≤ s.now → (getCan s n).st = 4 →
    s.isl.onRc = false → c.recovN ≤ (attemptsNow s (getCan s n)).length → injected s.flt 0x49 = false →
    Settles (.recoveryDelayEnd n) s fun u =>
      (getCan u n).out = true ∧ (getCan u n).pendAt = none ∧ (getSrc u.flt 0x49).uncleared = true) ∧
  (∀ s n, canRuns s n = true → (getCan s n).st = 5 → Runs (.recoveryComplete n) s fun t =>
    (getCan t n).st = 2 ∧ (getCan t n).tec = 0 ∧ (getCan t n).recN = 0 ∧ (getCan t n).out = false) ∧
  (∀ s b, canRuns s 0 = true → (getCan s 0).st = 6 → (b = true ∨ 8 ≤ (getCan s 0).goodRx) → Runs (.mooredJoin b) s fun t =>
    (getCan t 0).st = canState (getCan s 0).tec (getCan s 0).recN) ∧
  (∀ s n, canRuns s n = true → Runs (.busIntegration n) s fun t =>
    ((getCan s n).st = 1 → (getCan t n).st = canState (getCan s n).tec (getCan s n).recN) ∧ ((getCan s n).st ≠ 1 → t = setCan s n { getCan s n with pexWait := false })) ∧
  (∀ s n c, (getCan s n).cfg = some c → canRuns s n = true → c.fd = true →
    (onBus (getCan s n) = true ∨ (getCan s n).st = 6) → (getCan s n).pexWait = false → Runs (.protocolException n) s fun t => t = setCan s n { getCan s n with pex := min 255 ((getCan s n).pex + 1), pexWait := true }) ∧
  (∀ s n, canRuns s n = true → Runs (.busLoadWindow n) s fun t => (getCan t n).busQ = 0 ∧ (getCan t n).telQ = 0 ∧
    (getCan t n).loadPm = min 1023 ((getCan s n).busQ * 1000 / secondQ)) ∧
  (∀ s n id data, canRuns s n = true → (getCan s n).pexWait = false → onBus (getCan s n) = true → data.length ≤ 8 → id < 2048 →
    Settles (.frameReceived n id false false false false true data) s fun u =>
      (getCan u n).remote = min 255 ((getCan s n).remote + 1) ∧
      (getCan u n).busQ = (getCan s n).busQ + frameTimeQ (getCan s n) { id := id, ide := false, fdf := false, brs := false, data := data }) ∧
  (∀ s n id data, canRuns s n = true → (getCan s n).pexWait = false → onBus (getCan s n) = true → data.length ≤ 8 → id < 2048 →
    canMatch (getCan s n) false id = none → Settles (.frameReceived n id false false false false false data) s fun u =>
      (getCan u n).noMatch = (getCan s n).noMatch + 1) ∧
  (∀ s n id ide data k, canRuns s n = true → (getCan s n).pexWait = false → onBus (getCan s n) = true → data.length ≤ 8 →
    id < (if ide then 2 ^ 29 else 2 ^ 11) → canMatch (getCan s n) ide id = some k → (ide = false ∨ synServes s n = false) →
    (getCan s n).rx.length < 64 → Settles (.frameReceived n id ide false false false false data) s fun u =>
      ∃ e, (getCan u n).rx = (getCan s n).rx ++ [e] ∧ e.frame.id = id ∧ e.frame.data = data ∧ e.filt = k ∧
        (getCan u n).rxCnt = ((getCan s n).rxCnt + 1) % 2 ^ 40)

/-- O29. The unit sends its heartbeat when it is due and numbers it; a node's heartbeat is held with its instant; a node
without one for its time is lost (state 3) and raises NODE_LOST (4AH). A changed plant state is held as the one last
sent. The identities are asked for once by broadcast, and of a silent or returned node. An identity that fits its
declaration makes the node present (state 2), another one foreign (state 4). (Completes: HEARTBEAT_SEND,
NODE_HEARTBEAT, NODE_LOST, PLANT_STATE, IDENT_REQ, IDENTITY.) (R908, R909, R912, R914, R915, 24_syntagel.) -/
def Obligations.NodesAreWatched : Prop :=
  (∀ s, (∀ a, s.syn.hbAt = some a → a + (if s.start.state == .moored then 250000 else nodeUs s / 4) ≤ s.now) →
    (rangeFrom 0 4).any (synServes s) = true → Runs .heartbeatSend s fun t =>
      t.syn.hbSeq = (s.syn.hbSeq + 1) % 256 ∧ t.syn.hbAt = some s.now) ∧
  (∀ s n f, Heard s n (fromNode 2) f → Runs (.nodeHeartbeat n) s fun t =>
    (getNode t (nodeKey n (idSrc f.id))).hb = some s.now ∧ (getCan t n).rx = (getCan s n).rx.drop 1) ∧
  (∀ s bus node c, synServes s bus = true → s.start.state ≠ .moored → nodeCfg s bus node = some c →
    ((getNode s (nodeKey bus node)).st = 2 ∨ (getNode s (nodeKey bus node)).st = 4) →
    (getNode s (nodeKey bus node)).hb.getD s.start.step9At + nodeUs s ≤ s.now → injected s.flt 0x4A = false →
    Settles (.nodeLost bus node) s fun u => (getNode u (nodeKey bus node)).st = 3 ∧ (getSrc u.flt 0x4A).uncleared = true) ∧
  (∀ s, plantFlags s ≠ s.syn.plant → (rangeFrom 0 4).any (synServes s) = true → s.start.state ≠ .moored →
    Runs .plantState s fun t => t.syn.plant = plantFlags s) ∧
  (∀ s bus, 10 ≤ s.start.step → s.start.state ≠ .moored → s.syn.identAll = false → Runs (.identReq bus 0xFF) s fun t =>
    t.syn.identAll = true) ∧
  (∀ s bus node c, 10 ≤ s.start.step → s.start.state ≠ .moored → node ≠ 0xFF → synServes s bus = true → nodeCfg s bus node = some c →
    ((getNode s (nodeKey bus node)).back = true ∨ ((getNode s (nodeKey bus node)).st = 1 ∧ s.start.step11 = false ∧
      (getNode s (nodeKey bus node)).ask.getD s.start.step9At + 1000000 ≤ s.now)) → Runs (.identReq bus node) s fun t =>
      (getNode t (nodeKey bus node)).ask = some s.now ∧ (getNode t (nodeKey bus node)).back = false) ∧
  (∀ s n f, Heard s n (fromNode 4) f → Runs (.identity n) s fun t => (getNode t (nodeKey n (idSrc f.id))).st =
    if identWhy (nodeCfg s n (idSrc f.id)) (idObj f.id - 0x100) (bytesNat (f.data.take 4)) (bytesNat ((f.data.drop 4).take 4)) = 0
    then 2 else 4)

/-- O30. A resolved command to a present node is sent first with sequence number 0 and its instant, and repeated when a
second has passed. A status frame of a declared heat channel holds its permit; a value frame of a declared remote
value writes it at this instant; a telemetry frame feeds the subscriptions. The frame served leaves the receive queue.
(Completes: CHANNEL_CMD, CHANNEL_CMD_REPEAT, CHANNEL_STATUS, VALUE, TELEMETRY.) (R917, R918, R919, R790, R907,
20_blocks_common, 24_syntagel.) -/
def Obligations.ChannelsAndValuesTravel : Prop :=
  (∀ s kind ch r x, resolved s kind ch = some x → remoteOf' s kind ch = some r → isArmed s = true →
    (getNode s (nodeKey r.bus r.node)).st = 2 → tget none s.syn.cmds (kind * 256 + ch) = none → Runs (.channelCmd kind ch) s fun t =>
      tget none t.syn.cmds (kind * 256 + ch) = some { level := x.1, flags := x.2, seq := 0, at_ := s.now }) ∧
  (∀ s r c, s.plt.plate.remotes = [r] → r.kind < 4 → remoteOf' s r.kind r.logical = some r → isArmed s = true →
    (getNode s (nodeKey r.bus r.node)).st = 2 → tget none s.syn.cmds (r.kind * 256 + r.logical) = some c → c.at_ + 1000000 ≤ s.now →
    Runs .channelCmdRepeat s fun t => tget none t.syn.cmds (r.kind * 256 + r.logical) =
      some { level := c.level, flags := c.flags, seq := (c.seq + 1) % 256, at_ := s.now }) ∧
  (∀ s n f r, Heard s n (isStatus s n) f → remoteAt s n f = some r → r.kind = 3 → bitsN (byteAt f 7) 7 6 = 3 →
    (heatCfg s r.logical).isSome = true → Settles (.channelStatus n) s fun u =>
      (getHtd u r.logical).pmt = (bitsN (byteAt f 7) 0 0 == 1 && (recordQ f.data).1 != .fault && (recordQ f.data).1 != .stale) ∧
      (getCan u n).rx = (getCan s n).rx.drop 1) ∧
  (∀ s n f r, Heard s n (fun g => idCls g.id == 3 && !isStatus s n g) f → remoteAt s n f = some r → r.kind = 4 → idSrc f.id ≠ 0xFE →
    (getVal s r.logical).forced = false → Settles (.value n) s fun u =>
      (getVal u r.logical).v = recordV f.data ∧ (getVal u r.logical).at_ = some s.now ∧ (getCan u n).rx = (getCan s n).rx.drop 1) ∧
  (∀ s n f, Heard s n (fun g => idCls g.id == 5) f → Runs (.telemetry n) s fun t =>
    (∀ i ∈ subTakes s n (idSrc f.id) (idObj f.id), tget none t.eng.subs i =
      some ⟨qOf (recordV f.data), recordAged (recordQ f.data).1 (recordQ f.data).2 (subLimit s i)⟩) ∧
    (getCan t n).rx = (getCan s n).rx.drop 1)

/-- O31. A host command of the armed plant (an acknowledgment in any state), within its rate, acts as its object says and
is answered with OK: the start of an idle section that neither fog mode nor the trip of its dryer holds, the stop of a
running section or of all, the acknowledgment of one source or of all, the end of fog mode after three heartbeats,
start freeze set and release, the clear of a tripped motor whose condition is gone, and a possible setting of the
calendar, which the reply carries; an impossible one changes no calendar and is answered so. (Completes:
HOST_SECTION_START, HOST_SECTION_STOP, HOST_FAULT_ACK, HOST_FOG_ACK, HOST_START_FREEZE_SET, HOST_START_FREEZE_RELEASE,
HOST_MOTOR_CLEAR, HOST_CAL_SET.) (R922, R923, R446, R447, R357, R700, R731, R844, R848, 09_faults, 11_start, 18_air.) -/
def Obligations.HostCommandsAreAnswered : Prop :=
  (∀ s f t, hostCmd s (· == 1) = some f → byteAt f 3 = 1 → hostRate (rxTake s (hostBus s)) = (true, t) → isArmed t = true →
    (sectCfg t (byteAt f 2)).isSome = true → (getSect t (byteAt f 2)).st = 1 → fogHolds t (byteAt f 2) = false →
    tripBars t (byteAt f 2) = false → Settles .hostSectionStart s fun u => (∃ v, u = hostReply v f stOk []) ∧
      (getSect u (byteAt f 2)).st = 2 ∧ (getSect u (byteAt f 2)).run = true ∧ (getSect u (byteAt f 2)).lastStart = 1) ∧
  (∀ s f t n, hostCmd s (· == 1) = some f → byteAt f 3 = 0 → hostRate (rxTake s (hostBus s)) = (true, t) → isArmed t = true →
    (byteAt f 2 = n ∨ byteAt f 2 = 0xFF) → (sectCfg t n).isSome = true → ((getSect t n).st = 2 ∨ (getSect t n).st = 3) →
    Settles .hostSectionStop s fun u => (∃ v, u = hostReply v f stOk []) ∧
      (getSect u n).st = 4 ∧ (getSect u n).run = false ∧ (getSect u n).lastStop = 2) ∧
  (∀ s f t n, hostCmd s (· == 2) = some f → hostRate (rxTake s (hostBus s)) = (true, t) →
    (byteAt f 2 = n ∨ byteAt f 2 = 0xFF) → n < 0x60 → (getSrc t.flt n).uncleared = true → Settles .hostFaultAck s fun u =>
      (∃ v, u = hostReply v f stOk []) ∧ (getSrc u.flt n).acked = true) ∧
  (∀ s f t, hostCmd s (· == 3) = some f → hostRate (rxTake s (hostBus s)) = (true, t) → isArmed t = true → t.fan.fog = true →
    t.fan.hb = 3 → Settles .hostFogAck s fun u => (∃ v, u = hostReply v f stOk []) ∧ u.fan.fog = false) ∧
  (∀ s f t, hostCmd s (· == 4) = some f → isFreezeSet s = true → hostRate (rxTake s (hostBus s)) = (true, t) → isArmed t = true →
    Settles .hostStartFreezeSet s fun u => (∃ v, u = hostReply v f stOk []) ∧ u.stb.host = true) ∧
  (∀ s f t, hostCmd s (· == 4) = some f → isFreezeSet s = false → byteAt f 2 = 0 → hostRate (rxTake s (hostBus s)) = (true, t) →
    isArmed t = true → Settles .hostStartFreezeRelease s fun u => (∃ v, u = hostReply v f stOk []) ∧ u.stb.host = false) ∧
  (∀ s f t, hostCmd s (· == 5) = some f → hostRate (rxTake s (hostBus s)) = (true, t) → isArmed t = true →
    (motorCfg t (byteAt f 2)).isSome = true → (getMot t (byteAt f 2)).st = 4 → tripGone (getMot t (byteAt f 2)) = true →
    Settles .hostMotorClear s fun u => (∃ v, u = hostReply v f stOk []) ∧
      (getMot u (byteAt f 2)).st = 0 ∧ (getMot u (byteAt f 2)).tcause = 0) ∧
  (∀ s f t w0 w1, hostCmd s (· == 6) = some f → hostRate (rxTake s (hostBus s)) = (true, t) → isArmed t = true →
    busFd t (hostBus t) = true → calBusy t = false → BitVec.ofNat 40 (bytesNat ((f.data.drop 2).take 5)) = w0 →
    BitVec.ofNat 40 (bytesNat ((f.data.drop 7).take 5)) = w1 → calPossible t.cal w0 w1 = true → Settles .hostCalSet s fun u =>
      (∃ v, u = hostReply v f stOk (wordBytes (w0 &&& 0x3FFFFFFFFF#40))) ∧
      u.cal.utc = calTarget t.cal (w0 &&& 0x3FFFFFFFFF#40) ∧ u.cal.offset = offsetOf w1 ∧ u.cal.valid = true ∧ u.cal.why = 0) ∧
  (∀ s f t w0 w1, hostCmd s (· == 6) = some f → hostRate (rxTake s (hostBus s)) = (true, t) → isArmed t = true →
    busFd t (hostBus t) = true → calBusy t = false → BitVec.ofNat 40 (bytesNat ((f.data.drop 2).take 5)) = w0 →
    BitVec.ofNat 40 (bytesNat ((f.data.drop 7).take 5)) = w1 → calPossible t.cal w0 w1 = false → Settles .hostCalSet s fun u =>
      (∃ v, u = hostReply v f 0x30 (wordBytes t.cal.set0)) ∧ u.cal = t.cal)

/-- O32. A value read of the armed plant answers with the eight value records of the group asked for, an identity read
with the master's identity, an unknown object with UNKNOWN. The switch bytes are held as sent, with their instant,
when they are due. The oldest live notice is taken while fewer than four went in the last second, once its record has
been read. A recorder read opens a transfer. A recorder clear without its key changes neither the array nor the
recorder, as one that Table 10-6 refuses with BUSY; one that may be made and whose chunk starts at once is made, noted
with its instant and answered OK with the records discarded, the ring starting anew. A transfer ends 60 s after it
began. (Completes: VALUE_READ, IDENT_READ, HOST_UNKNOWN_OBJECT, SWITCHES, EVENT_NOTICE, SYN_REC_READ, SYN_REC_CLEAR,
TRANSFER_TIMEOUT.) (R924, R922, R925, R926, R931, R932, R933, 24_syntagel.) -/
def Obligations.HostReadsAndNoticesAreSent : Prop :=
  (∀ s f t, hostCmd s (· == 7) = some f → hostRate (rxTake s (hostBus s)) = (true, t) → isArmed t = true → busFd t (hostBus t) = true →
    bytesNat ((f.data.drop 2).take 2) ≤ 511 → Runs .valueRead s fun u =>
      u = hostSendV t 0 3 (bytesNat ((f.data.drop 2).take 2))
        ((rangeFrom (8 * bytesNat ((f.data.drop 2).take 2)) 8).flatMap (valueRecord t) ++ List.replicate 8 0#8)
        ((rangeFrom (8 * bytesNat ((f.data.drop 2).take 2)) 8).map
          (fun i => (7 * (i - 8 * bytesNat ((f.data.drop 2).take 2)), i)))) ∧
  (∀ s f t, hostCmd s (· == 8) = some f → hostRate (rxTake s (hostBus s)) = (true, t) → t.start.state ≠ .moored →
    busFd t (hostBus t) = true → Runs .identRead s fun u => u = hostSend t 0 4 1 (masterId t)) ∧
  (∀ s f t, hostCmd s (fun o => o == 0 || 8 < o) = some f → hostRate (rxTake s (hostBus s)) = (true, t) → isArmed t = true →
    Runs .hostUnknownObject s fun u => u = hostReply t f stUnknown []) ∧
  (∀ s, s.start.state ≠ .moored → synServes s (hostBus s) = true →
    (∀ a, s.syn.swAt = some a → a + 10000000 ≤ s.now ∨ (switchBytes s ≠ s.syn.swSent ∧ a + 1000000 ≤ s.now)) →
    Runs .switches s fun t => t.syn.swSent = switchBytes s ∧ t.syn.swAt = some s.now) ∧
  (∀ s x xs, s.start.state ≠ .moored → synServes s (hostBus s) = true → s.syn.notices = x :: xs → (∀ y ∈ x :: xs, s.now < y.2 + 10000000) →
    (s.syn.noticeAt.filter (fun t => decide (s.now < t + 1000000))).length < 4 → (recReads s 1).isSome = true →
    Settles .eventNotice s fun u => u.syn.notices = xs ∧
      u.syn.noticeAt = s.syn.noticeAt.filter (fun t => decide (s.now < t + 1000000)) ++ [s.now]) ∧
  (∀ s f, Heard s (hostBus s) (bulkObj 0) f → s.syn.xfer = none → bytesNat ((f.data.drop 7).take 2) ≠ 0 →
    bytesNat ((f.data.drop 7).take 2) ≤ 256 → byteAt f 1 ≤ 1 → busFd (rxTake s (hostBus s)) (hostBus s) = true →
    Runs .synRecRead s fun t => ∃ x, t.syn.xfer = some x ∧ x.req = idSrc f.id ∧ x.left = bytesNat ((f.data.drop 7).take 2) ∧
      x.since = s.now) ∧
  (∀ s f, Heard s (hostBus s) (bulkObj 2) f → bytesNat ((f.data.drop 1).take 4) ≠ 0x524C4352 → Runs .synRecClear s fun t =>
    t.nvm = s.nvm ∧ t.recr = s.recr) ∧
  (∀ s f, Heard s (hostBus s) (bulkObj 2) f → bytesNat ((f.data.drop 1).take 4) = 0x524C4352 → s.recr.clears = [] →
    clearRefusal s = some stBusy → Runs .synRecClear s fun t => t.nvm = s.nvm ∧ t.recr = s.recr) ∧
  (∀ s f n u, Heard s (hostBus s) (bulkObj 2) f → bytesNat ((f.data.drop 1).take 4) = 0x524C4352 → s.recr.clears = [] →
    clearRefusal s = none → clearReady s = true → canStore (readPin s) chunkStore = true →
    startClear (readPin (rxTake s (hostBus s))) (packW [(7, 0, 1 + hostBus s), (15, 8, idSrc f.id)]) = (n, u) →
    chunkStarted u = true → Runs .synRecClear s fun t => t = recResult u (idSrc f.id) (byteAt f 0) 2 stOk n ∧
      t.recr.lastClear = some s.now ∧ t.recr.clears = [] ∧ t.recr.chunk.isSome = true ∧
      (2048 ≤ s.recr.etchedNext → t.recr.oldest = 2048 + 64 * (t.recr.seq - 1))) ∧
  (∀ s x, s.syn.xfer = some x → x.since + 60000000 ≤ s.now → Runs .transferTimeout s fun t =>
    t = { s with syn := { s.syn with xfer := none } })

/-- O33. A gap ends the discarding of bytes, and a partial frame it cuts is counted. A LENGTH above 1 024 is answered
FRAME and the port is deaf until the next gap; a shorter frame whose LENGTH does not suit its command is answered
FRAME as the request it is. A frame with a wrong CRC is answered CRC and counted. A repeat of the last request of the
session within one second is answered by the same reply, with no second action. A command that does not exist is
answered UNKNOWN. (Completes: FRAME_GAP, FRAME_TOO_LONG, FRAME_CRC_ERROR, RETRANSMISSION, UNKNOWN_COMMAND.) (R949,
R950, R951, R954, R989, 25_service.) -/
def Obligations.ServiceFramesAreJudged : Prop :=
  (∀ s cut, s.rst.held = false → islRuns s 8 = true → Runs (.frameGap cut) s fun t => t.svc.deaf = false ∧ t.svc.frameReplies =
    if cut = true ∧ s.svc.deaf = false then min 255 (s.svc.frameReplies + 1) else s.svc.frameReplies) ∧
  (∀ s seq cmd len, 1024 < len → svcHears s = true → Runs (.frameTooLong seq cmd len) s fun t =>
    t.svc.deaf = true ∧ t.svc.reply = ⟨seq % 256, cmd % 256, [0x41#8]⟩ ∧ t.svc.prev = s.svc.prev ∧ t.svc.sess = s.svc.sess) ∧
  (∀ s seq cmd len, len ≤ 1024 → svcCmds.contains cmd = true → layoutOk cmd len = false → svcHears s = true →
    isRepeatReq s seq cmd = false → Settles (.frameTooLong seq cmd len) s fun u => u.svc.reply = ⟨seq % 256, cmd % 256, [0x41#8]⟩ ∧
      u.svc.prev = some (u.svc.reply, s.now) ∧ u.svc.frameReplies = min 255 (s.svc.frameReplies + 1) ∧ u.nvm = s.nvm) ∧
  (∀ s seq cmd, svcHears s = true → Runs (.frameCrcError seq cmd) s fun t =>
    t.svc.crcFails = min 65535 (s.svc.crcFails + 1) ∧ t.svc.reply = ⟨seq % 256, cmd % 256, [0x40#8]⟩ ∧ t.svc.sess = s.svc.sess ∧
    t.svc.prev = s.svc.prev) ∧
  (∀ s seq cmd r a, svcHears s = true → s.svc.sess.isSome = true → s.svc.prev = some (r, a) → r.seq = seq % 256 →
    r.cmd = cmd % 256 → s.now ≤ a + 1000000 → Settles (.retransmission seq cmd) s fun u =>
      u = { s with svc := { s.svc with
        reply := r, answered := min 65535 (s.svc.answered + 1), baudAt := none,
        sess := s.svc.sess.map (fun x => { x with seen := s.now }) } }) ∧
  (∀ s seq cmd, svcHears s = true → svcCmds.contains (cmd % 256) = false → isRepeatReq s seq cmd = false →
    Settles (.unknownCommand seq cmd) s fun u => u.svc.reply = ⟨seq % 256, cmd % 256, [0x42#8]⟩ ∧ u.nvm = s.nvm)

/-- O34. HELLO answers with the nonce drawn, which it holds, after the fields of its layout. AUTH with the tag that the
role's key gives opens the session of that role and generation and spends the nonce; with another tag, or for a role
without a usable key, it answers ROLE, spends the nonce, counts the failure, and at the fifth starts a lockout of 60 s
times two to the level, at most an hour, and raises the level. CLOSE and 600 s without a request end the session:
overrides, forces and bit rate go, with CLOSE the staging too. BAUD changes the rate, which reverts after 2 s without
a valid frame. The end of a lockout writes 0 to its word. (Completes: HELLO, AUTH, CLOSE, SESSION_IDLE, BAUD,
BAUD_REVERT, LOCKOUT_END.) (R956, R957, R958, R960, R961, R965, R966, 25_service.) -/
def Obligations.SessionsOpenAndEnd : Prop :=
  (∀ s seq, Taken s seq 0x01 → Settles (.hello seq) s fun u => u.svc.nonce = some (drawNonce s).1 ∧ u.free = s.free + 4 ∧
    u.svc.reply = ⟨seq % 256, 0x01, helloBytes (asked s 0x01) ++ (drawNonce s).1⟩) ∧
  (∀ s seq role nonce g tag, Taken s seq 0x02 → s.svc.nonce = some nonce → lockLeft s = 0 → authEnergy (readPin s) = false → role ≤ 2 →
    authTag s role nonce = some (g, tag) → Settles (.auth seq role tag) s fun u => u.svc.sess = some ⟨role, g, s.now⟩ ∧
      u.svc.nonce = none ∧ u.svc.reply = ⟨seq % 256, 0x02, [0#8, BitVec.ofNat 8 g]⟩) ∧
  (∀ s seq role nonce tag, Taken s seq 0x02 → s.svc.nonce = some nonce → lockLeft s = 0 → authEnergy (readPin s) = false → role ≤ 2 →
    (∀ x, authTag s role nonce = some x → tag ≠ x.2) → Settles (.auth seq role tag) s fun u => u.svc.reply = ⟨seq % 256, 0x02, [0x21#8]⟩ ∧
      u.svc.nonce = none ∧ (authWord s 0 % 256 + 1 < 5 → authWord u 0 = authWord s 0 % 256 + 1) ∧
      (5 ≤ authWord s 0 % 256 + 1 → authWord u 0 = 0 ∧ authWord u 1 = min (authWord s 1 % 8 + 1) 6 ∧
        authWord u 2 = (pw (s.cal.opSec + min (60 * 2 ^ (authWord s 1 % 8)) 3600)).toNat)) ∧
  (∀ s seq, Taken s seq 0x03 → HasRole s anyRole → Settles (.close seq) s fun u => u.svc.sess = none ∧ u.svc.ovr = [] ∧
    u.svc.forces = [] ∧ u.svc.stage = none ∧ u.svc.baud = 115200 ∧ u.svc.reply = ⟨seq % 256, 0x03, [0#8]⟩) ∧
  (∀ s x, s.svc.sess = some x → s.rst.held = false → x.seen + 600000000 ≤ s.now → Settles .sessionIdle s fun u =>
    u.svc.sess = none ∧ u.svc.ovr = [] ∧ u.svc.forces = [] ∧ u.svc.baud = 115200) ∧
  (∀ s seq rate, Taken s seq 0x04 → HasRole s anyRole → 115200 ≤ rate → rate ≤ 3000000 → Settles (.baud seq rate) s fun u =>
    u.svc.baud = rate ∧ u.svc.baudAt = some s.now ∧ u.svc.reply = ⟨seq % 256, 0x04, [0#8]⟩) ∧
  (∀ s a, s.svc.baudAt = some a → s.rst.held = false → a + 2000000 ≤ s.now → Runs .baudRevert s fun t =>
    t = { s with svc := { s.svc with baud := 115200, baudAt := none } }) ∧
  (∀ s, s.rst.held = false → authWord s 2 ≠ 0 → lockLeft s = 0 → Settles .lockoutEnd s fun u => authWord u 2 = 0)

/-- O35. A READ of a session answers OK and the register words in address order; one that met poison answers BUSY and
reads nothing. A READ that begins at CAL_NOW0 latches CAL_NOW1. A recorder read whose packets have their turns of bank
2 at once answers the count of records and their entries; one that must wait for bank 2 leaves its reply to wait. A
recorder clear without its guard answers RANGE and clears nothing, one that Table 10-6 refuses with BUSY answers so
and clears nothing, and one that may be made and whose chunk starts at once answers OK with the count of discarded
records, noted with its instant. The fault history answers with its bytes and changes no fault. (Completes: READ,
CAL_NOW0_READ, SVC_REC_READ, SVC_REC_CLEAR, FLT_HIST_READ.) (R967, R1006, R849, R403, R405, R407, R408, R366,
09_faults, 10_recorder, 22_calendar, 25_service.) -/
def Obligations.ServiceReadsAnswer : Prop :=
  (∀ s seq addr n, Taken s seq 0x10 → HasRole s anyRole → s.svc.stage = none → addr < 0x100000 → 0 < n → n ≤ 200 →
    Settles (.read seq addr n false) s (fun u =>
      u.svc.reply = ⟨seq % 256, 0x10, 0#8 :: wordsBytes (readWords (heard s) addr n).1⟩) ∧
    Settles (.read seq addr n true) s (fun u => u.svc.reply = ⟨seq % 256, 0x10, [0x32#8]⟩ ∧ u.nvm = s.nvm ∧ u.free = s.free)) ∧
  (∀ s seq addr, Taken s seq 0x10 → HasRole s anyRole → s.svc.stage = none → addr < 0x100000 →
    Settles (.read seq addr 1 false) s fun u => u.svc.reply.bytes = 0#8 :: wordBytes (regRead (heard s) addr)) ∧
  (∀ s seq n, Taken s seq 0x10 → HasRole s anyRole → s.svc.stage = none → 0 < n → n ≤ 200 → Settles (.calNow0Read seq n) s fun u =>
    u.cal.now1 = calNow1 s.cal ∧ u.svc.reply = ⟨seq % 256, 0x10, 0#8 :: wordsBytes (readWords (heard s) 0x0E002 n).1⟩ ∧
    (n = 2 → u.svc.reply.bytes = 0#8 :: (wordBytes (regRead (heard s) 0x0E002) ++ wordBytes (calNow1 s.cal)))) ∧
  (∀ s seq start dir n flush, Taken s seq 0x20 → dir ≤ 1 → 0 < n → n ≤ 32 → flush % 2 = 0 → s.recr.located = true → s.svc.wait = none →
    (recReads (asked s 0x20) (readLocs s start (dir == 1) n).length).isSome = true →
    Settles (.svcRecRead seq start dir n flush) s fun u => u.svc.reply = ⟨seq % 256, 0x20,
      [0#8, BitVec.ofNat 8 (readLocs s start (dir == 1) n).length] ++
        (readLocs s start (dir == 1) n).flatMap (readEntry s.nvm)⟩) ∧
  (∀ s seq start dir n flush, Taken s seq 0x20 → dir ≤ 1 → 0 < n → n ≤ 32 → flush % 2 = 0 → s.recr.located = true → s.svc.wait = none →
    (recReads (asked s 0x20) (readLocs s start (dir == 1) n).length).isSome = false →
    Settles (.svcRecRead seq start dir n flush) s fun u => u.svc.reply = s.svc.reply ∧
      u.svc.wait = some { seq := seq % 256, cmd := 0x20, read := some (start, dir == 1, n) }) ∧
  (∀ s seq guard, Taken s seq 0x21 → guard ≠ [0x52#8, 0x43#8, 0x4C#8, 0x52#8] → Settles (.svcRecClear seq guard) s fun u =>
    u.svc.reply = ⟨seq % 256, 0x21, [0x31#8]⟩ ∧ u.nvm = s.nvm ∧ u.recr = s.recr) ∧
  (∀ s seq, Taken s seq 0x21 → s.recr.clears = [] → clearRefusal s = some stBusy →
    Settles (.svcRecClear seq [0x52#8, 0x43#8, 0x4C#8, 0x52#8]) s fun u =>
      u.svc.reply = ⟨seq % 256, 0x21, [0x32#8]⟩ ∧ u.nvm = s.nvm ∧ u.recr = s.recr) ∧
  (∀ s seq n v, Taken s seq 0x21 → s.recr.clears = [] → clearRefusal s = none → clearReady s = true →
    canStore (readPin s) chunkStore = true → startClear (readPin (asked s 0x21)) 0#40 = (n, v) → chunkStarted v = true →
    Settles (.svcRecClear seq [0x52#8, 0x43#8, 0x4C#8, 0x52#8]) s fun u =>
      u.svc.reply = ⟨seq % 256, 0x21, 0#8 :: natBytes 5 n⟩ ∧ u.recr.lastClear = some s.now ∧ u.recr.clears = [] ∧
      u.recr.chunk.isSome = true) ∧
  (∀ s seq, Taken s seq 0x22 → Settles (.fltHistRead seq) s fun u => u.svc.reply = ⟨seq % 256, 0x22, histBytes s.flt⟩ ∧ u.flt = s.flt)

/-- O36. Without a session a WRITE of a register of the write table is answered NO_SESSION and a count of 0, with a
session of another role ROLE, inside a locked range LOCKED with the violation noted, with mask 0 OK and no change,
with a partial mask WIDTH, and at an address that the table does not name OK with no change; the array is as before in
each case. Data that is no number of words is answered FRAME. (Completes: REGISTER_WRITE.) (R954, R968, R969, R970,
R971, R967, 25_service.) -/
def Obligations.WritesAreChecked : Prop :=
  (∀ s seq a mask w roles, Taken s seq 0x11 → s.svc.stage = none → writeRoles s a = some roles → a < 0x100000 → isKeyAddr a = false →
    (s.svc.sess = none → SettlesWrite (.registerWrite seq a mask (wordBytes w)) s fun u =>
      u = svcReply (heard s) seq 0x11 [0x20#8, 0#8, 0#8]) ∧
    (∀ x, s.svc.sess = some x → x.role ∉ roles → SettlesWrite (.registerWrite seq a mask (wordBytes w)) s fun u =>
      u = svcReply (heard s) seq 0x11 [0x21#8, 0#8, 0#8]) ∧
    (HasRole s roles → plateLocked s a = true → SettlesWrite (.registerWrite seq a mask (wordBytes w)) s fun u =>
      u.svc.reply = ⟨seq % 256, 0x11, [0x10#8, 0#8, 0#8]⟩ ∧ u.svc.lockViol = true ∧ u.svc.lockAddr = a ∧ u.nvm = s.nvm ∧
        u.fan = s.fan) ∧
    (HasRole s roles → plateLocked s a = false → mask % 32 = 0 → SettlesWrite (.registerWrite seq a mask (wordBytes w)) s fun u =>
      u = svcReply (heard s) seq 0x11 [0#8, 1#8, 0#8]) ∧
    (HasRole s roles → plateLocked s a = false → mask % 32 ≠ 0 → mask % 32 ≠ 31 →
      SettlesWrite (.registerWrite seq a mask (wordBytes w)) s fun u => u = svcReply (heard s) seq 0x11 [0x12#8, 0#8, 0#8])) ∧
  (∀ s seq a mask w, Taken s seq 0x11 → s.svc.stage = none → writeRoles s a = none → a < 0x100000 → s.svc.sess.isSome = true →
    SettlesWrite (.registerWrite seq a mask (wordBytes w)) s fun u => u = svcReply (heard s) seq 0x11 [0#8, 1#8, 0#8]) ∧
  (∀ s seq a mask bytes, svcHears s = true → isRepeatReq s seq 0x11 = false →
    (bytes = [] ∨ bytes.length % 5 ≠ 0) → Settles (.registerWrite seq a mask bytes) s fun u =>
      u.svc.reply = ⟨seq % 256, 0x11, [0x41#8]⟩ ∧ u.nvm = s.nvm)

/-- O37. Each WRITE is answered OK with one word taken. FLT_ACK acknowledges the source it names, or all. FLT_INJECT takes
its enable, levels and source; levels that assert a source whose cause is absent raise it. A flush request begins a
recorder flush, at most one each 10 s. ARB_CTL sets and clears the freeze of its instance, STB_FREEZE the session's
start freeze. A fog acknowledgment after three heartbeats ends fog mode, FAN_FIX sets the speed of its channel alone,
MOT_CLR clears a tripped motor whose condition is gone, CAN_CMD requests the recovery of a bus-off controller whose
island runs. A W1C register loses the flags whose bits are 1, and the array's words stand. (Completes: FLT_ACK,
FLT_INJECT, REC_CTL_FLUSH, ARB_CTL_WRITE, STB_FREEZE_SET, STB_FREEZE_RELEASE, FAN_FOG_ACK, FAN_FIX_WRITE, MOT_CLR,
CAN_RECOVER, W1C_CLEAR.) (R357, R368, R406, R216, R662, R699, R681, R731, R885, R16, R970, 00_scope.) -/
def Obligations.WritesReachTheirRegisters : Prop :=
  (∀ s seq mask w n, Writes s seq mask 0x03002 → (fld w 7 0 = n ∨ fld w 7 0 = 0xFF) → n < 0x60 → (getSrc s.flt n).uncleared = true →
    SettlesWrite (.fltAck seq mask w) s fun u => (getSrc u.flt n).acked = true ∧ u.svc.reply = ⟨seq % 256, 0x11, [0#8, 1#8, 0#8]⟩) ∧
  (∀ s seq mask w, Writes s seq mask 0x03010 → isSrc (fld w 7 0) = true → (bitOf w 10 = true → noRails (fld w 7 0) = false) →
    SettlesWrite (.fltInject seq mask w) s fun u => u.flt.injEnable = bitOf w 10 ∧ u.flt.injTrue = bitOf w 8 ∧
      u.flt.injFalse = bitOf w 9 ∧ u.flt.injSrc = fld w 7 0 ∧ u.svc.reply = ⟨seq % 256, 0x11, [0#8, 1#8, 0#8]⟩ ∧
      (bitOf w 10 = true → bitOf w 8 = true → bitOf w 9 = false → (getSrc s.flt (fld w 7 0)).cause = false →
        (getSrc u.flt (fld w 7 0)).uncleared = true)) ∧
  (∀ s seq mask w, Writes s seq mask 0x04004 → bitOf w 0 = true → (∀ a, s.recr.lastReqFlush = some a → a + 10000000 ≤ s.now) →
    SettlesWrite (.recCtlFlush seq mask w) s fun u => u.recr.flushing = true ∧ u.recr.lastReqFlush = some s.now ∧
      u.svc.reply = ⟨seq % 256, 0x11, [0#8, 1#8, 0#8]⟩) ∧
  (∀ s seq n mask w, Writes s seq mask (0x08400 + n) → n ≤ 22 → SettlesWrite (.arbCtlWrite seq n mask w) s fun u =>
    (getArb u n).frozen = bitOf w 0 ∧ u.svc.reply = ⟨seq % 256, 0x11, [0#8, 1#8, 0#8]⟩) ∧
  (∀ s seq mask, Writes s seq mask 0x0B101 → SettlesWrite (.stbFreezeSet seq mask) s fun u =>
    u.stb.session = true ∧ u.svc.reply = ⟨seq % 256, 0x11, [0#8, 1#8, 0#8]⟩) ∧
  (∀ s seq mask, Writes s seq mask 0x0B101 → SettlesWrite (.stbFreezeRelease seq mask) s fun u =>
    u.stb.session = false ∧ u.svc.reply = ⟨seq % 256, 0x11, [0#8, 1#8, 0#8]⟩) ∧
  (∀ s seq mask w, Writes s seq mask 0x0C001 → bitOf w 0 = true → s.fan.fog = true → s.fan.hb = 3 →
    SettlesWrite (.fanFogAck seq mask w) s fun u => u.fan.fog = false ∧ u.svc.reply = ⟨seq % 256, 0x11, [0#8, 1#8, 0#8]⟩) ∧
  (∀ s seq n mask w, Writes s seq mask (0x0C300 + n) → n ≤ 255 → plateLocked s (0x0C300 + n) = false → fld w 9 0 ≤ 1000 →
    SettlesWrite (.fanFixWrite seq n mask [w]) s fun u => (getFan u n).fix = fld w 9 0 ∧
      (∀ m, m ≠ n → getFan u m = getFan s m) ∧ u.svc.reply = ⟨seq % 256, 0x11, [0#8, 1#8, 0#8]⟩) ∧
  (∀ s seq mask w c, Writes s seq mask 0x0D001 → motorCfg s (fld w 7 0) = some c → (getMot s (fld w 7 0)).st = 4 →
    tripGone (getMot s (fld w 7 0)) = true → SettlesWrite (.motClr seq mask w) s fun u =>
      (getMot u (fld w 7 0)).st = 0 ∧ (getMot u (fld w 7 0)).tcause = 0 ∧ u.svc.reply = ⟨seq % 256, 0x11, [0#8, 1#8, 0#8]⟩) ∧
  (∀ s seq n mask w, Writes s seq mask (0x10003 + 0x1000 * n) → n ≤ 3 → bitOf w 0 = true → (getCan s n).st = 4 → s.isl.onRc = false →
    islRuns s (1 + n) = true → SettlesWrite (.canRecover seq n mask w) s fun u => (getCan u n).st = 5 ∧
      (getCan u n).attempts = s.cal.opSec :: attemptsNow s (getCan s n) ∧ u.svc.reply = ⟨seq % 256, 0x11, [0#8, 1#8, 0#8]⟩) ∧
  (∀ s seq a mask w, Writes s seq mask a → w1cAddr a = true → SettlesWrite (.w1cClear seq a mask w) s fun u =>
    u.svc.reply = ⟨seq % 256, 0x11, [0#8, 1#8, 0#8]⟩ ∧ u.nvm.cells = s.nvm.cells ∧
    (a = 0x01000 → u.straps.changed = (s.straps.changed && !bitOf w 23)) ∧ (a = 0x01012 → u.eng.sat = (s.eng.sat && !bitOf w 0)) ∧
    (a = 0x01060 → u.svc.onceViol = (s.svc.onceViol && !bitOf w 1) ∧ u.svc.lockViol = (s.svc.lockViol && !bitOf w 0)) ∧
    (a = 0x02012 → u.pwr.gateWaited = (s.pwr.gateWaited && !bitOf w 3) ∧ u.pwr.pfwSeen = (s.pwr.pfwSeen && !bitOf w 2) ∧
      u.pwr.refused = (s.pwr.refused && !bitOf w 1)) ∧
    (a = 0x05000 → u.nvm.retired = (s.nvm.retired && !bitOf w 7) ∧ u.nvm.uncorrFlag = (s.nvm.uncorrFlag && !bitOf w 6)) ∧
    (a = 0x08000 → u.spn.stall = (s.spn.stall && !bitOf w 2) ∧ u.spn.uncorr = (s.spn.uncorr && !bitOf w 1) ∧
      u.spn.lane = (s.spn.lane && !bitOf w 0)) ∧
    (a = 0x09000 → u.isl.switched = (s.isl.switched && !bitOf w 3)) ∧
    (∀ i < 10, a = 0x09010 + i → s.isl.isls.length = 10 → (getIsl u i).ovf = ((getIsl s i).ovf && !bitOf w 6) ∧
      (getIsl u i).tmo = ((getIsl s i).tmo && !bitOf w 5)))

/-- O38. The first calendar word is staged, and the second commits both, once staged. Site identity and key words that
find their blank cells, with the energy, no HU_CLASS ball open and no other such store on its way, are handed to the
array as one unit, and their reply waits for the store. A force of a declared value of the armed plant, of at most 64,
puts the word in the value with quality FORCED and unit 20H; a write of its status word ends it with quality STALE and
the same word. (Completes: CAL_SET0_WRITE, CAL_SET1_COMMIT, SVC_SITE_WRITE, SVC_KEY_WRITE, VALUE_FORCE,
FORCE_RELEASE.) (R973, R843, R844, R848, R972, R962, R963, R977, R282, R103, 03_supplies_holdup, 07_tiles_numbers.) -/
def Obligations.GroupsAndForcesAreWritten : Prop :=
  (∀ s seq mask w, Writes s seq mask 0x0E000 → SettlesWrite (.calSet0Write seq mask [w]) s fun u =>
    u.svc.stage = some ⟨0x0E000, [w]⟩ ∧ u.cal = s.cal ∧ u.svc.reply = ⟨seq % 256, 0x11, [0#8, 1#8, 0#8]⟩) ∧
  (∀ s seq mask v w, Taken s seq 0x11 → HasRole s plantRoles → mask % 32 = 31 → s.svc.stage = some ⟨0x0E000, [v]⟩ →
    calBusy s = false → calPossible s.cal v w = true → SettlesWrite (.calSet1Commit seq mask w) s fun u =>
      u.cal = (calSetApply s v w).cal ∧ u.svc.stage = none ∧ u.svc.reply = ⟨seq % 256, 0x11, [0#8, 1#8, 0#8]⟩) ∧
  (∀ s seq mask ws, Writes s seq mask 0x14010 → ws.length = 4 → s.svc.wait = none → s.pwr.gate = true →
    huOpen s = false → svcStoring s = false → (∀ k < 4, cellAt' s.nvm (siteLoc k) = .erased) → 8 * eWord ≤ (readPin s).pwr.energyUj →
    SettlesWrite (.svcSiteWrite seq 0 mask ws) s fun u => u.svc.wait = some
      { seq := seq % 256, cmd := 0x11, bytes := [0#8, 4#8, 0#8], words := ((rangeFrom 0 4).map siteLoc).zip ws,
        events := [(0x3009, 0x16, ws.getD 0 0#40, 0#40)] } ∧ u.svc.reply = s.svc.reply) ∧
  (∀ s seq mask r g ws, Writes s seq mask (0x14100 + 8 * (4 * r + g)) → r ≤ 3 → g ≤ 3 → ws.length = 7 → s.svc.wait = none →
    s.pwr.gate = true → keyAllowed s r g = true → (∀ k < 7, cellAt' s.nvm (keyLoc r g k) = .erased) →
    huOpen s = false → svcStoring s = false → 14 * eWord ≤ (readPin s).pwr.energyUj → SettlesWrite (.svcKeyWrite seq r g 0 mask ws) s fun u =>
      u.svc.wait = some
      { seq := seq % 256, cmd := 0x11, bytes := [0#8, 7#8, 0#8],
        words := ((rangeFrom 0 7).map (keyLoc r g)).zip (ws.take 6 ++ [ws.getD 6 0#40 &&& 0xFFFF#40]),
        events := [(0x3005, 0x16, pw r, pw g)] } ∧ u.svc.reply = s.svc.reply) ∧
  (∀ s seq n mask w c, Writes s seq mask (0x20000 + 2 * n) → n ≤ 4095 → isArmed s = true → valCfg s n = some c →
    s.svc.forces.length < 64 → SettlesWrite (.valueForce seq n mask [w]) s fun u =>
      getVal u n = ⟨w, .forced, 0x20, some s.now, true⟩ ∧ n ∈ u.svc.forces ∧ (∀ m, m ≠ n → getVal u m = getVal s m) ∧
      u.svc.reply = ⟨seq % 256, 0x11, [0#8, 1#8, 0#8]⟩) ∧
  (∀ s seq n mask w c, Writes s seq mask (0x20000 + 2 * n + 1) → n ≤ 4095 → isArmed s = true → valCfg s n = some c →
    n ∈ s.svc.forces → SettlesWrite (.forceRelease seq n mask w) s fun u =>
      (getVal u n).v = (getVal s n).v ∧ (getVal u n).q = .stale ∧ (getVal u n).unit = 0x20 ∧ (getVal u n).forced = false ∧
      n ∉ u.svc.forces ∧ u.svc.reply = ⟨seq % 256, 0x11, [0#8, 1#8, 0#8]⟩)

/-- O39. An override of a declared channel within its range replaces the channel's earlier one, of at most 64; its release
takes it away. A section command of the armed plant answers OK and starts the idle section that neither fog mode nor
the trip of its dryer holds, or stops one that starts or runs, or all of them. RESTART notes its instant and asks for
a recorder flush. (Completes: OVERRIDE_SET, OVERRIDE_RELEASE, SVC_SECTION_START, SVC_SECTION_STOP, RESTART.) (R976,
R981, R445, R446, R447, R980, 11_start, 25_service.) -/
def Obligations.OverridesSectionsAndRestart : Prop :=
  (∀ s seq kind ch w v, Taken s seq 0x30 → HasRole s plantRoles → isArmed s = true → ovrDeclared s kind ch = true →
    ovrValue kind w = some v → (ovrOthers s kind ch).length < 64 → Settles (.overrideSet seq kind ch w) s fun u =>
      u.svc.ovr = ovrOthers s kind ch ++ [⟨kind, ch, v⟩] ∧ u.svc.reply = ⟨seq % 256, 0x30, [0#8]⟩) ∧
  (∀ s seq kind ch, Taken s seq 0x30 → HasRole s plantRoles → isArmed s = true → ovrDeclared s kind ch = true →
    Settles (.overrideRelease seq kind ch 0) s fun u => u.svc.ovr = ovrOthers s kind ch ∧
      u.svc.reply = ⟨seq % 256, 0x30, [0#8]⟩) ∧
  (∀ s seq n c, Taken s seq 0x31 → HasRole s plantRoles → isArmed s = true → sectCfg s n = some c → (getSect s n).st = 1 →
    fogHolds s n = false → tripBars s n = false → Settles (.svcSectionStart seq n) s fun u => (getSect u n).st = 2 ∧ (getSect u n).run = true ∧ (getSect u n).lastStart = 0 ∧
      (getSect u n).faultStop = false ∧ u.svc.reply = ⟨seq % 256, 0x31, [0#8]⟩) ∧
  (∀ s seq n k c, Taken s seq 0x31 → HasRole s plantRoles → isArmed s = true → sectCfg s n = some c →
    ((getSect s n).st = 2 ∨ (getSect s n).st = 3) → (k = n ∨ k = 0xFF) → Settles (.svcSectionStop seq k 0) s fun u =>
      (getSect u n).st = 4 ∧ (getSect u n).run = false ∧ (getSect u n).lastStop = 2 ∧ u.svc.reply = ⟨seq % 256, 0x31, [0#8]⟩) ∧
  (∀ s seq, Taken s seq 0x32 → HasRole s engFactory → (∀ a, s.recr.lastReqFlush = some a → a + 10000000 ≤ s.now) →
    Settles (.restart seq) s fun u => u.svc.restartAt = some s.now ∧ u.recr.flushing = true ∧
      u.svc.reply = ⟨seq % 256, 0x32, [0#8]⟩)

/-- O40. An image write to the active slot outside boot-ROM service answers SELF_ERASE and changes nothing. BEGIN of
another slot, with the gate open and no image write in its erase, answers OK and begins the erase. Words 0 to 63 are
kept and answered at once, later ones are handed to the array and their reply waits; a store that is handed over needs
the energy, no open HU_CLASS ball and no other such store on its way. The final frame hands the header to the array
last. Activating a pair that runs hands the preferred word to the array; a pair that does not run is answered RANGE
with its why byte. (Completes: IMAGE_WRITE_BEGIN, IMAGE_WRITE_DATA, IMAGE_WRITE_FINAL, IMAGE_ACTIVATE.) (R311, R978,
R979, R103, 03_supplies_holdup, 08_nvm, 25_service.) -/
def Obligations.ImagesAreWritten : Prop :=
  (∀ s seq slot engine off ws, Taken s seq 0x48 → HasRole s engOnly → selfErase s (slot % 2) = true →
    Settles (.imageWriteBegin seq slot engine off ws) s (fun u => u = svcReply (asked s 0x48) seq 0x48 [0x33#8]) ∧
    Settles (.imageWriteData seq slot engine off ws) s (fun u => u = svcReply (asked s 0x48) seq 0x48 [0x33#8]) ∧
    Settles (.imageWriteFinal seq slot engine off ws) s (fun u => u = svcReply (asked s 0x48) seq 0x48 [0x33#8])) ∧
  (∀ s seq slot engine, Taken s seq 0x48 → HasRole s engOnly → selfErase s (slot % 2) = false → s.svc.img.st ≠ 1 → s.svc.wait = none →
    regionErases s.nvm (slot % 2) engine = false → s.pwr.gate = true → Settles (.imageWriteBegin seq slot engine 0 []) s fun u => u.svc.img.st = 1 ∧ u.svc.img.slot = slot % 2 ∧
      u.svc.img.engine = engine ∧ u.svc.img.next = 0 ∧ u.svc.img.head = [] ∧ u.svc.reply = ⟨seq % 256, 0x48, [0#8]⟩) ∧
  (∀ s seq slot engine off ws, Taken s seq 0x48 → HasRole s engOnly → imageCheck s (slot % 2) engine off ws.length = 0 →
    off + ws.length ≤ 64 → Settles (.imageWriteData seq slot engine off ws) s fun u => u.svc.img.next = off + ws.length ∧
      u.svc.img.head = s.svc.img.head ++ ws ∧ u.svc.reply = ⟨seq % 256, 0x48, [0#8]⟩ ∧ u.nvm = s.nvm) ∧
  (∀ s seq slot engine off ws, Taken s seq 0x48 → HasRole s engOnly → imageCheck s (slot % 2) engine off ws.length = 0 →
    64 ≤ off → ws ≠ [] → s.pwr.gate = true → huOpen s = false → svcStoring s = false → 2 * eWord * ws.length ≤ (readPin s).pwr.energyUj →
    Settles (.imageWriteData seq slot engine off ws) s fun u => u.svc.img.next = off + ws.length ∧
      u.svc.wait = some
      { seq := seq % 256, cmd := 0x48, bytes := [0#8], words := imageWords (slot % 2) engine off ws,
        image := 1, img := s.svc.img } ∧ u.svc.reply = s.svc.reply) ∧
  (∀ s seq slot engine off, Taken s seq 0x48 → HasRole s engOnly → imageCheck s (slot % 2) engine off 0 = 0 → s.svc.img.head.length = 64 →
    s.pwr.gate = true → huOpen s = false → svcStoring s = false → 128 * eWord ≤ (readPin s).pwr.energyUj → Settles (.imageWriteFinal seq slot engine off []) s fun u =>
      u.svc.img.st = 3 ∧ u.svc.reply = s.svc.reply ∧ u.svc.wait = some
        { seq := seq % 256, cmd := 0x48, words := imageWords (slot % 2) engine 0 s.svc.img.head, image := 2, img := s.svc.img }) ∧
  (∀ s seq pair, Taken s seq 0x49 → HasRole s engOnly → pair ≤ 1 → ¬(1 ≤ s.svc.img.st ∧ s.svc.img.st ≤ 3 ∧ s.svc.img.slot = pair) →
    s.svc.wait = none → s.pwr.gate = true → huOpen s = false → svcStoring s = false → 2 * eWord ≤ (readPin s).pwr.energyUj → Settles (.imageActivate seq pair) s fun u =>
      (pairWhy ((rangeFrom 0 4).map (imgResult s.nvm)) pair = 0 → u.svc.reply = s.svc.reply ∧ u.svc.wait =
        some
        { seq := seq % 256, cmd := 0x49, bytes := [0#8, 0#8], words := [(locOf 3 0 14, pw pair)],
          events := [(0x4007, 0x19, pw pair, 0#40)] }) ∧
      (pairWhy ((rangeFrom 0 4).map (imgResult s.nvm)) pair ≠ 0 → u.nvm = s.nvm ∧ u.svc.reply = ⟨seq % 256, 0x49,
        [0x31#8, BitVec.ofNat 8 (pairWhy ((rangeFrom 0 4).map (imgResult s.nvm)) pair)]⟩))

/-- O41. PLATE_BEGIN with a slot and length in range begins the erase of the slot's sectors, one after another, and the
last erase lets the write receive. PLATE_DATA keeps bytes 0 to 319 and answers at once; later bytes are programmed in
pages, and the reply waits for the last. PLATE_END of a write whose bytes are all there programs the header. An erase
leaves its sector blank, a page program ANDs its bytes into the flash, and every other byte is as before. An operation
past its time abandons the write. (Completes: PLATE_BEGIN, FLASH_SECTOR_ERASE_END, PLATE_DATA, PLATE_END,
FLASH_PAGE_PROGRAM_END, FLASH_TIMEOUT.) (R518, R519, R517, R526, 13_plate.) -/
def Obligations.PlatesAreWritten : Prop :=
  (∀ s seq slot n, Taken s seq 0x40 → HasRole s engOnly → writing s.plt.write = false → s.plt.write.op = none →
    readingPlates s = false → s.pwr.pfw = false → 71 ≤ n → n ≤ 838860 → slot ≤ 1 → flashOk s.plt.facts = true →
    s.plt.facts.erase4k = true →
    Settles (.plateBegin seq slot n) s fun u => u.plt.write.state = 1 ∧ u.plt.write.slot = slot ∧ u.plt.write.length = n ∧
      u.plt.write.bytes = 0 ∧ u.plt.write.op = some ⟨s.now, busAddr (pltAccess s.straps) (slotBase slot), none,
        if (pltAccess s.straps).addrBytes = 4 then 0x21 else s.plt.facts.op4k⟩ ∧ u.plt.flash = s.plt.flash ∧
      u.svc.reply = ⟨seq % 256, 0x40, [0#8]⟩) ∧
  (∀ s o, s.plt.write.op = some o → o.data = none → s.rst.held = false → islRuns s 9 = true → s.plt.write.state = 1 → o.addr % 4096 = 0 →
    Settles .flashSectorEraseEnd s fun u =>
      (s.plt.write.sector + 1 < s.plt.write.sectors → u.plt.write.state = 1 ∧ u.plt.write.sector = s.plt.write.sector + 1) ∧
      (s.plt.write.sectors ≤ s.plt.write.sector + 1 → u.plt.write.state = 2 ∧ u.plt.write.op = none) ∧
      ∀ a, tget 0xFF#8 u.plt.flash a = if a / 4096 = o.addr / 4096 then 0xFF#8 else tget 0xFF#8 s.plt.flash a) ∧
  (∀ s seq off bs, Taken s seq 0x41 → HasRole s engOnly → s.plt.write.state = 2 → s.plt.write.frame = none → off = s.plt.write.bytes →
    bs ≠ [] → bs.length ≤ 1000 → off + bs.length ≤ 5 * s.plt.write.length → Settles (.plateData seq off bs) s fun u =>
      u.plt.write.bytes = off + bs.length ∧ u.plt.write.head = s.plt.write.head ++ bs.take (320 - off) ∧
      (off + bs.length ≤ 320 → u.svc.reply = ⟨seq % 256, 0x41, [0#8]⟩ ∧ u.plt.write.frame = none) ∧
      (320 < off + bs.length → u.plt.write.frame = some (seq, 0x41) ∧ u.svc.reply = s.svc.reply ∧ u.plt.write.op.isSome = true)) ∧
  (∀ s seq, Taken s seq 0x42 → HasRole s engOnly → s.plt.write.state = 2 → s.plt.write.frame = none →
    s.plt.write.bytes = 5 * s.plt.write.length → Settles (.plateEnd seq) s fun u => u.plt.write.state = 3 ∧
      u.plt.write.frame = some (seq, 0x42) ∧ u.plt.flash = s.plt.flash) ∧
  (∀ s o bs, s.plt.write.op = some o → o.data = some bs → s.rst.held = false → islRuns s 9 = true →
    Settles .flashPageProgramEnd s fun u =>
    ∀ a, tget 0xFF#8 u.plt.flash a = if o.addr ≤ a ∧ a < o.addr + bs.length
      then tget 0xFF#8 s.plt.flash a &&& bs.getD (a - o.addr) 0#8 else tget 0xFF#8 s.plt.flash a) ∧
  (∀ s o bs p ps, s.plt.write.op = some o → o.data = some bs → s.rst.held = false → islRuns s 9 = true → s.plt.write.pages = p :: ps →
    Settles .flashPageProgramEnd s fun u => u.plt.write.pages = ps ∧ u.plt.write.op =
      some ⟨s.now, busAddr (pltAccess s.straps) p.1, some p.2, (pltAccess s.straps).programCmd⟩) ∧
  (∀ s o, s.plt.write.op = some o → s.rst.held = false → 1 ≤ s.plt.write.state → s.plt.write.state ≤ 4 →
    (o.data = none → o.since + 1000000 < s.now) → (o.data.isSome = true → o.since + 10000 < s.now) → Settles .flashTimeout s fun u =>
      u.plt.write.state = 6 ∧ u.plt.write.fail = 1 ∧ u.plt.write.op = none)

/-- O42. With a command at the front of the queue the step is exec of it on the state with the queue's rest. With an empty
queue the step answers the state one microsecond later: that is the model's choice (assumption 1). (00_scope.) -/
def Obligations.StepTakesTheFront : Prop :=
  (∀ c rest s, s.pending = c :: rest → step s = exec c { s with pending := rest }) ∧
  (∀ s, s.pending = [] → step s = .next { s with now := s.now + 1 })

/-- O43. For every command with any operands and for every state, exec answers a next state. (95_what_each_step_holds.) -/
def Obligations.EveryCommandAnswersANextState : Prop :=
  ∀ c s, ∃ t, exec c s = .next t

/-- O44. Whatever the command, the state it answers has the clock and the waiting commands of the state it ran on: time
passes only on an empty queue (assumption 1). (00_scope.) -/
def Obligations.ClockAndQueueStand : Prop :=
  ∀ c s t, exec c s = .next t → t.now = s.now ∧ t.pending = s.pending

/-- O45. From every state whose array cells, spare cells and flash bytes are listed in rising order, none equal to what an
unlisted one reads as, and whose redirection lists first words of rows in that form, a step that answers a next state
answers one whose memories have that form too. Equal memories are thus equal data throughout. (08_nvm, 13_plate.) -/
def Obligations.MemoriesStayCanonical : Prop :=
  ∀ s t, Memory.wf s = true → step s = .next t → Memory.wf t = true

/-- O46. Right after reset the memories are canonical and list nothing, step 1 of the start timeline is in progress, the
cause of the reset is RESET_N with the power-on reset seen, no session is open and the port runs at 115 200 bit/s, no
fault is uncleared and the fatal latch is clear, the record buffer, the store queue and the command queue are empty,
no section runs, and the calendar is not valid with reason 1. While no command is sent, k steps from there answer that
state k microseconds later, nothing else of it moved. The blank array and the idle step are the model's choices
(assumptions 8 and 1). (R123, R87, R961, R394, R840, 03_supplies_holdup, 10_recorder, 22_calendar, 25_service.) -/
def Obligations.ResetIsAsStated : Prop :=
  Memory.wf State.reset = true ∧ State.reset.nvm.cells = [] ∧ State.reset.plt.flash = [] ∧ State.reset.rst.held = false ∧
  State.reset.rst.cause = 0 ∧ State.reset.rst.por = true ∧ State.reset.start.state = .starting ∧ State.reset.start.step = 1 ∧
  State.reset.svc.sess = none ∧ State.reset.svc.baud = 115200 ∧ State.reset.flt.fatal = false ∧ State.reset.flt.src = [] ∧
  State.reset.recr.buf = [] ∧ State.reset.pwr.queue = [] ∧ State.reset.start.sects = [] ∧ State.reset.cal.valid = false ∧
  State.reset.cal.why = 1 ∧ State.reset.pending = [] ∧
  ∀ k, stepsFrom k State.reset = some { State.reset with now := State.reset.now + k }

/-- O47. The units are the structures of the state. A command of these families writes at most the units that `mayWrite`
lists for it (the plant units that settle after a command among them), unless the command is one that may reset the
chip and has done so: then the reset is held in the state it answers. (95_what_each_step_holds.) -/
def Obligations.BlockCommandsKeepToTheirUnits : Prop :=
  ∀ c s t p, (family c = .supply ∨ family c = .start ∨ family c = .memory ∨ family c = .fabric) → exec c s = .next t → (mayReset c = false ∨ t.rst.held = false) →
    p ∉ mayWrite c → Part.same p t s

/-- O48. The units are the structures of the state. A command of these families writes at most the units that `mayWrite`
lists for it (the plant units that settle after a command among them), unless the command is one that may reset the
chip and has done so: then the reset is held in the state it answers. (95_what_each_step_holds.) -/
def Obligations.PlantAndLinkCommandsKeepToTheirUnits : Prop :=
  ∀ c s t p, (family c = .front ∨ family c = .plant ∨ family c = .links ∨ family c = .service) → exec c s = .next t → (mayReset c = false ∨ t.rst.held = false) →
    p ∉ mayWrite c → Part.same p t s

/-- O49. A command that is not the end of a word's store, of an erase pulse or of a chunk, a scrub read, an end of the
flash's erases and programs, a time-out of the array or the flash, or a proof, and that has not reset the chip, leaves
every word of the array and every byte of the flash as it was. (R301, R304, 08_nvm.) -/
def Obligations.CommandsThatStoreNothingKeepTheMemories : Prop :=
  ∀ c s t, mayStore c = false → exec c s = .next t → (mayReset c = false ∨ t.rst.held = false) →
    (∀ l, tget .erased t.nvm.cells l = tget .erased s.nvm.cells l) ∧ (∀ a, tget 0xFF#8 t.plt.flash a = tget 0xFF#8 s.plt.flash a)

/-- O50. RESET_N, the supervisors and the power-on resets leave every word of the array as it was that is not the word
whose program a bank has in hand, in no row under erase and in no row whose redirection the repair map changes as the
reset reads it; and every byte of the flash outside the sector whose erase has begun. The redirection's form that the
statement needs is kept by every step (MemoriesStayCanonical). (R338, R339, R345, R422, R523, 08_nvm, 10_recorder,
13_plate.) -/
def Obligations.ChipResetsTearOnlyWhatIsInHand : Prop :=
  ∀ c s t, redirectOk s.nvm.redirect = true → c ∈ [Instr.resetNAssert, .vcoreSupervisorTrip, .vcorePowerOnReset, .vioSupervisorTrip, .vanaPowerOnReset] →
    exec c s = .next t →
    (∀ l, (∀ w ∈ turnsInHand s, w.1 ≠ l) → l / 512 * 512 ∉ rowsErasing s.nvm →
      tget 0 t.nvm.redirect (l / 512 * 512) = tget 0 s.nvm.redirect (l / 512 * 512) →
      tget .erased t.nvm.cells l = tget .erased s.nvm.cells l) ∧
    (∀ a, (∀ o, s.plt.write.op = some o → o.data = none → a < o.addr ∨ o.addr + 4096 ≤ a) →
      tget 0xFF#8 t.plt.flash a = tget 0xFF#8 s.plt.flash a)

/-- O51. Settling (the switches, sections, plenums, motors, gates, heats and pins as they follow from the values) writes
no unit outside those listed for it; it leaves the clock and the queue, state and step of the start, the trip latch
and fog mode, and the frames of the tiles. (95_what_each_step_holds.) -/
def Obligations.SettlingKeepsOtherUnits : Prop :=
  ∀ s, (∀ p, p ∉ settleParts → Part.same p (settle s) s) ∧ (settle s).now = s.now ∧ (settle s).pending = s.pending ∧
    (settle s).start.state = s.start.state ∧ (settle s).start.step = s.start.step ∧ (settle s).fan.trip = s.fan.trip ∧
    (settle s).fan.fog = s.fan.fog ∧ (settle s).eng.frames = s.eng.frames

/-- O52. Whatever the command, but for the VCORE power-on reset, a state with the fatal latch set leads to a state with
the latch set and the same latched source and parameter, chip resets included. (R360, R87, 03_supplies_holdup,
09_faults.) -/
def Obligations.FatalLatchStays : Prop :=
  ∀ c s t, s.flt.fatal = true → c ≠ .vcorePowerOnReset → exec c s = .next t →
    t.flt.fatal = true ∧ t.flt.fatalSrc = s.flt.fatalSrc ∧ t.flt.fatalParam = s.flt.fatalParam

/-- O53. From every state whose record buffer holds at most 256 records, with at most 64 overrides and at most 64 forces,
a step that answers a next state answers one that keeps these bounds. (R394, R399, R981, R977, 10_recorder,
25_service.) -/
def Obligations.BuffersStayWithinTheirSizes : Prop :=
  ∀ s t, s.recr.buf.length ≤ 256 → s.svc.ovr.length ≤ 64 → s.svc.forces.length ≤ 64 → step s = .next t →
    t.recr.buf.length ≤ 256 ∧ t.svc.ovr.length ≤ 64 ∧ t.svc.forces.length ≤ 64

/-- O54. If no session is open and a command leads to a state with one, the command is an AUTH, its tag is the one that
the current key of the role it names gives for the nonce held, and the session has that role. (R957, R956,
25_service.) -/
def Obligations.OnlyAuthOpensASession : Prop :=
  ∀ c s t x, s.svc.sess = none → exec c s = .next t → t.svc.sess = some x →
    ∃ seq role nonce g tag, c = .auth seq role tag ∧ s.svc.nonce = some nonce ∧ authTag s role nonce = some (g, tag) ∧
      x = ⟨role, g, s.now⟩

/-- O55. After a reset source other than the VIO supervisor every output ball takes its Reset column, unless VIO is out of
range or the fatal latch stands; with the latch standing, RESET_N and the supervisors leave every ball in its Fatal
column, with SHUTDOWN_N, FAULT_N and BEACON low, CANn_TXD and CANn_STB high and no contactor driven. After a VIO
supervisor trip every ball but the two analog ones is undriven and no internal pull acts. A stopped 40 MHz crystal
leaves CANn_TXD recessive and CANn_STB high. The VIO supervisor's range stands for VIO's (assumption 44). (Completes:
VIO_SUPERVISOR_TRIP, XT40_STOP.) (R52, R53, R79, R82, R866, 02_balls_straps, 23_can.) -/
def Obligations.BallsFollowTheirColumns : Prop :=
  (∀ s c b, c ∈ [Instr.resetNAssert, .vcoreSupervisorTrip, .vcorePowerOnReset, .vanaPowerOnReset] → vioOut s = false →
    (c = .vcorePowerOnReset ∨ s.flt.fatal = false) → Runs c s fun t => ballDrive t b = resetDrive b) ∧
  (∀ s c n, c ∈ [Instr.resetNAssert, .vcoreSupervisorTrip, .vanaPowerOnReset] → vioOut s = false → s.flt.fatal = true →
    Runs c s fun t => (∀ b, ballDrive t b = fatalDrive t b) ∧ ballLevel t .shutdownN = some false ∧
      ballLevel t .faultN = some false ∧ ballLevel t .beacon = some false ∧ ballLevel t (.canTxd n) = some true ∧
      ballLevel t (.canStb n) = some true ∧ ballDrive t (.motRun n) = .hiZ) ∧
  (∀ s b, b ≠ .vrefOut → b ≠ .trip → Runs .vioSupervisorTrip s fun t =>
    ballDrive t b = .hiZ ∧ ballLevel t b = boardPull t b) ∧
  (∀ s n, s.rst.held = false → s.rst.extest = false → s.isl.xtOk = true → s.isl.rcOk = true →
    Runs .xt40Stop s fun t => ballLevel t (.canTxd n) = some true ∧ ballLevel t (.canStb n) = some true)

/-- O56. For every command that is a request of the service port: within a session, when SEQ and CMD are those of the
previous request and at most 1 s has passed since the end of its reply, the previous reply is sent again; nothing else
follows but that the session has heard the request and the frame is counted (the plant then settles as after every
command). (R951.) -/
def Obligations.RetransmissionsAreNotActedOn : Prop :=
  ∀ c s seq cmd r a, requestOf c = some (seq, cmd) → svcHears s = true → s.svc.sess.isSome = true →
    s.svc.prev = some (r, a) → r.seq = seq % 256 → r.cmd = cmd → s.now ≤ a + 1000000 →
    ∃ u, (exec c s = .next (settle u) ∨ exec c s = .next (latchReset s.flt.fatal (settle u))) ∧
      u = { s with svc := { s.svc with
        reply := r, answered := min 65535 (s.svc.answered + 1), baudAt := none
        sess := s.svc.sess.map (fun x => { x with seen := s.now }) } }

/-- O57. A producer's write of a value that is not forced keeps its instant, so that the age is 0 then, whatever the word
was; any time later the age is the milliseconds since, computed when read. While a value is forced, its producer's
writes change nothing and its age is 0. At the end of the session every value that the session forces keeps its word
with quality STALE and unit 20H, unforced, so that it takes its producer's next write. (R278, R282.) -/
def Obligations.AgesAndForcesOfValues : Prop :=
  (∀ s i w q k, (getVal s i).forced = false → getVal (putVal s i w q k) i = ⟨w, q, k, some s.now, false⟩ ∧
    valAge (putVal s i w q k) (getVal (putVal s i w q k) i) = 0) ∧
  (∀ s i a, (getVal s i).forced = false → (getVal s i).at_ = some a → valAge s (getVal s i) = min 16777215 ((s.now - a) / 1000)) ∧
  (∀ s i w q k, (getVal s i).forced = true → putVal s i w q k = s ∧ valAge s (getVal s i) = 0) ∧
  (∀ s x i r, s.svc.sess = some x → i ∈ s.svc.forces → (getVal (endSession s r) i).v = (getVal s i).v ∧
    (getVal (endSession s r) i).q = .stale ∧ (getVal (endSession s r) i).unit = 0x20 ∧ (getVal (endSession s r) i).forced = false)

/-- O58. A raise of a source that is uncleared and unacknowledged keeps its effective class and escalation, makes no
history entry, starts no reaction (sections, islands, resets and the flush of a raised fault are as before), and
counts in REPEATS and by the recorder's rule. (R356.) -/
def Obligations.RepeatsNeverEscalate : Prop :=
  ∀ s n p k, (getSrc s.flt n).uncleared = true → (getSrc s.flt n).acked = false →
    getSrc (raiseNow s n p k).flt n = { getSrc s.flt n with
      repeats := min 65535 ((getSrc s.flt n).repeats + 1), param := p, unit := k, cause := true, own := true } ∧
    (raiseNow s n p k).flt.hist = s.flt.hist ∧ (raiseNow s n p k).flt.raises = s.flt.raises ∧
    (raiseNow s n p k).flt.resetAt = s.flt.resetAt ∧ (raiseNow s n p k).flt.fatal = s.flt.fatal ∧
    (∀ m, m ≠ n → getSrc (raiseNow s n p k).flt m = getSrc s.flt m) ∧
    (raiseNow s n p k).start = s.start ∧ (raiseNow s n p k).isl = s.isl ∧
    (raiseNow s n p k).recr = recrAdd s.recr (newRecord s (0x1000 + n) k p
      (mirrorB (cfgOf s.flt n).1 (getSrc s.flt n).eff (min 65535 ((getSrc s.flt n).repeats + 1))))

/-- O59. An acknowledgment of a source whose cause is gone, and the end of the cause of an acknowledged source, clear a
source whose effective class is not Fatal: it is no longer uncleared, its effective class, REPEATS and ESCALATED are
0, and the mirror 1200H + s is recorded. While the cause lasts, or the source is unacknowledged, it stays uncleared.
(R358.) -/
def Obligations.FaultsClearOnceAcknowledgedAndGone : Prop :=
  (∀ s n, (getSrc s.flt n).uncleared = true → (getSrc s.flt n).acked = false → (getSrc s.flt n).cause = false →
    (getSrc s.flt n).eff ≠ .fatal → clearedSrc (ackSrc s n) n ∧ mirrored (ackSrc s n) n) ∧
  (∀ s n, (getSrc s.flt n).uncleared = true → (getSrc s.flt n).acked = true → (getSrc s.flt n).cause = true →
    (getSrc s.flt n).broken = false → (getSrc s.flt n).eff ≠ .fatal → clearedSrc (causeOffNow s n) n ∧ mirrored (causeOffNow s n) n) ∧
  (∀ s n, (getSrc s.flt n).uncleared = true → (getSrc s.flt n).acked = false → (getSrc s.flt n).cause = true →
    (getSrc (ackSrc s n).flt n).uncleared = true ∧ (getSrc (causeOffNow s n).flt n).uncleared = true)

/-- O60. The outcome of a unit is WRITTEN_ONCE when a word that is written differs, else OK when a word is still erased,
else OK_SAME. A commit whose unit differs answers WRITTEN_ONCE and one whose words are all equal answers OK_SAME, and
neither programs a word or asks for a store. (R313.) -/
def Obligations.WriteOnceUnitsAreComparedWhole : Prop :=
  (∀ n ws, onceOutcome n ws = 2 ↔ ∃ x ∈ ws, cellAt' n x.1 ≠ .erased ∧ nvRaw n x.1 ≠ x.2) ∧
  (∀ n ws, onceOutcome n ws = 0 ↔ (∀ x ∈ ws, cellAt' n x.1 = .erased ∨ nvRaw n x.1 = x.2) ∧ ∃ x ∈ ws, cellAt' n x.1 = .erased) ∧
  (∀ n ws, onceOutcome n ws = 1 ↔ ∀ x ∈ ws, cellAt' n x.1 ≠ .erased ∧ nvRaw n x.1 = x.2) ∧
  (∀ s o first locs ws ev, onceOutcome s.nvm (locs.zip ws) = 2 → (onceCommit s o first locs ws ev).1.st = 0x11 ∧
    (onceCommit s o first locs ws ev).2.nvm = s.nvm ∧ (onceCommit s o first locs ws ev).2.pwr = s.pwr) ∧
  (∀ s o first locs ws ev, onceOutcome s.nvm (locs.zip ws) = 1 → (onceCommit s o first locs ws ev).1.st = 0x01 ∧
    (onceCommit s o first locs ws ev).2 = s)
end

