-- ==== Sys2Proof/Laws/Tab.lean ====
section
/-! SUPPORT. Laws of the sparse tables: a read after a write, and that every operation on the array and on the plate flash keeps
the canonical form (strictly rising keys, no entry equal to what an unlisted key reads as). -/

namespace Sys2Proof.Machine

open Sys2Proof

variable {α : Type}

/-! Reads after writes. -/

theorem tget_tdel_same (d : α) (t : Tab α) (i : Nat) : tget d (tdel t i) i = d := by
  induction t with
  | nil => rfl
  | cons e t ih =>
    obtain ⟨k, v⟩ := e
    by_cases h : i = k <;> simp [tdel, tget, h] <;> simpa [h] using ih

theorem tget_tdel_other (d : α) (t : Tab α) {i j : Nat} (h : j ≠ i) : tget d (tdel t i) j = tget d t j := by
  induction t with
  | nil => rfl
  | cons e t ih =>
    obtain ⟨k, v⟩ := e
    by_cases hi : i = k
    · subst hi; simp [tdel, tget, h, ih]
    · simp [tdel, tget, hi, ih]

theorem tget_tins_same (d : α) (t : Tab α) (i : Nat) (x : α) : tget d (tins t i x) i = x := by
  induction t with
  | nil => simp [tins, tget]
  | cons e t ih =>
    obtain ⟨k, v⟩ := e
    by_cases h1 : i < k
    · simp [tins, tget, h1]
    · by_cases h2 : i = k <;> simp [tins, tget, h2]
      · simp [h1, h2, tget, ih]

theorem tget_tins_other (d : α) (t : Tab α) {i j : Nat} (x : α) (h : j ≠ i) :
    tget d (tins t i x) j = tget d t j := by
  induction t with
  | nil => simp [tins, tget, h]
  | cons e t ih =>
    obtain ⟨k, v⟩ := e
    by_cases h1 : i < k
    · simp [tins, tget, h1, h]
    · by_cases h2 : i = k
      · subst h2; simp [tins, tget, h]
      · simp [tins, tget, h1, h2, ih]

/-- Reading back the index that was written. -/
@[simp] theorem tget_tset_same [DecidableEq α] (d : α) (t : Tab α) (i : Nat) (x : α) : tget d (tset d t i x) i = x := by
  unfold tset
  split
  · next h => rw [tget_tdel_same, h]
  · exact tget_tins_same d t i x

/-- A write leaves every other index alone. -/
theorem tget_tset_other [DecidableEq α] (d : α) (t : Tab α) {i j : Nat} (x : α) (h : j ≠ i) :
    tget d (tset d t i x) j = tget d t j := by
  unfold tset
  split
  · exact tget_tdel_other d t h
  · exact tget_tins_other d t x h

/-! The canonical form. -/

theorem tabRising_iff (t : Tab α) : tabRising t = true ↔ (t.map (·.1)).Pairwise (· < ·) := by
  induction t with
  | nil => simp [tabRising]
  | cons e t ih =>
    cases t with
    | nil => simp [tabRising]
    | cons f t =>
      simp only [tabRising, Bool.and_eq_true, decide_eq_true_eq, ih, List.map_cons, List.pairwise_cons] at ih ⊢
      constructor
      · rintro ⟨h, h1, h2⟩
        refine ⟨?_, h1, h2⟩
        intro a ha
        rcases List.mem_cons.1 ha with rfl | ha
        · exact h
        · exact Nat.lt_trans h (h1 a ha)
      · rintro ⟨h, h1, h2⟩
        exact ⟨h _ (by simp), h1, h2⟩

theorem tabNoDefault_iff [DecidableEq α] (d : α) (t : Tab α) : tabNoDefault d t = true ↔ ∀ e ∈ t, e.2 ≠ d := by
  induction t with
  | nil => simp [tabNoDefault]
  | cons e t ih => simp [tabNoDefault, ih]

/-- The canonical form, as a property of the entries. -/
theorem tabWf_iff [DecidableEq α] (d : α) (t : Tab α) :
    tabWf d t = true ↔ (t.map (·.1)).Pairwise (· < ·) ∧ ∀ e ∈ t, e.2 ≠ d := by
  simp [tabWf, tabRising_iff, tabNoDefault_iff]

theorem mem_tins (t : Tab α) (i : Nat) (x : α) (e : Nat × α) (h : e ∈ tins t i x) : e = (i, x) ∨ e ∈ t := by
  induction t with
  | nil => simpa [tins] using h
  | cons f t ih =>
    obtain ⟨k, v⟩ := f
    simp only [tins] at h
    split at h
    · simpa using h
    · split at h
      · rcases List.mem_cons.1 h with h | h
        · exact .inl h
        · exact .inr (List.mem_cons_of_mem _ h)
      · rcases List.mem_cons.1 h with h | h
        · exact .inr (by simp [h])
        · exact (ih h).imp id (List.mem_cons_of_mem _)

theorem rising_tins (t : Tab α) (i : Nat) (x : α) (h : (t.map (·.1)).Pairwise (· < ·)) :
    ((tins t i x).map (·.1)).Pairwise (· < ·) := by
  induction t with
  | nil => simp [tins]
  | cons f t ih =>
    obtain ⟨k, v⟩ := f
    simp only [List.map_cons, List.pairwise_cons] at h
    simp only [tins]
    split
    · next hk =>
      simp only [List.map_cons, List.pairwise_cons]
      refine ⟨?_, h.1, h.2⟩
      intro a ha
      rcases List.mem_cons.1 ha with rfl | ha
      · exact hk
      · exact Nat.lt_trans hk (h.1 a ha)
    · split
      · next hk =>
        simp only [List.map_cons, List.pairwise_cons]
        exact ⟨by simpa [hk] using h.1, h.2⟩
      · next h1 h2 =>
        simp only [List.map_cons, List.pairwise_cons]
        refine ⟨?_, ih h.2⟩
        intro a ha
        obtain ⟨e, he, rfl⟩ := List.mem_map.1 ha
        rcases mem_tins t i x e he with rfl | he
        · simp only; omega
        · exact h.1 _ (List.mem_map.2 ⟨e, he, rfl⟩)

theorem tdel_eq_filter (t : Tab α) (i : Nat) : tdel t i = t.filter (fun e => e.1 != i) := by
  induction t with
  | nil => rfl
  | cons e t ih =>
    obtain ⟨k, v⟩ := e
    by_cases h : i = k
    · subst h; simp [tdel, ih]
    · simp [tdel, h, ih, Ne.symm h]

/-- Entries left out keep the form. -/
theorem tabWf_filter [DecidableEq α] (d : α) (t : Tab α) (p : Nat × α → Bool) (h : tabWf d t = true) :
    tabWf d (t.filter p) = true := by
  rw [tabWf_iff] at h ⊢
  refine ⟨?_, fun e he => h.2 e (List.mem_filter.1 he).1⟩
  exact h.1.sublist ((List.filter_sublist).map _)

/-- A write keeps the form. -/
theorem tabWf_tset [DecidableEq α] (d : α) (t : Tab α) (i : Nat) (x : α) (h : tabWf d t = true) :
    tabWf d (tset d t i x) = true := by
  unfold tset
  split
  · rw [tdel_eq_filter]; exact tabWf_filter d t _ h
  · next hx =>
    rw [tabWf_iff] at h ⊢
    refine ⟨rising_tins t i x h.1, ?_⟩
    intro e he
    rcases mem_tins t i x e he with rfl | he
    · exact hx
    · exact h.2 e he

/-! Operations on the array and on the flash. -/

theorem nvPut_wf (n : Nvm) (l : Nat) (w : Word) (h : tabWf .erased n.cells = true) :
    tabWf .erased (nvPut n l w).cells = true := by
  exact tabWf_tset .erased n.cells l (.clean w) h

theorem nvErase_wf (n : Nvm) (b row : Nat) (h : tabWf .erased n.cells = true) :
    tabWf .erased (nvErase n b row).cells = true := tabWf_filter _ _ _ h

theorem putCopy_wf (n : Nvm) (l : Nat) (h : tabWf .erased n.spareCells = true) :
    tabWf .erased (putCopy n l).spareCells = true := by
  unfold putCopy
  split
  · exact h
  · exact tabWf_tset _ _ _ _ h

/-- Any run of writes keeps the form. -/
theorem tabWf_foldl [DecidableEq α] (d : α) (l : List Nat) (f : Nat → Nat) (g : Nat → α) (t : Tab α) (h : tabWf d t = true) :
    tabWf d (l.foldl (fun u w => tset d u (f w) (g w)) t) = true := by
  induction l generalizing t with
  | nil => exact h
  | cons w ws ih => exact ih _ (tabWf_tset d t _ _ h)

theorem putRow_wf (t : Tab NvCell) (base : Nat) (f : Nat → NvCell) (h : tabWf .erased t = true) :
    tabWf .erased (putRow t base f) = true := tabWf_foldl _ _ _ _ _ h

/-- The first word of a row is a multiple of a row's words. -/
theorem locOf_zero_mod (b row : Nat) : locOf b row 0 % 512 = 0 := by unfold locOf; omega

theorem redirectOk_del (t : Tab Nat) (i : Nat) (h : redirectOk t = true) : redirectOk (tset 0 t i 0) = true := by
  simp only [redirectOk, Bool.and_eq_true, List.all_eq_true] at h ⊢
  refine ⟨tabWf_tset _ _ _ _ h.1, fun e he => h.2 e ?_⟩
  simp only [tset, ↓reduceIte, tdel_eq_filter] at he
  exact (List.mem_filter.1 he).1

theorem redirectOk_set (t : Tab Nat) (i x : Nat) (hi : i % 512 = 0) (h : redirectOk t = true) :
    redirectOk (tset 0 t i x) = true := by
  by_cases hx : x = 0
  · subst hx; exact redirectOk_del t i h
  · simp only [redirectOk, Bool.and_eq_true, List.all_eq_true] at h ⊢
    refine ⟨tabWf_tset _ _ _ _ h.1, fun e he => ?_⟩
    simp only [tset, hx, ↓reduceIte] at he
    rcases mem_tins _ _ _ _ he with rfl | he
    · simp [hi]
    · exact h.2 e he

/-- The cells, those of the spare rows and those that redirected rows hold themselves are in canonical form, and so is the
redirection. -/
abbrev ArrayOk (n : Nvm) : Prop :=
  tabWf .erased n.cells = true ∧ tabWf .erased n.spareCells = true ∧ tabWf .erased n.oldCells = true ∧
    redirectOk n.redirect = true

theorem enterSpare_wf (n : Nvm) (b row k : Nat) (h : ArrayOk n) : ArrayOk (enterSpare n b row k) := by
  simp only [ArrayOk, enterSpare, putRow_wf _ _ _ h.1, putRow_wf _ _ _ h.2.1, putRow_wf _ _ _ h.2.2.1,
    redirectOk_set _ _ _ (locOf_zero_mod b row) h.2.2.2, and_self]

theorem leaveSpare_wf (n : Nvm) (base : Nat) (h : ArrayOk n) : ArrayOk (leaveSpare n base) := by
  simp only [ArrayOk, leaveSpare, putRow_wf _ _ _ h.1, putRow_wf _ _ _ h.2.1, putRow_wf _ _ _ h.2.2.1,
    redirectOk_del _ _ h.2.2.2, and_self]

theorem redirectTo_wf (n : Nvm) (t : Tab Nat) (h : ArrayOk n) : ArrayOk (redirectTo n t) := by
  have leave : ∀ (l : List (Nat × Nat)) (n : Nvm), ArrayOk n →
      ArrayOk (l.foldl (fun (n : Nvm) e => if tget 0 t e.1 == e.2 then n else leaveSpare n e.1) n) := by
    intro l
    induction l with
    | nil => exact fun _ h => h
    | cons e es ih =>
      intro n h
      refine ih _ ?_
      dsimp only
      split
      · exact h
      · exact leaveSpare_wf _ _ h
  have enter : ∀ (l : List (Nat × Nat)) (n : Nvm), ArrayOk n → ArrayOk (l.foldl (fun (n : Nvm) e =>
      if tget 0 n.redirect e.1 == e.2 then n else enterSpare n (locBank e.1) (locRow e.1) (e.2 - 1024)) n) := by
    intro l
    induction l with
    | nil => exact fun _ h => h
    | cons e es ih =>
      intro n h
      refine ih _ ?_
      dsimp only
      split
      · exact h
      · exact enterSpare_wf _ _ _ _ h
  simp only [redirectTo]
  exact enter _ _ (leave _ _ h)

theorem bootNvm_wf (n : Nvm) (h : ArrayOk n) : ArrayOk (bootNvm n) := by
  simp only [bootNvm]
  exact redirectTo_wf _ _ h

theorem redirectCells_wf (n : Nvm) (r : Retire) (h : ArrayOk n) : ArrayOk (redirectCells n r) := by
  simpa only [ArrayOk, redirectCells] using enterSpare_wf n r.bank r.row r.spare h

theorem flashErase_wf (f : Tab Byte) (a : Nat) (h : tabWf 0xFF#8 f = true) : tabWf 0xFF#8 (flashErase f a) = true :=
  tabWf_filter _ _ _ h

theorem flashProgram_wf (f : Tab Byte) (a : Nat) (bs : List Byte) (h : tabWf 0xFF#8 f = true) :
    tabWf 0xFF#8 (flashProgram f a bs) = true := by
  induction bs generalizing f a with
  | nil => exact h
  | cons b bs ih => exact ih _ _ (tabWf_tset _ _ _ _ h)

theorem flashKept_wf (p : Plt) (h : tabWf 0xFF#8 p.flash = true) : tabWf 0xFF#8 (flashKept p) = true := by
  unfold flashKept
  split
  · exact flashErase_wf _ _ h
  · exact h

end Sys2Proof.Machine
end

