-- ==== Sys2Proof/Laws/Only.lean ====
section
/-! SUPPORT. What an operation leaves alone: `Only.xY t s` says that every unit but x and Y is the same in t as in s. "raise" in a name
stands for the units that a raised fault may change: eng, flt, isl, recr, start and sw. -/

set_option linter.unusedSimpArgs false
set_option linter.unusedVariables false

namespace Sys2Proof.Machine

open Sys2Proof

abbrev Only.free (t s : State) : Prop :=
    (t.now = s.now ∧ t.rst = s.rst ∧ t.straps = s.straps ∧ t.pending = s.pending) ∧
    (t.pwr = s.pwr ∧ t.nvm = s.nvm ∧ t.flt = s.flt ∧ t.recr = s.recr ∧ t.start = s.start) ∧
    (t.prf = s.prf ∧ t.plt = s.plt ∧ t.adm = s.adm ∧ t.eng = s.eng ∧ t.spn = s.spn) ∧
    (t.isl = s.isl ∧ t.fe = s.fe ∧ t.sw = s.sw ∧ t.mns = s.mns ∧ t.stb = s.stb) ∧
    (t.fan = s.fan ∧ t.mot = s.mot ∧ t.gat = s.gat ∧ t.htd = s.htd) ∧
    (t.cal = s.cal ∧ t.can = s.can ∧ t.syn = s.syn ∧ t.svc = s.svc)

abbrev Only.recr (t s : State) : Prop :=
    (t.now = s.now ∧ t.free = s.free ∧ t.rst = s.rst ∧ t.straps = s.straps ∧ t.pending = s.pending) ∧
    (t.pwr = s.pwr ∧ t.nvm = s.nvm ∧ t.flt = s.flt ∧ t.start = s.start) ∧
    (t.prf = s.prf ∧ t.plt = s.plt ∧ t.adm = s.adm ∧ t.eng = s.eng ∧ t.spn = s.spn) ∧
    (t.isl = s.isl ∧ t.fe = s.fe ∧ t.sw = s.sw ∧ t.mns = s.mns ∧ t.stb = s.stb) ∧
    (t.fan = s.fan ∧ t.mot = s.mot ∧ t.gat = s.gat ∧ t.htd = s.htd) ∧
    (t.cal = s.cal ∧ t.can = s.can ∧ t.syn = s.syn ∧ t.svc = s.svc)

abbrev Only.engSw (t s : State) : Prop :=
    (t.now = s.now ∧ t.free = s.free ∧ t.rst = s.rst ∧ t.straps = s.straps ∧ t.pending = s.pending) ∧
    (t.pwr = s.pwr ∧ t.nvm = s.nvm ∧ t.flt = s.flt ∧ t.recr = s.recr ∧ t.start = s.start) ∧
    (t.prf = s.prf ∧ t.plt = s.plt ∧ t.adm = s.adm ∧ t.spn = s.spn) ∧
    (t.isl = s.isl ∧ t.fe = s.fe ∧ t.mns = s.mns ∧ t.stb = s.stb) ∧
    (t.fan = s.fan ∧ t.mot = s.mot ∧ t.gat = s.gat ∧ t.htd = s.htd) ∧
    (t.cal = s.cal ∧ t.can = s.can ∧ t.syn = s.syn ∧ t.svc = s.svc)

abbrev Only.eng (t s : State) : Prop :=
    (t.now = s.now ∧ t.free = s.free ∧ t.rst = s.rst ∧ t.straps = s.straps ∧ t.pending = s.pending) ∧
    (t.pwr = s.pwr ∧ t.nvm = s.nvm ∧ t.flt = s.flt ∧ t.recr = s.recr ∧ t.start = s.start) ∧
    (t.prf = s.prf ∧ t.plt = s.plt ∧ t.adm = s.adm ∧ t.spn = s.spn) ∧
    (t.isl = s.isl ∧ t.fe = s.fe ∧ t.sw = s.sw ∧ t.mns = s.mns ∧ t.stb = s.stb) ∧
    (t.fan = s.fan ∧ t.mot = s.mot ∧ t.gat = s.gat ∧ t.htd = s.htd) ∧
    (t.cal = s.cal ∧ t.can = s.can ∧ t.syn = s.syn ∧ t.svc = s.svc)

abbrev Only.recrEng (t s : State) : Prop :=
    (t.now = s.now ∧ t.free = s.free ∧ t.rst = s.rst ∧ t.straps = s.straps ∧ t.pending = s.pending) ∧
    (t.pwr = s.pwr ∧ t.nvm = s.nvm ∧ t.flt = s.flt ∧ t.start = s.start) ∧
    (t.prf = s.prf ∧ t.plt = s.plt ∧ t.adm = s.adm ∧ t.spn = s.spn) ∧
    (t.isl = s.isl ∧ t.fe = s.fe ∧ t.sw = s.sw ∧ t.mns = s.mns ∧ t.stb = s.stb) ∧
    (t.fan = s.fan ∧ t.mot = s.mot ∧ t.gat = s.gat ∧ t.htd = s.htd) ∧
    (t.cal = s.cal ∧ t.can = s.can ∧ t.syn = s.syn ∧ t.svc = s.svc)

abbrev Only.freeNvm (t s : State) : Prop :=
    (t.now = s.now ∧ t.rst = s.rst ∧ t.straps = s.straps ∧ t.pending = s.pending) ∧
    (t.pwr = s.pwr ∧ t.flt = s.flt ∧ t.recr = s.recr ∧ t.start = s.start) ∧
    (t.prf = s.prf ∧ t.plt = s.plt ∧ t.adm = s.adm ∧ t.eng = s.eng ∧ t.spn = s.spn) ∧
    (t.isl = s.isl ∧ t.fe = s.fe ∧ t.sw = s.sw ∧ t.mns = s.mns ∧ t.stb = s.stb) ∧
    (t.fan = s.fan ∧ t.mot = s.mot ∧ t.gat = s.gat ∧ t.htd = s.htd) ∧
    (t.cal = s.cal ∧ t.can = s.can ∧ t.syn = s.syn ∧ t.svc = s.svc)

abbrev Only.start (t s : State) : Prop :=
    (t.now = s.now ∧ t.free = s.free ∧ t.rst = s.rst ∧ t.straps = s.straps ∧ t.pending = s.pending) ∧
    (t.pwr = s.pwr ∧ t.nvm = s.nvm ∧ t.flt = s.flt ∧ t.recr = s.recr) ∧
    (t.prf = s.prf ∧ t.plt = s.plt ∧ t.adm = s.adm ∧ t.eng = s.eng ∧ t.spn = s.spn) ∧
    (t.isl = s.isl ∧ t.fe = s.fe ∧ t.sw = s.sw ∧ t.mns = s.mns ∧ t.stb = s.stb) ∧
    (t.fan = s.fan ∧ t.mot = s.mot ∧ t.gat = s.gat ∧ t.htd = s.htd) ∧
    (t.cal = s.cal ∧ t.can = s.can ∧ t.syn = s.syn ∧ t.svc = s.svc)

abbrev Only.startEngSw (t s : State) : Prop :=
    (t.now = s.now ∧ t.free = s.free ∧ t.rst = s.rst ∧ t.straps = s.straps ∧ t.pending = s.pending) ∧
    (t.pwr = s.pwr ∧ t.nvm = s.nvm ∧ t.flt = s.flt ∧ t.recr = s.recr) ∧
    (t.prf = s.prf ∧ t.plt = s.plt ∧ t.adm = s.adm ∧ t.spn = s.spn) ∧
    (t.isl = s.isl ∧ t.fe = s.fe ∧ t.mns = s.mns ∧ t.stb = s.stb) ∧
    (t.fan = s.fan ∧ t.mot = s.mot ∧ t.gat = s.gat ∧ t.htd = s.htd) ∧
    (t.cal = s.cal ∧ t.can = s.can ∧ t.syn = s.syn ∧ t.svc = s.svc)

abbrev Only.recrStartEngSw (t s : State) : Prop :=
    (t.now = s.now ∧ t.free = s.free ∧ t.rst = s.rst ∧ t.straps = s.straps ∧ t.pending = s.pending) ∧
    (t.pwr = s.pwr ∧ t.nvm = s.nvm ∧ t.flt = s.flt) ∧
    (t.prf = s.prf ∧ t.plt = s.plt ∧ t.adm = s.adm ∧ t.spn = s.spn) ∧
    (t.isl = s.isl ∧ t.fe = s.fe ∧ t.mns = s.mns ∧ t.stb = s.stb) ∧
    (t.fan = s.fan ∧ t.mot = s.mot ∧ t.gat = s.gat ∧ t.htd = s.htd) ∧
    (t.cal = s.cal ∧ t.can = s.can ∧ t.syn = s.syn ∧ t.svc = s.svc)

abbrev Only.settleFreeRstStrapsPwrNvmPrfPltAdmMnsCalCanSynSvc (t s : State) : Prop :=
    (t.now = s.now ∧ t.pending = s.pending)

abbrev Only.fltRecrSw (t s : State) : Prop :=
    (t.now = s.now ∧ t.free = s.free ∧ t.rst = s.rst ∧ t.straps = s.straps ∧ t.pending = s.pending) ∧
    (t.pwr = s.pwr ∧ t.nvm = s.nvm ∧ t.start = s.start) ∧
    (t.prf = s.prf ∧ t.plt = s.plt ∧ t.adm = s.adm ∧ t.eng = s.eng ∧ t.spn = s.spn) ∧
    (t.isl = s.isl ∧ t.fe = s.fe ∧ t.mns = s.mns ∧ t.stb = s.stb) ∧
    (t.fan = s.fan ∧ t.mot = s.mot ∧ t.gat = s.gat ∧ t.htd = s.htd) ∧
    (t.cal = s.cal ∧ t.can = s.can ∧ t.syn = s.syn ∧ t.svc = s.svc)

abbrev Only.fltRecrStartEngSw (t s : State) : Prop :=
    (t.now = s.now ∧ t.free = s.free ∧ t.rst = s.rst ∧ t.straps = s.straps ∧ t.pending = s.pending) ∧
    (t.pwr = s.pwr ∧ t.nvm = s.nvm) ∧
    (t.prf = s.prf ∧ t.plt = s.plt ∧ t.adm = s.adm ∧ t.spn = s.spn) ∧
    (t.isl = s.isl ∧ t.fe = s.fe ∧ t.mns = s.mns ∧ t.stb = s.stb) ∧
    (t.fan = s.fan ∧ t.mot = s.mot ∧ t.gat = s.gat ∧ t.htd = s.htd) ∧
    (t.cal = s.cal ∧ t.can = s.can ∧ t.syn = s.syn ∧ t.svc = s.svc)

abbrev Only.spnIsl (t s : State) : Prop :=
    (t.now = s.now ∧ t.free = s.free ∧ t.rst = s.rst ∧ t.straps = s.straps ∧ t.pending = s.pending) ∧
    (t.pwr = s.pwr ∧ t.nvm = s.nvm ∧ t.flt = s.flt ∧ t.recr = s.recr ∧ t.start = s.start) ∧
    (t.prf = s.prf ∧ t.plt = s.plt ∧ t.adm = s.adm ∧ t.eng = s.eng) ∧
    (t.fe = s.fe ∧ t.sw = s.sw ∧ t.mns = s.mns ∧ t.stb = s.stb) ∧
    (t.fan = s.fan ∧ t.mot = s.mot ∧ t.gat = s.gat ∧ t.htd = s.htd) ∧
    (t.cal = s.cal ∧ t.can = s.can ∧ t.syn = s.syn ∧ t.svc = s.svc)

abbrev Only.raise (t s : State) : Prop :=
    (t.now = s.now ∧ t.free = s.free ∧ t.rst = s.rst ∧ t.straps = s.straps ∧ t.pending = s.pending) ∧
    (t.pwr = s.pwr ∧ t.nvm = s.nvm) ∧
    (t.prf = s.prf ∧ t.plt = s.plt ∧ t.adm = s.adm) ∧
    (t.fe = s.fe ∧ t.mns = s.mns ∧ t.stb = s.stb) ∧
    (t.fan = s.fan ∧ t.mot = s.mot ∧ t.gat = s.gat ∧ t.htd = s.htd) ∧
    (t.cal = s.cal ∧ t.can = s.can ∧ t.syn = s.syn ∧ t.svc = s.svc)

abbrev Only.flt (t s : State) : Prop :=
    (t.now = s.now ∧ t.free = s.free ∧ t.rst = s.rst ∧ t.straps = s.straps ∧ t.pending = s.pending) ∧
    (t.pwr = s.pwr ∧ t.nvm = s.nvm ∧ t.recr = s.recr ∧ t.start = s.start) ∧
    (t.prf = s.prf ∧ t.plt = s.plt ∧ t.adm = s.adm ∧ t.eng = s.eng ∧ t.spn = s.spn) ∧
    (t.isl = s.isl ∧ t.fe = s.fe ∧ t.sw = s.sw ∧ t.mns = s.mns ∧ t.stb = s.stb) ∧
    (t.fan = s.fan ∧ t.mot = s.mot ∧ t.gat = s.gat ∧ t.htd = s.htd) ∧
    (t.cal = s.cal ∧ t.can = s.can ∧ t.syn = s.syn ∧ t.svc = s.svc)

abbrev Only.fltRecr (t s : State) : Prop :=
    (t.now = s.now ∧ t.free = s.free ∧ t.rst = s.rst ∧ t.straps = s.straps ∧ t.pending = s.pending) ∧
    (t.pwr = s.pwr ∧ t.nvm = s.nvm ∧ t.start = s.start) ∧
    (t.prf = s.prf ∧ t.plt = s.plt ∧ t.adm = s.adm ∧ t.eng = s.eng ∧ t.spn = s.spn) ∧
    (t.isl = s.isl ∧ t.fe = s.fe ∧ t.sw = s.sw ∧ t.mns = s.mns ∧ t.stb = s.stb) ∧
    (t.fan = s.fan ∧ t.mot = s.mot ∧ t.gat = s.gat ∧ t.htd = s.htd) ∧
    (t.cal = s.cal ∧ t.can = s.can ∧ t.syn = s.syn ∧ t.svc = s.svc)

abbrev Only.fan (t s : State) : Prop :=
    (t.now = s.now ∧ t.free = s.free ∧ t.rst = s.rst ∧ t.straps = s.straps ∧ t.pending = s.pending) ∧
    (t.pwr = s.pwr ∧ t.nvm = s.nvm ∧ t.flt = s.flt ∧ t.recr = s.recr ∧ t.start = s.start) ∧
    (t.prf = s.prf ∧ t.plt = s.plt ∧ t.adm = s.adm ∧ t.eng = s.eng ∧ t.spn = s.spn) ∧
    (t.isl = s.isl ∧ t.fe = s.fe ∧ t.sw = s.sw ∧ t.mns = s.mns ∧ t.stb = s.stb) ∧
    (t.mot = s.mot ∧ t.gat = s.gat ∧ t.htd = s.htd) ∧
    (t.cal = s.cal ∧ t.can = s.can ∧ t.syn = s.syn ∧ t.svc = s.svc)

abbrev Only.mot (t s : State) : Prop :=
    (t.now = s.now ∧ t.free = s.free ∧ t.rst = s.rst ∧ t.straps = s.straps ∧ t.pending = s.pending) ∧
    (t.pwr = s.pwr ∧ t.nvm = s.nvm ∧ t.flt = s.flt ∧ t.recr = s.recr ∧ t.start = s.start) ∧
    (t.prf = s.prf ∧ t.plt = s.plt ∧ t.adm = s.adm ∧ t.eng = s.eng ∧ t.spn = s.spn) ∧
    (t.isl = s.isl ∧ t.fe = s.fe ∧ t.sw = s.sw ∧ t.mns = s.mns ∧ t.stb = s.stb) ∧
    (t.fan = s.fan ∧ t.gat = s.gat ∧ t.htd = s.htd) ∧
    (t.cal = s.cal ∧ t.can = s.can ∧ t.syn = s.syn ∧ t.svc = s.svc)

abbrev Only.gat (t s : State) : Prop :=
    (t.now = s.now ∧ t.free = s.free ∧ t.rst = s.rst ∧ t.straps = s.straps ∧ t.pending = s.pending) ∧
    (t.pwr = s.pwr ∧ t.nvm = s.nvm ∧ t.flt = s.flt ∧ t.recr = s.recr ∧ t.start = s.start) ∧
    (t.prf = s.prf ∧ t.plt = s.plt ∧ t.adm = s.adm ∧ t.eng = s.eng ∧ t.spn = s.spn) ∧
    (t.isl = s.isl ∧ t.fe = s.fe ∧ t.sw = s.sw ∧ t.mns = s.mns ∧ t.stb = s.stb) ∧
    (t.fan = s.fan ∧ t.mot = s.mot ∧ t.htd = s.htd) ∧
    (t.cal = s.cal ∧ t.can = s.can ∧ t.syn = s.syn ∧ t.svc = s.svc)

abbrev Only.htd (t s : State) : Prop :=
    (t.now = s.now ∧ t.free = s.free ∧ t.rst = s.rst ∧ t.straps = s.straps ∧ t.pending = s.pending) ∧
    (t.pwr = s.pwr ∧ t.nvm = s.nvm ∧ t.flt = s.flt ∧ t.recr = s.recr ∧ t.start = s.start) ∧
    (t.prf = s.prf ∧ t.plt = s.plt ∧ t.adm = s.adm ∧ t.eng = s.eng ∧ t.spn = s.spn) ∧
    (t.isl = s.isl ∧ t.fe = s.fe ∧ t.sw = s.sw ∧ t.mns = s.mns ∧ t.stb = s.stb) ∧
    (t.fan = s.fan ∧ t.mot = s.mot ∧ t.gat = s.gat) ∧
    (t.cal = s.cal ∧ t.can = s.can ∧ t.syn = s.syn ∧ t.svc = s.svc)

abbrev Only.stb (t s : State) : Prop :=
    (t.now = s.now ∧ t.free = s.free ∧ t.rst = s.rst ∧ t.straps = s.straps ∧ t.pending = s.pending) ∧
    (t.pwr = s.pwr ∧ t.nvm = s.nvm ∧ t.flt = s.flt ∧ t.recr = s.recr ∧ t.start = s.start) ∧
    (t.prf = s.prf ∧ t.plt = s.plt ∧ t.adm = s.adm ∧ t.eng = s.eng ∧ t.spn = s.spn) ∧
    (t.isl = s.isl ∧ t.fe = s.fe ∧ t.sw = s.sw ∧ t.mns = s.mns) ∧
    (t.fan = s.fan ∧ t.mot = s.mot ∧ t.gat = s.gat ∧ t.htd = s.htd) ∧
    (t.cal = s.cal ∧ t.can = s.can ∧ t.syn = s.syn ∧ t.svc = s.svc)

abbrev Only.fltRecrMot (t s : State) : Prop :=
    (t.now = s.now ∧ t.free = s.free ∧ t.rst = s.rst ∧ t.straps = s.straps ∧ t.pending = s.pending) ∧
    (t.pwr = s.pwr ∧ t.nvm = s.nvm ∧ t.start = s.start) ∧
    (t.prf = s.prf ∧ t.plt = s.plt ∧ t.adm = s.adm ∧ t.eng = s.eng ∧ t.spn = s.spn) ∧
    (t.isl = s.isl ∧ t.fe = s.fe ∧ t.sw = s.sw ∧ t.mns = s.mns ∧ t.stb = s.stb) ∧
    (t.fan = s.fan ∧ t.gat = s.gat ∧ t.htd = s.htd) ∧
    (t.cal = s.cal ∧ t.can = s.can ∧ t.syn = s.syn ∧ t.svc = s.svc)

abbrev Only.fltRecrStbMot (t s : State) : Prop :=
    (t.now = s.now ∧ t.free = s.free ∧ t.rst = s.rst ∧ t.straps = s.straps ∧ t.pending = s.pending) ∧
    (t.pwr = s.pwr ∧ t.nvm = s.nvm ∧ t.start = s.start) ∧
    (t.prf = s.prf ∧ t.plt = s.plt ∧ t.adm = s.adm ∧ t.eng = s.eng ∧ t.spn = s.spn) ∧
    (t.isl = s.isl ∧ t.fe = s.fe ∧ t.sw = s.sw ∧ t.mns = s.mns) ∧
    (t.fan = s.fan ∧ t.gat = s.gat ∧ t.htd = s.htd) ∧
    (t.cal = s.cal ∧ t.can = s.can ∧ t.syn = s.syn ∧ t.svc = s.svc)

abbrev Only.fltRecrStb (t s : State) : Prop :=
    (t.now = s.now ∧ t.free = s.free ∧ t.rst = s.rst ∧ t.straps = s.straps ∧ t.pending = s.pending) ∧
    (t.pwr = s.pwr ∧ t.nvm = s.nvm ∧ t.start = s.start) ∧
    (t.prf = s.prf ∧ t.plt = s.plt ∧ t.adm = s.adm ∧ t.eng = s.eng ∧ t.spn = s.spn) ∧
    (t.isl = s.isl ∧ t.fe = s.fe ∧ t.sw = s.sw ∧ t.mns = s.mns) ∧
    (t.fan = s.fan ∧ t.mot = s.mot ∧ t.gat = s.gat ∧ t.htd = s.htd) ∧
    (t.cal = s.cal ∧ t.can = s.can ∧ t.syn = s.syn ∧ t.svc = s.svc)

abbrev Only.recrStartEngSwMot (t s : State) : Prop :=
    (t.now = s.now ∧ t.free = s.free ∧ t.rst = s.rst ∧ t.straps = s.straps ∧ t.pending = s.pending) ∧
    (t.pwr = s.pwr ∧ t.nvm = s.nvm ∧ t.flt = s.flt) ∧
    (t.prf = s.prf ∧ t.plt = s.plt ∧ t.adm = s.adm ∧ t.spn = s.spn) ∧
    (t.isl = s.isl ∧ t.fe = s.fe ∧ t.mns = s.mns ∧ t.stb = s.stb) ∧
    (t.fan = s.fan ∧ t.gat = s.gat ∧ t.htd = s.htd) ∧
    (t.cal = s.cal ∧ t.can = s.can ∧ t.syn = s.syn ∧ t.svc = s.svc)

abbrev Only.fe (t s : State) : Prop :=
    (t.now = s.now ∧ t.free = s.free ∧ t.rst = s.rst ∧ t.straps = s.straps ∧ t.pending = s.pending) ∧
    (t.pwr = s.pwr ∧ t.nvm = s.nvm ∧ t.flt = s.flt ∧ t.recr = s.recr ∧ t.start = s.start) ∧
    (t.prf = s.prf ∧ t.plt = s.plt ∧ t.adm = s.adm ∧ t.eng = s.eng ∧ t.spn = s.spn) ∧
    (t.isl = s.isl ∧ t.sw = s.sw ∧ t.mns = s.mns ∧ t.stb = s.stb) ∧
    (t.fan = s.fan ∧ t.mot = s.mot ∧ t.gat = s.gat ∧ t.htd = s.htd) ∧
    (t.cal = s.cal ∧ t.can = s.can ∧ t.syn = s.syn ∧ t.svc = s.svc)

abbrev Only.engFe (t s : State) : Prop :=
    (t.now = s.now ∧ t.free = s.free ∧ t.rst = s.rst ∧ t.straps = s.straps ∧ t.pending = s.pending) ∧
    (t.pwr = s.pwr ∧ t.nvm = s.nvm ∧ t.flt = s.flt ∧ t.recr = s.recr ∧ t.start = s.start) ∧
    (t.prf = s.prf ∧ t.plt = s.plt ∧ t.adm = s.adm ∧ t.spn = s.spn) ∧
    (t.isl = s.isl ∧ t.sw = s.sw ∧ t.mns = s.mns ∧ t.stb = s.stb) ∧
    (t.fan = s.fan ∧ t.mot = s.mot ∧ t.gat = s.gat ∧ t.htd = s.htd) ∧
    (t.cal = s.cal ∧ t.can = s.can ∧ t.syn = s.syn ∧ t.svc = s.svc)

abbrev Only.sw (t s : State) : Prop :=
    (t.now = s.now ∧ t.free = s.free ∧ t.rst = s.rst ∧ t.straps = s.straps ∧ t.pending = s.pending) ∧
    (t.pwr = s.pwr ∧ t.nvm = s.nvm ∧ t.flt = s.flt ∧ t.recr = s.recr ∧ t.start = s.start) ∧
    (t.prf = s.prf ∧ t.plt = s.plt ∧ t.adm = s.adm ∧ t.eng = s.eng ∧ t.spn = s.spn) ∧
    (t.isl = s.isl ∧ t.fe = s.fe ∧ t.mns = s.mns ∧ t.stb = s.stb) ∧
    (t.fan = s.fan ∧ t.mot = s.mot ∧ t.gat = s.gat ∧ t.htd = s.htd) ∧
    (t.cal = s.cal ∧ t.can = s.can ∧ t.syn = s.syn ∧ t.svc = s.svc)

abbrev Only.raiseHtd (t s : State) : Prop :=
    (t.now = s.now ∧ t.free = s.free ∧ t.rst = s.rst ∧ t.straps = s.straps ∧ t.pending = s.pending) ∧
    (t.pwr = s.pwr ∧ t.nvm = s.nvm) ∧
    (t.prf = s.prf ∧ t.plt = s.plt ∧ t.adm = s.adm) ∧
    (t.fe = s.fe ∧ t.mns = s.mns ∧ t.stb = s.stb) ∧
    (t.fan = s.fan ∧ t.mot = s.mot ∧ t.gat = s.gat) ∧
    (t.cal = s.cal ∧ t.can = s.can ∧ t.syn = s.syn ∧ t.svc = s.svc)

abbrev Only.raiseStbMot (t s : State) : Prop :=
    (t.now = s.now ∧ t.free = s.free ∧ t.rst = s.rst ∧ t.straps = s.straps ∧ t.pending = s.pending) ∧
    (t.pwr = s.pwr ∧ t.nvm = s.nvm) ∧
    (t.prf = s.prf ∧ t.plt = s.plt ∧ t.adm = s.adm) ∧
    (t.fe = s.fe ∧ t.mns = s.mns) ∧
    (t.fan = s.fan ∧ t.gat = s.gat ∧ t.htd = s.htd) ∧
    (t.cal = s.cal ∧ t.can = s.can ∧ t.syn = s.syn ∧ t.svc = s.svc)

abbrev Only.raiseMot (t s : State) : Prop :=
    (t.now = s.now ∧ t.free = s.free ∧ t.rst = s.rst ∧ t.straps = s.straps ∧ t.pending = s.pending) ∧
    (t.pwr = s.pwr ∧ t.nvm = s.nvm) ∧
    (t.prf = s.prf ∧ t.plt = s.plt ∧ t.adm = s.adm) ∧
    (t.fe = s.fe ∧ t.mns = s.mns ∧ t.stb = s.stb) ∧
    (t.fan = s.fan ∧ t.gat = s.gat ∧ t.htd = s.htd) ∧
    (t.cal = s.cal ∧ t.can = s.can ∧ t.syn = s.syn ∧ t.svc = s.svc)

abbrev Only.fltRecrGat (t s : State) : Prop :=
    (t.now = s.now ∧ t.free = s.free ∧ t.rst = s.rst ∧ t.straps = s.straps ∧ t.pending = s.pending) ∧
    (t.pwr = s.pwr ∧ t.nvm = s.nvm ∧ t.start = s.start) ∧
    (t.prf = s.prf ∧ t.plt = s.plt ∧ t.adm = s.adm ∧ t.eng = s.eng ∧ t.spn = s.spn) ∧
    (t.isl = s.isl ∧ t.fe = s.fe ∧ t.sw = s.sw ∧ t.mns = s.mns ∧ t.stb = s.stb) ∧
    (t.fan = s.fan ∧ t.mot = s.mot ∧ t.htd = s.htd) ∧
    (t.cal = s.cal ∧ t.can = s.can ∧ t.syn = s.syn ∧ t.svc = s.svc)

abbrev Only.fanHtd (t s : State) : Prop :=
    (t.now = s.now ∧ t.free = s.free ∧ t.rst = s.rst ∧ t.straps = s.straps ∧ t.pending = s.pending) ∧
    (t.pwr = s.pwr ∧ t.nvm = s.nvm ∧ t.flt = s.flt ∧ t.recr = s.recr ∧ t.start = s.start) ∧
    (t.prf = s.prf ∧ t.plt = s.plt ∧ t.adm = s.adm ∧ t.eng = s.eng ∧ t.spn = s.spn) ∧
    (t.isl = s.isl ∧ t.fe = s.fe ∧ t.sw = s.sw ∧ t.mns = s.mns ∧ t.stb = s.stb) ∧
    (t.mot = s.mot ∧ t.gat = s.gat) ∧
    (t.cal = s.cal ∧ t.can = s.can ∧ t.syn = s.syn ∧ t.svc = s.svc)

abbrev Only.settle (t s : State) : Prop :=
    (t.now = s.now ∧ t.free = s.free ∧ t.rst = s.rst ∧ t.straps = s.straps ∧ t.pending = s.pending) ∧
    (t.pwr = s.pwr ∧ t.nvm = s.nvm) ∧
    (t.prf = s.prf ∧ t.plt = s.plt ∧ t.adm = s.adm) ∧
    (t.mns = s.mns) ∧
    (t.cal = s.cal ∧ t.can = s.can ∧ t.syn = s.syn ∧ t.svc = s.svc)

abbrev Only.pwr (t s : State) : Prop :=
    (t.now = s.now ∧ t.free = s.free ∧ t.rst = s.rst ∧ t.straps = s.straps ∧ t.pending = s.pending) ∧
    (t.nvm = s.nvm ∧ t.flt = s.flt ∧ t.recr = s.recr ∧ t.start = s.start) ∧
    (t.prf = s.prf ∧ t.plt = s.plt ∧ t.adm = s.adm ∧ t.eng = s.eng ∧ t.spn = s.spn) ∧
    (t.isl = s.isl ∧ t.fe = s.fe ∧ t.sw = s.sw ∧ t.mns = s.mns ∧ t.stb = s.stb) ∧
    (t.fan = s.fan ∧ t.mot = s.mot ∧ t.gat = s.gat ∧ t.htd = s.htd) ∧
    (t.cal = s.cal ∧ t.can = s.can ∧ t.syn = s.syn ∧ t.svc = s.svc)

abbrev Only.pwrRecr (t s : State) : Prop :=
    (t.now = s.now ∧ t.free = s.free ∧ t.rst = s.rst ∧ t.straps = s.straps ∧ t.pending = s.pending) ∧
    (t.nvm = s.nvm ∧ t.flt = s.flt ∧ t.start = s.start) ∧
    (t.prf = s.prf ∧ t.plt = s.plt ∧ t.adm = s.adm ∧ t.eng = s.eng ∧ t.spn = s.spn) ∧
    (t.isl = s.isl ∧ t.fe = s.fe ∧ t.sw = s.sw ∧ t.mns = s.mns ∧ t.stb = s.stb) ∧
    (t.fan = s.fan ∧ t.mot = s.mot ∧ t.gat = s.gat ∧ t.htd = s.htd) ∧
    (t.cal = s.cal ∧ t.can = s.can ∧ t.syn = s.syn ∧ t.svc = s.svc)

abbrev Only.spn (t s : State) : Prop :=
    (t.now = s.now ∧ t.free = s.free ∧ t.rst = s.rst ∧ t.straps = s.straps ∧ t.pending = s.pending) ∧
    (t.pwr = s.pwr ∧ t.nvm = s.nvm ∧ t.flt = s.flt ∧ t.recr = s.recr ∧ t.start = s.start) ∧
    (t.prf = s.prf ∧ t.plt = s.plt ∧ t.adm = s.adm ∧ t.eng = s.eng) ∧
    (t.isl = s.isl ∧ t.fe = s.fe ∧ t.sw = s.sw ∧ t.mns = s.mns ∧ t.stb = s.stb) ∧
    (t.fan = s.fan ∧ t.mot = s.mot ∧ t.gat = s.gat ∧ t.htd = s.htd) ∧
    (t.cal = s.cal ∧ t.can = s.can ∧ t.syn = s.syn ∧ t.svc = s.svc)

abbrev Only.prf (t s : State) : Prop :=
    (t.now = s.now ∧ t.free = s.free ∧ t.rst = s.rst ∧ t.straps = s.straps ∧ t.pending = s.pending) ∧
    (t.pwr = s.pwr ∧ t.nvm = s.nvm ∧ t.flt = s.flt ∧ t.recr = s.recr ∧ t.start = s.start) ∧
    (t.plt = s.plt ∧ t.adm = s.adm ∧ t.eng = s.eng ∧ t.spn = s.spn) ∧
    (t.isl = s.isl ∧ t.fe = s.fe ∧ t.sw = s.sw ∧ t.mns = s.mns ∧ t.stb = s.stb) ∧
    (t.fan = s.fan ∧ t.mot = s.mot ∧ t.gat = s.gat ∧ t.htd = s.htd) ∧
    (t.cal = s.cal ∧ t.can = s.can ∧ t.syn = s.syn ∧ t.svc = s.svc)

abbrev Only.pwrNvmRecr (t s : State) : Prop :=
    (t.now = s.now ∧ t.free = s.free ∧ t.rst = s.rst ∧ t.straps = s.straps ∧ t.pending = s.pending) ∧
    (t.flt = s.flt ∧ t.start = s.start) ∧
    (t.prf = s.prf ∧ t.plt = s.plt ∧ t.adm = s.adm ∧ t.eng = s.eng ∧ t.spn = s.spn) ∧
    (t.isl = s.isl ∧ t.fe = s.fe ∧ t.sw = s.sw ∧ t.mns = s.mns ∧ t.stb = s.stb) ∧
    (t.fan = s.fan ∧ t.mot = s.mot ∧ t.gat = s.gat ∧ t.htd = s.htd) ∧
    (t.cal = s.cal ∧ t.can = s.can ∧ t.syn = s.syn ∧ t.svc = s.svc)

abbrev Only.pwrNvmRecrPrf (t s : State) : Prop :=
    (t.now = s.now ∧ t.free = s.free ∧ t.rst = s.rst ∧ t.straps = s.straps ∧ t.pending = s.pending) ∧
    (t.flt = s.flt ∧ t.start = s.start) ∧
    (t.plt = s.plt ∧ t.adm = s.adm ∧ t.eng = s.eng ∧ t.spn = s.spn) ∧
    (t.isl = s.isl ∧ t.fe = s.fe ∧ t.sw = s.sw ∧ t.mns = s.mns ∧ t.stb = s.stb) ∧
    (t.fan = s.fan ∧ t.mot = s.mot ∧ t.gat = s.gat ∧ t.htd = s.htd) ∧
    (t.cal = s.cal ∧ t.can = s.can ∧ t.syn = s.syn ∧ t.svc = s.svc)

abbrev Only.pwrNvmRecrPrfSpn (t s : State) : Prop :=
    (t.now = s.now ∧ t.free = s.free ∧ t.rst = s.rst ∧ t.straps = s.straps ∧ t.pending = s.pending) ∧
    (t.flt = s.flt ∧ t.start = s.start) ∧
    (t.plt = s.plt ∧ t.adm = s.adm ∧ t.eng = s.eng) ∧
    (t.isl = s.isl ∧ t.fe = s.fe ∧ t.sw = s.sw ∧ t.mns = s.mns ∧ t.stb = s.stb) ∧
    (t.fan = s.fan ∧ t.mot = s.mot ∧ t.gat = s.gat ∧ t.htd = s.htd) ∧
    (t.cal = s.cal ∧ t.can = s.can ∧ t.syn = s.syn ∧ t.svc = s.svc)

abbrev Only.nvm (t s : State) : Prop :=
    (t.now = s.now ∧ t.free = s.free ∧ t.rst = s.rst ∧ t.straps = s.straps ∧ t.pending = s.pending) ∧
    (t.pwr = s.pwr ∧ t.flt = s.flt ∧ t.recr = s.recr ∧ t.start = s.start) ∧
    (t.prf = s.prf ∧ t.plt = s.plt ∧ t.adm = s.adm ∧ t.eng = s.eng ∧ t.spn = s.spn) ∧
    (t.isl = s.isl ∧ t.fe = s.fe ∧ t.sw = s.sw ∧ t.mns = s.mns ∧ t.stb = s.stb) ∧
    (t.fan = s.fan ∧ t.mot = s.mot ∧ t.gat = s.gat ∧ t.htd = s.htd) ∧
    (t.cal = s.cal ∧ t.can = s.can ∧ t.syn = s.syn ∧ t.svc = s.svc)

abbrev Only.raiseNvm (t s : State) : Prop :=
    (t.now = s.now ∧ t.free = s.free ∧ t.rst = s.rst ∧ t.straps = s.straps ∧ t.pending = s.pending) ∧
    (t.pwr = s.pwr) ∧
    (t.prf = s.prf ∧ t.plt = s.plt ∧ t.adm = s.adm) ∧
    (t.fe = s.fe ∧ t.mns = s.mns ∧ t.stb = s.stb) ∧
    (t.fan = s.fan ∧ t.mot = s.mot ∧ t.gat = s.gat ∧ t.htd = s.htd) ∧
    (t.cal = s.cal ∧ t.can = s.can ∧ t.syn = s.syn ∧ t.svc = s.svc)

abbrev Only.isl (t s : State) : Prop :=
    (t.now = s.now ∧ t.free = s.free ∧ t.rst = s.rst ∧ t.straps = s.straps ∧ t.pending = s.pending) ∧
    (t.pwr = s.pwr ∧ t.nvm = s.nvm ∧ t.flt = s.flt ∧ t.recr = s.recr ∧ t.start = s.start) ∧
    (t.prf = s.prf ∧ t.plt = s.plt ∧ t.adm = s.adm ∧ t.eng = s.eng ∧ t.spn = s.spn) ∧
    (t.fe = s.fe ∧ t.sw = s.sw ∧ t.mns = s.mns ∧ t.stb = s.stb) ∧
    (t.fan = s.fan ∧ t.mot = s.mot ∧ t.gat = s.gat ∧ t.htd = s.htd) ∧
    (t.cal = s.cal ∧ t.can = s.can ∧ t.syn = s.syn ∧ t.svc = s.svc)

abbrev Only.raisePwrNvmPrf (t s : State) : Prop :=
    (t.now = s.now ∧ t.free = s.free ∧ t.rst = s.rst ∧ t.straps = s.straps ∧ t.pending = s.pending) ∧
    (t.plt = s.plt ∧ t.adm = s.adm) ∧
    (t.fe = s.fe ∧ t.mns = s.mns ∧ t.stb = s.stb) ∧
    (t.fan = s.fan ∧ t.mot = s.mot ∧ t.gat = s.gat ∧ t.htd = s.htd) ∧
    (t.cal = s.cal ∧ t.can = s.can ∧ t.syn = s.syn ∧ t.svc = s.svc)

abbrev Only.adm (t s : State) : Prop :=
    (t.now = s.now ∧ t.free = s.free ∧ t.rst = s.rst ∧ t.straps = s.straps ∧ t.pending = s.pending) ∧
    (t.pwr = s.pwr ∧ t.nvm = s.nvm ∧ t.flt = s.flt ∧ t.recr = s.recr ∧ t.start = s.start) ∧
    (t.prf = s.prf ∧ t.plt = s.plt ∧ t.eng = s.eng ∧ t.spn = s.spn) ∧
    (t.isl = s.isl ∧ t.fe = s.fe ∧ t.sw = s.sw ∧ t.mns = s.mns ∧ t.stb = s.stb) ∧
    (t.fan = s.fan ∧ t.mot = s.mot ∧ t.gat = s.gat ∧ t.htd = s.htd) ∧
    (t.cal = s.cal ∧ t.can = s.can ∧ t.syn = s.syn ∧ t.svc = s.svc)

abbrev Only.freeRecrEngSwFan (t s : State) : Prop :=
    (t.now = s.now ∧ t.rst = s.rst ∧ t.straps = s.straps ∧ t.pending = s.pending) ∧
    (t.pwr = s.pwr ∧ t.nvm = s.nvm ∧ t.flt = s.flt ∧ t.start = s.start) ∧
    (t.prf = s.prf ∧ t.plt = s.plt ∧ t.adm = s.adm ∧ t.spn = s.spn) ∧
    (t.isl = s.isl ∧ t.fe = s.fe ∧ t.mns = s.mns ∧ t.stb = s.stb) ∧
    (t.mot = s.mot ∧ t.gat = s.gat ∧ t.htd = s.htd) ∧
    (t.cal = s.cal ∧ t.can = s.can ∧ t.syn = s.syn ∧ t.svc = s.svc)

abbrev Only.recrEngFan (t s : State) : Prop :=
    (t.now = s.now ∧ t.free = s.free ∧ t.rst = s.rst ∧ t.straps = s.straps ∧ t.pending = s.pending) ∧
    (t.pwr = s.pwr ∧ t.nvm = s.nvm ∧ t.flt = s.flt ∧ t.start = s.start) ∧
    (t.prf = s.prf ∧ t.plt = s.plt ∧ t.adm = s.adm ∧ t.spn = s.spn) ∧
    (t.isl = s.isl ∧ t.fe = s.fe ∧ t.sw = s.sw ∧ t.mns = s.mns ∧ t.stb = s.stb) ∧
    (t.mot = s.mot ∧ t.gat = s.gat ∧ t.htd = s.htd) ∧
    (t.cal = s.cal ∧ t.can = s.can ∧ t.syn = s.syn ∧ t.svc = s.svc)

abbrev Only.raiseFan (t s : State) : Prop :=
    (t.now = s.now ∧ t.free = s.free ∧ t.rst = s.rst ∧ t.straps = s.straps ∧ t.pending = s.pending) ∧
    (t.pwr = s.pwr ∧ t.nvm = s.nvm) ∧
    (t.prf = s.prf ∧ t.plt = s.plt ∧ t.adm = s.adm) ∧
    (t.fe = s.fe ∧ t.mns = s.mns ∧ t.stb = s.stb) ∧
    (t.mot = s.mot ∧ t.gat = s.gat ∧ t.htd = s.htd) ∧
    (t.cal = s.cal ∧ t.can = s.can ∧ t.syn = s.syn ∧ t.svc = s.svc)

abbrev Only.fltRecrFan (t s : State) : Prop :=
    (t.now = s.now ∧ t.free = s.free ∧ t.rst = s.rst ∧ t.straps = s.straps ∧ t.pending = s.pending) ∧
    (t.pwr = s.pwr ∧ t.nvm = s.nvm ∧ t.start = s.start) ∧
    (t.prf = s.prf ∧ t.plt = s.plt ∧ t.adm = s.adm ∧ t.eng = s.eng ∧ t.spn = s.spn) ∧
    (t.isl = s.isl ∧ t.fe = s.fe ∧ t.sw = s.sw ∧ t.mns = s.mns ∧ t.stb = s.stb) ∧
    (t.mot = s.mot ∧ t.gat = s.gat ∧ t.htd = s.htd) ∧
    (t.cal = s.cal ∧ t.can = s.can ∧ t.syn = s.syn ∧ t.svc = s.svc)

abbrev Only.cal (t s : State) : Prop :=
    (t.now = s.now ∧ t.free = s.free ∧ t.rst = s.rst ∧ t.straps = s.straps ∧ t.pending = s.pending) ∧
    (t.pwr = s.pwr ∧ t.nvm = s.nvm ∧ t.flt = s.flt ∧ t.recr = s.recr ∧ t.start = s.start) ∧
    (t.prf = s.prf ∧ t.plt = s.plt ∧ t.adm = s.adm ∧ t.eng = s.eng ∧ t.spn = s.spn) ∧
    (t.isl = s.isl ∧ t.fe = s.fe ∧ t.sw = s.sw ∧ t.mns = s.mns ∧ t.stb = s.stb) ∧
    (t.fan = s.fan ∧ t.mot = s.mot ∧ t.gat = s.gat ∧ t.htd = s.htd) ∧
    (t.can = s.can ∧ t.syn = s.syn ∧ t.svc = s.svc)

abbrev Only.fltRecrCal (t s : State) : Prop :=
    (t.now = s.now ∧ t.free = s.free ∧ t.rst = s.rst ∧ t.straps = s.straps ∧ t.pending = s.pending) ∧
    (t.pwr = s.pwr ∧ t.nvm = s.nvm ∧ t.start = s.start) ∧
    (t.prf = s.prf ∧ t.plt = s.plt ∧ t.adm = s.adm ∧ t.eng = s.eng ∧ t.spn = s.spn) ∧
    (t.isl = s.isl ∧ t.fe = s.fe ∧ t.sw = s.sw ∧ t.mns = s.mns ∧ t.stb = s.stb) ∧
    (t.fan = s.fan ∧ t.mot = s.mot ∧ t.gat = s.gat ∧ t.htd = s.htd) ∧
    (t.can = s.can ∧ t.syn = s.syn ∧ t.svc = s.svc)

abbrev Only.raiseCal (t s : State) : Prop :=
    (t.now = s.now ∧ t.free = s.free ∧ t.rst = s.rst ∧ t.straps = s.straps ∧ t.pending = s.pending) ∧
    (t.pwr = s.pwr ∧ t.nvm = s.nvm) ∧
    (t.prf = s.prf ∧ t.plt = s.plt ∧ t.adm = s.adm) ∧
    (t.fe = s.fe ∧ t.mns = s.mns ∧ t.stb = s.stb) ∧
    (t.fan = s.fan ∧ t.mot = s.mot ∧ t.gat = s.gat ∧ t.htd = s.htd) ∧
    (t.can = s.can ∧ t.syn = s.syn ∧ t.svc = s.svc)

abbrev Only.fltRecrHtd (t s : State) : Prop :=
    (t.now = s.now ∧ t.free = s.free ∧ t.rst = s.rst ∧ t.straps = s.straps ∧ t.pending = s.pending) ∧
    (t.pwr = s.pwr ∧ t.nvm = s.nvm ∧ t.start = s.start) ∧
    (t.prf = s.prf ∧ t.plt = s.plt ∧ t.adm = s.adm ∧ t.eng = s.eng ∧ t.spn = s.spn) ∧
    (t.isl = s.isl ∧ t.fe = s.fe ∧ t.sw = s.sw ∧ t.mns = s.mns ∧ t.stb = s.stb) ∧
    (t.fan = s.fan ∧ t.mot = s.mot ∧ t.gat = s.gat) ∧
    (t.cal = s.cal ∧ t.can = s.can ∧ t.syn = s.syn ∧ t.svc = s.svc)

abbrev Only.svc (t s : State) : Prop :=
    (t.now = s.now ∧ t.free = s.free ∧ t.rst = s.rst ∧ t.straps = s.straps ∧ t.pending = s.pending) ∧
    (t.pwr = s.pwr ∧ t.nvm = s.nvm ∧ t.flt = s.flt ∧ t.recr = s.recr ∧ t.start = s.start) ∧
    (t.prf = s.prf ∧ t.plt = s.plt ∧ t.adm = s.adm ∧ t.eng = s.eng ∧ t.spn = s.spn) ∧
    (t.isl = s.isl ∧ t.fe = s.fe ∧ t.sw = s.sw ∧ t.mns = s.mns ∧ t.stb = s.stb) ∧
    (t.fan = s.fan ∧ t.mot = s.mot ∧ t.gat = s.gat ∧ t.htd = s.htd) ∧
    (t.cal = s.cal ∧ t.can = s.can ∧ t.syn = s.syn)

abbrev Only.plt (t s : State) : Prop :=
    (t.now = s.now ∧ t.free = s.free ∧ t.rst = s.rst ∧ t.straps = s.straps ∧ t.pending = s.pending) ∧
    (t.pwr = s.pwr ∧ t.nvm = s.nvm ∧ t.flt = s.flt ∧ t.recr = s.recr ∧ t.start = s.start) ∧
    (t.prf = s.prf ∧ t.adm = s.adm ∧ t.eng = s.eng ∧ t.spn = s.spn) ∧
    (t.isl = s.isl ∧ t.fe = s.fe ∧ t.sw = s.sw ∧ t.mns = s.mns ∧ t.stb = s.stb) ∧
    (t.fan = s.fan ∧ t.mot = s.mot ∧ t.gat = s.gat ∧ t.htd = s.htd) ∧
    (t.cal = s.cal ∧ t.can = s.can ∧ t.syn = s.syn ∧ t.svc = s.svc)

abbrev Only.pltSvc (t s : State) : Prop :=
    (t.now = s.now ∧ t.free = s.free ∧ t.rst = s.rst ∧ t.straps = s.straps ∧ t.pending = s.pending) ∧
    (t.pwr = s.pwr ∧ t.nvm = s.nvm ∧ t.flt = s.flt ∧ t.recr = s.recr ∧ t.start = s.start) ∧
    (t.prf = s.prf ∧ t.adm = s.adm ∧ t.eng = s.eng ∧ t.spn = s.spn) ∧
    (t.isl = s.isl ∧ t.fe = s.fe ∧ t.sw = s.sw ∧ t.mns = s.mns ∧ t.stb = s.stb) ∧
    (t.fan = s.fan ∧ t.mot = s.mot ∧ t.gat = s.gat ∧ t.htd = s.htd) ∧
    (t.cal = s.cal ∧ t.can = s.can ∧ t.syn = s.syn)

abbrev Only.can (t s : State) : Prop :=
    (t.now = s.now ∧ t.free = s.free ∧ t.rst = s.rst ∧ t.straps = s.straps ∧ t.pending = s.pending) ∧
    (t.pwr = s.pwr ∧ t.nvm = s.nvm ∧ t.flt = s.flt ∧ t.recr = s.recr ∧ t.start = s.start) ∧
    (t.prf = s.prf ∧ t.plt = s.plt ∧ t.adm = s.adm ∧ t.eng = s.eng ∧ t.spn = s.spn) ∧
    (t.isl = s.isl ∧ t.fe = s.fe ∧ t.sw = s.sw ∧ t.mns = s.mns ∧ t.stb = s.stb) ∧
    (t.fan = s.fan ∧ t.mot = s.mot ∧ t.gat = s.gat ∧ t.htd = s.htd) ∧
    (t.cal = s.cal ∧ t.syn = s.syn ∧ t.svc = s.svc)

abbrev Only.raiseCanSyn (t s : State) : Prop :=
    (t.now = s.now ∧ t.free = s.free ∧ t.rst = s.rst ∧ t.straps = s.straps ∧ t.pending = s.pending) ∧
    (t.pwr = s.pwr ∧ t.nvm = s.nvm) ∧
    (t.prf = s.prf ∧ t.plt = s.plt ∧ t.adm = s.adm) ∧
    (t.fe = s.fe ∧ t.mns = s.mns ∧ t.stb = s.stb) ∧
    (t.fan = s.fan ∧ t.mot = s.mot ∧ t.gat = s.gat ∧ t.htd = s.htd) ∧
    (t.cal = s.cal ∧ t.svc = s.svc)

abbrev Only.spnCan (t s : State) : Prop :=
    (t.now = s.now ∧ t.free = s.free ∧ t.rst = s.rst ∧ t.straps = s.straps ∧ t.pending = s.pending) ∧
    (t.pwr = s.pwr ∧ t.nvm = s.nvm ∧ t.flt = s.flt ∧ t.recr = s.recr ∧ t.start = s.start) ∧
    (t.prf = s.prf ∧ t.plt = s.plt ∧ t.adm = s.adm ∧ t.eng = s.eng) ∧
    (t.isl = s.isl ∧ t.fe = s.fe ∧ t.sw = s.sw ∧ t.mns = s.mns ∧ t.stb = s.stb) ∧
    (t.fan = s.fan ∧ t.mot = s.mot ∧ t.gat = s.gat ∧ t.htd = s.htd) ∧
    (t.cal = s.cal ∧ t.syn = s.syn ∧ t.svc = s.svc)

abbrev Only.fltSyn (t s : State) : Prop :=
    (t.now = s.now ∧ t.free = s.free ∧ t.rst = s.rst ∧ t.straps = s.straps ∧ t.pending = s.pending) ∧
    (t.pwr = s.pwr ∧ t.nvm = s.nvm ∧ t.recr = s.recr ∧ t.start = s.start) ∧
    (t.prf = s.prf ∧ t.plt = s.plt ∧ t.adm = s.adm ∧ t.eng = s.eng ∧ t.spn = s.spn) ∧
    (t.isl = s.isl ∧ t.fe = s.fe ∧ t.sw = s.sw ∧ t.mns = s.mns ∧ t.stb = s.stb) ∧
    (t.fan = s.fan ∧ t.mot = s.mot ∧ t.gat = s.gat ∧ t.htd = s.htd) ∧
    (t.cal = s.cal ∧ t.can = s.can ∧ t.svc = s.svc)

abbrev Only.syn (t s : State) : Prop :=
    (t.now = s.now ∧ t.free = s.free ∧ t.rst = s.rst ∧ t.straps = s.straps ∧ t.pending = s.pending) ∧
    (t.pwr = s.pwr ∧ t.nvm = s.nvm ∧ t.flt = s.flt ∧ t.recr = s.recr ∧ t.start = s.start) ∧
    (t.prf = s.prf ∧ t.plt = s.plt ∧ t.adm = s.adm ∧ t.eng = s.eng ∧ t.spn = s.spn) ∧
    (t.isl = s.isl ∧ t.fe = s.fe ∧ t.sw = s.sw ∧ t.mns = s.mns ∧ t.stb = s.stb) ∧
    (t.fan = s.fan ∧ t.mot = s.mot ∧ t.gat = s.gat ∧ t.htd = s.htd) ∧
    (t.cal = s.cal ∧ t.can = s.can ∧ t.svc = s.svc)

abbrev Only.canSyn (t s : State) : Prop :=
    (t.now = s.now ∧ t.free = s.free ∧ t.rst = s.rst ∧ t.straps = s.straps ∧ t.pending = s.pending) ∧
    (t.pwr = s.pwr ∧ t.nvm = s.nvm ∧ t.flt = s.flt ∧ t.recr = s.recr ∧ t.start = s.start) ∧
    (t.prf = s.prf ∧ t.plt = s.plt ∧ t.adm = s.adm ∧ t.eng = s.eng ∧ t.spn = s.spn) ∧
    (t.isl = s.isl ∧ t.fe = s.fe ∧ t.sw = s.sw ∧ t.mns = s.mns ∧ t.stb = s.stb) ∧
    (t.fan = s.fan ∧ t.mot = s.mot ∧ t.gat = s.gat ∧ t.htd = s.htd) ∧
    (t.cal = s.cal ∧ t.svc = s.svc)

abbrev Only.nvmSpn (t s : State) : Prop :=
    (t.now = s.now ∧ t.free = s.free ∧ t.rst = s.rst ∧ t.straps = s.straps ∧ t.pending = s.pending) ∧
    (t.pwr = s.pwr ∧ t.flt = s.flt ∧ t.recr = s.recr ∧ t.start = s.start) ∧
    (t.prf = s.prf ∧ t.plt = s.plt ∧ t.adm = s.adm ∧ t.eng = s.eng) ∧
    (t.isl = s.isl ∧ t.fe = s.fe ∧ t.sw = s.sw ∧ t.mns = s.mns ∧ t.stb = s.stb) ∧
    (t.fan = s.fan ∧ t.mot = s.mot ∧ t.gat = s.gat ∧ t.htd = s.htd) ∧
    (t.cal = s.cal ∧ t.can = s.can ∧ t.syn = s.syn ∧ t.svc = s.svc)

abbrev Only.canSvc (t s : State) : Prop :=
    (t.now = s.now ∧ t.free = s.free ∧ t.rst = s.rst ∧ t.straps = s.straps ∧ t.pending = s.pending) ∧
    (t.pwr = s.pwr ∧ t.nvm = s.nvm ∧ t.flt = s.flt ∧ t.recr = s.recr ∧ t.start = s.start) ∧
    (t.prf = s.prf ∧ t.plt = s.plt ∧ t.adm = s.adm ∧ t.eng = s.eng ∧ t.spn = s.spn) ∧
    (t.isl = s.isl ∧ t.fe = s.fe ∧ t.sw = s.sw ∧ t.mns = s.mns ∧ t.stb = s.stb) ∧
    (t.fan = s.fan ∧ t.mot = s.mot ∧ t.gat = s.gat ∧ t.htd = s.htd) ∧
    (t.cal = s.cal ∧ t.syn = s.syn)

abbrev Only.recrCanSvc (t s : State) : Prop :=
    (t.now = s.now ∧ t.free = s.free ∧ t.rst = s.rst ∧ t.straps = s.straps ∧ t.pending = s.pending) ∧
    (t.pwr = s.pwr ∧ t.nvm = s.nvm ∧ t.flt = s.flt ∧ t.start = s.start) ∧
    (t.prf = s.prf ∧ t.plt = s.plt ∧ t.adm = s.adm ∧ t.eng = s.eng ∧ t.spn = s.spn) ∧
    (t.isl = s.isl ∧ t.fe = s.fe ∧ t.sw = s.sw ∧ t.mns = s.mns ∧ t.stb = s.stb) ∧
    (t.fan = s.fan ∧ t.mot = s.mot ∧ t.gat = s.gat ∧ t.htd = s.htd) ∧
    (t.cal = s.cal ∧ t.syn = s.syn)

abbrev Only.pwrNvmRecrPltSpnStbCanSvc (t s : State) : Prop :=
    (t.now = s.now ∧ t.free = s.free ∧ t.rst = s.rst ∧ t.straps = s.straps ∧ t.pending = s.pending) ∧
    (t.flt = s.flt ∧ t.start = s.start) ∧
    (t.prf = s.prf ∧ t.adm = s.adm ∧ t.eng = s.eng) ∧
    (t.isl = s.isl ∧ t.fe = s.fe ∧ t.sw = s.sw ∧ t.mns = s.mns) ∧
    (t.fan = s.fan ∧ t.mot = s.mot ∧ t.gat = s.gat ∧ t.htd = s.htd) ∧
    (t.cal = s.cal ∧ t.syn = s.syn)

abbrev Only.pwrNvmRecrPrfPltSpnStbCanSvc (t s : State) : Prop :=
    (t.now = s.now ∧ t.free = s.free ∧ t.rst = s.rst ∧ t.straps = s.straps ∧ t.pending = s.pending) ∧
    (t.flt = s.flt ∧ t.start = s.start) ∧
    (t.adm = s.adm ∧ t.eng = s.eng) ∧
    (t.isl = s.isl ∧ t.fe = s.fe ∧ t.sw = s.sw ∧ t.mns = s.mns) ∧
    (t.fan = s.fan ∧ t.mot = s.mot ∧ t.gat = s.gat ∧ t.htd = s.htd) ∧
    (t.cal = s.cal ∧ t.syn = s.syn)

abbrev Only.raiseMns (t s : State) : Prop :=
    (t.now = s.now ∧ t.free = s.free ∧ t.rst = s.rst ∧ t.straps = s.straps ∧ t.pending = s.pending) ∧
    (t.pwr = s.pwr ∧ t.nvm = s.nvm) ∧
    (t.prf = s.prf ∧ t.plt = s.plt ∧ t.adm = s.adm) ∧
    (t.fe = s.fe ∧ t.stb = s.stb) ∧
    (t.fan = s.fan ∧ t.mot = s.mot ∧ t.gat = s.gat ∧ t.htd = s.htd) ∧
    (t.cal = s.cal ∧ t.can = s.can ∧ t.syn = s.syn ∧ t.svc = s.svc)

abbrev Only.mns (t s : State) : Prop :=
    (t.now = s.now ∧ t.free = s.free ∧ t.rst = s.rst ∧ t.straps = s.straps ∧ t.pending = s.pending) ∧
    (t.pwr = s.pwr ∧ t.nvm = s.nvm ∧ t.flt = s.flt ∧ t.recr = s.recr ∧ t.start = s.start) ∧
    (t.prf = s.prf ∧ t.plt = s.plt ∧ t.adm = s.adm ∧ t.eng = s.eng ∧ t.spn = s.spn) ∧
    (t.isl = s.isl ∧ t.fe = s.fe ∧ t.sw = s.sw ∧ t.stb = s.stb) ∧
    (t.fan = s.fan ∧ t.mot = s.mot ∧ t.gat = s.gat ∧ t.htd = s.htd) ∧
    (t.cal = s.cal ∧ t.can = s.can ∧ t.syn = s.syn ∧ t.svc = s.svc)

abbrev Only.raiseMnsStb (t s : State) : Prop :=
    (t.now = s.now ∧ t.free = s.free ∧ t.rst = s.rst ∧ t.straps = s.straps ∧ t.pending = s.pending) ∧
    (t.pwr = s.pwr ∧ t.nvm = s.nvm) ∧
    (t.prf = s.prf ∧ t.plt = s.plt ∧ t.adm = s.adm) ∧
    (t.fe = s.fe) ∧
    (t.fan = s.fan ∧ t.mot = s.mot ∧ t.gat = s.gat ∧ t.htd = s.htd) ∧
    (t.cal = s.cal ∧ t.can = s.can ∧ t.syn = s.syn ∧ t.svc = s.svc)

abbrev Only.pwrNvmRecrPrfPltSpnMnsStbCanSvc (t s : State) : Prop :=
    (t.now = s.now ∧ t.free = s.free ∧ t.rst = s.rst ∧ t.straps = s.straps ∧ t.pending = s.pending) ∧
    (t.flt = s.flt ∧ t.start = s.start) ∧
    (t.adm = s.adm ∧ t.eng = s.eng) ∧
    (t.isl = s.isl ∧ t.fe = s.fe ∧ t.sw = s.sw) ∧
    (t.fan = s.fan ∧ t.mot = s.mot ∧ t.gat = s.gat ∧ t.htd = s.htd) ∧
    (t.cal = s.cal ∧ t.syn = s.syn)

abbrev Only.fltRecrStartStbMot (t s : State) : Prop :=
    (t.now = s.now ∧ t.free = s.free ∧ t.rst = s.rst ∧ t.straps = s.straps ∧ t.pending = s.pending) ∧
    (t.pwr = s.pwr ∧ t.nvm = s.nvm) ∧
    (t.prf = s.prf ∧ t.plt = s.plt ∧ t.adm = s.adm ∧ t.eng = s.eng ∧ t.spn = s.spn) ∧
    (t.isl = s.isl ∧ t.fe = s.fe ∧ t.sw = s.sw ∧ t.mns = s.mns) ∧
    (t.fan = s.fan ∧ t.gat = s.gat ∧ t.htd = s.htd) ∧
    (t.cal = s.cal ∧ t.can = s.can ∧ t.syn = s.syn ∧ t.svc = s.svc)

abbrev Only.recrStb (t s : State) : Prop :=
    (t.now = s.now ∧ t.free = s.free ∧ t.rst = s.rst ∧ t.straps = s.straps ∧ t.pending = s.pending) ∧
    (t.pwr = s.pwr ∧ t.nvm = s.nvm ∧ t.flt = s.flt ∧ t.start = s.start) ∧
    (t.prf = s.prf ∧ t.plt = s.plt ∧ t.adm = s.adm ∧ t.eng = s.eng ∧ t.spn = s.spn) ∧
    (t.isl = s.isl ∧ t.fe = s.fe ∧ t.sw = s.sw ∧ t.mns = s.mns) ∧
    (t.fan = s.fan ∧ t.mot = s.mot ∧ t.gat = s.gat ∧ t.htd = s.htd) ∧
    (t.cal = s.cal ∧ t.can = s.can ∧ t.syn = s.syn ∧ t.svc = s.svc)

abbrev Only.fltRecrEngSw (t s : State) : Prop :=
    (t.now = s.now ∧ t.free = s.free ∧ t.rst = s.rst ∧ t.straps = s.straps ∧ t.pending = s.pending) ∧
    (t.pwr = s.pwr ∧ t.nvm = s.nvm ∧ t.start = s.start) ∧
    (t.prf = s.prf ∧ t.plt = s.plt ∧ t.adm = s.adm ∧ t.spn = s.spn) ∧
    (t.isl = s.isl ∧ t.fe = s.fe ∧ t.mns = s.mns ∧ t.stb = s.stb) ∧
    (t.fan = s.fan ∧ t.mot = s.mot ∧ t.gat = s.gat ∧ t.htd = s.htd) ∧
    (t.cal = s.cal ∧ t.can = s.can ∧ t.syn = s.syn ∧ t.svc = s.svc)

abbrev Only.fltRecrFe (t s : State) : Prop :=
    (t.now = s.now ∧ t.free = s.free ∧ t.rst = s.rst ∧ t.straps = s.straps ∧ t.pending = s.pending) ∧
    (t.pwr = s.pwr ∧ t.nvm = s.nvm ∧ t.start = s.start) ∧
    (t.prf = s.prf ∧ t.plt = s.plt ∧ t.adm = s.adm ∧ t.eng = s.eng ∧ t.spn = s.spn) ∧
    (t.isl = s.isl ∧ t.sw = s.sw ∧ t.mns = s.mns ∧ t.stb = s.stb) ∧
    (t.fan = s.fan ∧ t.mot = s.mot ∧ t.gat = s.gat ∧ t.htd = s.htd) ∧
    (t.cal = s.cal ∧ t.can = s.can ∧ t.syn = s.syn ∧ t.svc = s.svc)

abbrev Only.raiseFe (t s : State) : Prop :=
    (t.now = s.now ∧ t.free = s.free ∧ t.rst = s.rst ∧ t.straps = s.straps ∧ t.pending = s.pending) ∧
    (t.pwr = s.pwr ∧ t.nvm = s.nvm) ∧
    (t.prf = s.prf ∧ t.plt = s.plt ∧ t.adm = s.adm) ∧
    (t.mns = s.mns ∧ t.stb = s.stb) ∧
    (t.fan = s.fan ∧ t.mot = s.mot ∧ t.gat = s.gat ∧ t.htd = s.htd) ∧
    (t.cal = s.cal ∧ t.can = s.can ∧ t.syn = s.syn ∧ t.svc = s.svc)

abbrev Only.spnFe (t s : State) : Prop :=
    (t.now = s.now ∧ t.free = s.free ∧ t.rst = s.rst ∧ t.straps = s.straps ∧ t.pending = s.pending) ∧
    (t.pwr = s.pwr ∧ t.nvm = s.nvm ∧ t.flt = s.flt ∧ t.recr = s.recr ∧ t.start = s.start) ∧
    (t.prf = s.prf ∧ t.plt = s.plt ∧ t.adm = s.adm ∧ t.eng = s.eng) ∧
    (t.isl = s.isl ∧ t.sw = s.sw ∧ t.mns = s.mns ∧ t.stb = s.stb) ∧
    (t.fan = s.fan ∧ t.mot = s.mot ∧ t.gat = s.gat ∧ t.htd = s.htd) ∧
    (t.cal = s.cal ∧ t.can = s.can ∧ t.syn = s.syn ∧ t.svc = s.svc)

abbrev Only.raisePwrNvmPrfAdmFe (t s : State) : Prop :=
    (t.now = s.now ∧ t.free = s.free ∧ t.rst = s.rst ∧ t.straps = s.straps ∧ t.pending = s.pending) ∧
    (t.plt = s.plt) ∧
    (t.mns = s.mns ∧ t.stb = s.stb) ∧
    (t.fan = s.fan ∧ t.mot = s.mot ∧ t.gat = s.gat ∧ t.htd = s.htd) ∧
    (t.cal = s.cal ∧ t.can = s.can ∧ t.syn = s.syn ∧ t.svc = s.svc)

abbrev Only.nvmFe (t s : State) : Prop :=
    (t.now = s.now ∧ t.free = s.free ∧ t.rst = s.rst ∧ t.straps = s.straps ∧ t.pending = s.pending) ∧
    (t.pwr = s.pwr ∧ t.flt = s.flt ∧ t.recr = s.recr ∧ t.start = s.start) ∧
    (t.prf = s.prf ∧ t.plt = s.plt ∧ t.adm = s.adm ∧ t.eng = s.eng ∧ t.spn = s.spn) ∧
    (t.isl = s.isl ∧ t.sw = s.sw ∧ t.mns = s.mns ∧ t.stb = s.stb) ∧
    (t.fan = s.fan ∧ t.mot = s.mot ∧ t.gat = s.gat ∧ t.htd = s.htd) ∧
    (t.cal = s.cal ∧ t.can = s.can ∧ t.syn = s.syn ∧ t.svc = s.svc)

abbrev Only.raisePrf (t s : State) : Prop :=
    (t.now = s.now ∧ t.free = s.free ∧ t.rst = s.rst ∧ t.straps = s.straps ∧ t.pending = s.pending) ∧
    (t.pwr = s.pwr ∧ t.nvm = s.nvm) ∧
    (t.plt = s.plt ∧ t.adm = s.adm) ∧
    (t.fe = s.fe ∧ t.mns = s.mns ∧ t.stb = s.stb) ∧
    (t.fan = s.fan ∧ t.mot = s.mot ∧ t.gat = s.gat ∧ t.htd = s.htd) ∧
    (t.cal = s.cal ∧ t.can = s.can ∧ t.syn = s.syn ∧ t.svc = s.svc)

abbrev Only.engStb (t s : State) : Prop :=
    (t.now = s.now ∧ t.free = s.free ∧ t.rst = s.rst ∧ t.straps = s.straps ∧ t.pending = s.pending) ∧
    (t.pwr = s.pwr ∧ t.nvm = s.nvm ∧ t.flt = s.flt ∧ t.recr = s.recr ∧ t.start = s.start) ∧
    (t.prf = s.prf ∧ t.plt = s.plt ∧ t.adm = s.adm ∧ t.spn = s.spn) ∧
    (t.isl = s.isl ∧ t.fe = s.fe ∧ t.sw = s.sw ∧ t.mns = s.mns) ∧
    (t.fan = s.fan ∧ t.mot = s.mot ∧ t.gat = s.gat ∧ t.htd = s.htd) ∧
    (t.cal = s.cal ∧ t.can = s.can ∧ t.syn = s.syn ∧ t.svc = s.svc)

abbrev Only.raiseNvmStbCan (t s : State) : Prop :=
    (t.now = s.now ∧ t.free = s.free ∧ t.rst = s.rst ∧ t.straps = s.straps ∧ t.pending = s.pending) ∧
    (t.pwr = s.pwr) ∧
    (t.prf = s.prf ∧ t.plt = s.plt ∧ t.adm = s.adm) ∧
    (t.fe = s.fe ∧ t.mns = s.mns) ∧
    (t.fan = s.fan ∧ t.mot = s.mot ∧ t.gat = s.gat ∧ t.htd = s.htd) ∧
    (t.cal = s.cal ∧ t.syn = s.syn ∧ t.svc = s.svc)

abbrev Only.raisePwrNvmPrfAdm (t s : State) : Prop :=
    (t.now = s.now ∧ t.free = s.free ∧ t.rst = s.rst ∧ t.straps = s.straps ∧ t.pending = s.pending) ∧
    (t.plt = s.plt) ∧
    (t.fe = s.fe ∧ t.mns = s.mns ∧ t.stb = s.stb) ∧
    (t.fan = s.fan ∧ t.mot = s.mot ∧ t.gat = s.gat ∧ t.htd = s.htd) ∧
    (t.cal = s.cal ∧ t.can = s.can ∧ t.syn = s.syn ∧ t.svc = s.svc)

abbrev Only.pwrNvmRecrPrfSpnFe (t s : State) : Prop :=
    (t.now = s.now ∧ t.free = s.free ∧ t.rst = s.rst ∧ t.straps = s.straps ∧ t.pending = s.pending) ∧
    (t.flt = s.flt ∧ t.start = s.start) ∧
    (t.plt = s.plt ∧ t.adm = s.adm ∧ t.eng = s.eng) ∧
    (t.isl = s.isl ∧ t.sw = s.sw ∧ t.mns = s.mns ∧ t.stb = s.stb) ∧
    (t.fan = s.fan ∧ t.mot = s.mot ∧ t.gat = s.gat ∧ t.htd = s.htd) ∧
    (t.cal = s.cal ∧ t.can = s.can ∧ t.syn = s.syn ∧ t.svc = s.svc)

abbrev Only.recrSvc (t s : State) : Prop :=
    (t.now = s.now ∧ t.free = s.free ∧ t.rst = s.rst ∧ t.straps = s.straps ∧ t.pending = s.pending) ∧
    (t.pwr = s.pwr ∧ t.nvm = s.nvm ∧ t.flt = s.flt ∧ t.start = s.start) ∧
    (t.prf = s.prf ∧ t.plt = s.plt ∧ t.adm = s.adm ∧ t.eng = s.eng ∧ t.spn = s.spn) ∧
    (t.isl = s.isl ∧ t.fe = s.fe ∧ t.sw = s.sw ∧ t.mns = s.mns ∧ t.stb = s.stb) ∧
    (t.fan = s.fan ∧ t.mot = s.mot ∧ t.gat = s.gat ∧ t.htd = s.htd) ∧
    (t.cal = s.cal ∧ t.can = s.can ∧ t.syn = s.syn)

abbrev Only.pwrNvm (t s : State) : Prop :=
    (t.now = s.now ∧ t.free = s.free ∧ t.rst = s.rst ∧ t.straps = s.straps ∧ t.pending = s.pending) ∧
    (t.flt = s.flt ∧ t.recr = s.recr ∧ t.start = s.start) ∧
    (t.prf = s.prf ∧ t.plt = s.plt ∧ t.adm = s.adm ∧ t.eng = s.eng ∧ t.spn = s.spn) ∧
    (t.isl = s.isl ∧ t.fe = s.fe ∧ t.sw = s.sw ∧ t.mns = s.mns ∧ t.stb = s.stb) ∧
    (t.fan = s.fan ∧ t.mot = s.mot ∧ t.gat = s.gat ∧ t.htd = s.htd) ∧
    (t.cal = s.cal ∧ t.can = s.can ∧ t.syn = s.syn ∧ t.svc = s.svc)

abbrev Only.freePwrNvmRecr (t s : State) : Prop :=
    (t.now = s.now ∧ t.rst = s.rst ∧ t.straps = s.straps ∧ t.pending = s.pending) ∧
    (t.flt = s.flt ∧ t.start = s.start) ∧
    (t.prf = s.prf ∧ t.plt = s.plt ∧ t.adm = s.adm ∧ t.eng = s.eng ∧ t.spn = s.spn) ∧
    (t.isl = s.isl ∧ t.fe = s.fe ∧ t.sw = s.sw ∧ t.mns = s.mns ∧ t.stb = s.stb) ∧
    (t.fan = s.fan ∧ t.mot = s.mot ∧ t.gat = s.gat ∧ t.htd = s.htd) ∧
    (t.cal = s.cal ∧ t.can = s.can ∧ t.syn = s.syn ∧ t.svc = s.svc)

abbrev Only.freePwrNvmRecrSvc (t s : State) : Prop :=
    (t.now = s.now ∧ t.rst = s.rst ∧ t.straps = s.straps ∧ t.pending = s.pending) ∧
    (t.flt = s.flt ∧ t.start = s.start) ∧
    (t.prf = s.prf ∧ t.plt = s.plt ∧ t.adm = s.adm ∧ t.eng = s.eng ∧ t.spn = s.spn) ∧
    (t.isl = s.isl ∧ t.fe = s.fe ∧ t.sw = s.sw ∧ t.mns = s.mns ∧ t.stb = s.stb) ∧
    (t.fan = s.fan ∧ t.mot = s.mot ∧ t.gat = s.gat ∧ t.htd = s.htd) ∧
    (t.cal = s.cal ∧ t.can = s.can ∧ t.syn = s.syn)

abbrev Only.pwrNvmRecrPrfSpnSvc (t s : State) : Prop :=
    (t.now = s.now ∧ t.free = s.free ∧ t.rst = s.rst ∧ t.straps = s.straps ∧ t.pending = s.pending) ∧
    (t.flt = s.flt ∧ t.start = s.start) ∧
    (t.plt = s.plt ∧ t.adm = s.adm ∧ t.eng = s.eng) ∧
    (t.isl = s.isl ∧ t.fe = s.fe ∧ t.sw = s.sw ∧ t.mns = s.mns ∧ t.stb = s.stb) ∧
    (t.fan = s.fan ∧ t.mot = s.mot ∧ t.gat = s.gat ∧ t.htd = s.htd) ∧
    (t.cal = s.cal ∧ t.can = s.can ∧ t.syn = s.syn)

abbrev Only.raisePwrNvmPrfSvc (t s : State) : Prop :=
    (t.now = s.now ∧ t.free = s.free ∧ t.rst = s.rst ∧ t.straps = s.straps ∧ t.pending = s.pending) ∧
    (t.plt = s.plt ∧ t.adm = s.adm) ∧
    (t.fe = s.fe ∧ t.mns = s.mns ∧ t.stb = s.stb) ∧
    (t.fan = s.fan ∧ t.mot = s.mot ∧ t.gat = s.gat ∧ t.htd = s.htd) ∧
    (t.cal = s.cal ∧ t.can = s.can ∧ t.syn = s.syn)

abbrev Only.nvmFltRecr (t s : State) : Prop :=
    (t.now = s.now ∧ t.free = s.free ∧ t.rst = s.rst ∧ t.straps = s.straps ∧ t.pending = s.pending) ∧
    (t.pwr = s.pwr ∧ t.start = s.start) ∧
    (t.prf = s.prf ∧ t.plt = s.plt ∧ t.adm = s.adm ∧ t.eng = s.eng ∧ t.spn = s.spn) ∧
    (t.isl = s.isl ∧ t.fe = s.fe ∧ t.sw = s.sw ∧ t.mns = s.mns ∧ t.stb = s.stb) ∧
    (t.fan = s.fan ∧ t.mot = s.mot ∧ t.gat = s.gat ∧ t.htd = s.htd) ∧
    (t.cal = s.cal ∧ t.can = s.can ∧ t.syn = s.syn ∧ t.svc = s.svc)

abbrev Only.fltRecrPrf (t s : State) : Prop :=
    (t.now = s.now ∧ t.free = s.free ∧ t.rst = s.rst ∧ t.straps = s.straps ∧ t.pending = s.pending) ∧
    (t.pwr = s.pwr ∧ t.nvm = s.nvm ∧ t.start = s.start) ∧
    (t.plt = s.plt ∧ t.adm = s.adm ∧ t.eng = s.eng ∧ t.spn = s.spn) ∧
    (t.isl = s.isl ∧ t.fe = s.fe ∧ t.sw = s.sw ∧ t.mns = s.mns ∧ t.stb = s.stb) ∧
    (t.fan = s.fan ∧ t.mot = s.mot ∧ t.gat = s.gat ∧ t.htd = s.htd) ∧
    (t.cal = s.cal ∧ t.can = s.can ∧ t.syn = s.syn ∧ t.svc = s.svc)

abbrev Only.pwrNvmFltRecrPrfSpnFe (t s : State) : Prop :=
    (t.now = s.now ∧ t.free = s.free ∧ t.rst = s.rst ∧ t.straps = s.straps ∧ t.pending = s.pending) ∧
    (t.start = s.start) ∧
    (t.plt = s.plt ∧ t.adm = s.adm ∧ t.eng = s.eng) ∧
    (t.isl = s.isl ∧ t.sw = s.sw ∧ t.mns = s.mns ∧ t.stb = s.stb) ∧
    (t.fan = s.fan ∧ t.mot = s.mot ∧ t.gat = s.gat ∧ t.htd = s.htd) ∧
    (t.cal = s.cal ∧ t.can = s.can ∧ t.syn = s.syn ∧ t.svc = s.svc)

abbrev Only.raisePwrNvmPrfFe (t s : State) : Prop :=
    (t.now = s.now ∧ t.free = s.free ∧ t.rst = s.rst ∧ t.straps = s.straps ∧ t.pending = s.pending) ∧
    (t.plt = s.plt ∧ t.adm = s.adm) ∧
    (t.mns = s.mns ∧ t.stb = s.stb) ∧
    (t.fan = s.fan ∧ t.mot = s.mot ∧ t.gat = s.gat ∧ t.htd = s.htd) ∧
    (t.cal = s.cal ∧ t.can = s.can ∧ t.syn = s.syn ∧ t.svc = s.svc)

abbrev Only.raisePwrNvmPrfFeSvc (t s : State) : Prop :=
    (t.now = s.now ∧ t.free = s.free ∧ t.rst = s.rst ∧ t.straps = s.straps ∧ t.pending = s.pending) ∧
    (t.plt = s.plt ∧ t.adm = s.adm) ∧
    (t.mns = s.mns ∧ t.stb = s.stb) ∧
    (t.fan = s.fan ∧ t.mot = s.mot ∧ t.gat = s.gat ∧ t.htd = s.htd) ∧
    (t.cal = s.cal ∧ t.can = s.can ∧ t.syn = s.syn)

abbrev Only.raisePwrNvmPrfFeSyn (t s : State) : Prop :=
    (t.now = s.now ∧ t.free = s.free ∧ t.rst = s.rst ∧ t.straps = s.straps ∧ t.pending = s.pending) ∧
    (t.plt = s.plt ∧ t.adm = s.adm) ∧
    (t.mns = s.mns ∧ t.stb = s.stb) ∧
    (t.fan = s.fan ∧ t.mot = s.mot ∧ t.gat = s.gat ∧ t.htd = s.htd) ∧
    (t.cal = s.cal ∧ t.can = s.can ∧ t.svc = s.svc)

abbrev Only.raiseFreePwrNvmPrfFeSynSvc (t s : State) : Prop :=
    (t.now = s.now ∧ t.rst = s.rst ∧ t.straps = s.straps ∧ t.pending = s.pending) ∧
    (t.plt = s.plt ∧ t.adm = s.adm) ∧
    (t.mns = s.mns ∧ t.stb = s.stb) ∧
    (t.fan = s.fan ∧ t.mot = s.mot ∧ t.gat = s.gat ∧ t.htd = s.htd) ∧
    (t.cal = s.cal ∧ t.can = s.can)

abbrev Only.pwrNvmRecrPrfSpnCanSvc (t s : State) : Prop :=
    (t.now = s.now ∧ t.free = s.free ∧ t.rst = s.rst ∧ t.straps = s.straps ∧ t.pending = s.pending) ∧
    (t.flt = s.flt ∧ t.start = s.start) ∧
    (t.plt = s.plt ∧ t.adm = s.adm ∧ t.eng = s.eng) ∧
    (t.isl = s.isl ∧ t.fe = s.fe ∧ t.sw = s.sw ∧ t.mns = s.mns ∧ t.stb = s.stb) ∧
    (t.fan = s.fan ∧ t.mot = s.mot ∧ t.gat = s.gat ∧ t.htd = s.htd) ∧
    (t.cal = s.cal ∧ t.syn = s.syn)

abbrev Only.pwrNvmFltRecrPrfSpn (t s : State) : Prop :=
    (t.now = s.now ∧ t.free = s.free ∧ t.rst = s.rst ∧ t.straps = s.straps ∧ t.pending = s.pending) ∧
    (t.start = s.start) ∧
    (t.plt = s.plt ∧ t.adm = s.adm ∧ t.eng = s.eng) ∧
    (t.isl = s.isl ∧ t.fe = s.fe ∧ t.sw = s.sw ∧ t.mns = s.mns ∧ t.stb = s.stb) ∧
    (t.fan = s.fan ∧ t.mot = s.mot ∧ t.gat = s.gat ∧ t.htd = s.htd) ∧
    (t.cal = s.cal ∧ t.can = s.can ∧ t.syn = s.syn ∧ t.svc = s.svc)

abbrev Only.raisePwrNvmPrfCanSyn (t s : State) : Prop :=
    (t.now = s.now ∧ t.free = s.free ∧ t.rst = s.rst ∧ t.straps = s.straps ∧ t.pending = s.pending) ∧
    (t.plt = s.plt ∧ t.adm = s.adm) ∧
    (t.fe = s.fe ∧ t.mns = s.mns ∧ t.stb = s.stb) ∧
    (t.fan = s.fan ∧ t.mot = s.mot ∧ t.gat = s.gat ∧ t.htd = s.htd) ∧
    (t.cal = s.cal ∧ t.svc = s.svc)

abbrev Only.fltRecrCan (t s : State) : Prop :=
    (t.now = s.now ∧ t.free = s.free ∧ t.rst = s.rst ∧ t.straps = s.straps ∧ t.pending = s.pending) ∧
    (t.pwr = s.pwr ∧ t.nvm = s.nvm ∧ t.start = s.start) ∧
    (t.prf = s.prf ∧ t.plt = s.plt ∧ t.adm = s.adm ∧ t.eng = s.eng ∧ t.spn = s.spn) ∧
    (t.isl = s.isl ∧ t.fe = s.fe ∧ t.sw = s.sw ∧ t.mns = s.mns ∧ t.stb = s.stb) ∧
    (t.fan = s.fan ∧ t.mot = s.mot ∧ t.gat = s.gat ∧ t.htd = s.htd) ∧
    (t.cal = s.cal ∧ t.syn = s.syn ∧ t.svc = s.svc)

abbrev Only.raisePwr (t s : State) : Prop :=
    (t.now = s.now ∧ t.free = s.free ∧ t.rst = s.rst ∧ t.straps = s.straps ∧ t.pending = s.pending) ∧
    (t.nvm = s.nvm) ∧
    (t.prf = s.prf ∧ t.plt = s.plt ∧ t.adm = s.adm) ∧
    (t.fe = s.fe ∧ t.mns = s.mns ∧ t.stb = s.stb) ∧
    (t.fan = s.fan ∧ t.mot = s.mot ∧ t.gat = s.gat ∧ t.htd = s.htd) ∧
    (t.cal = s.cal ∧ t.can = s.can ∧ t.syn = s.syn ∧ t.svc = s.svc)

abbrev Only.strapsRecrEngSw (t s : State) : Prop :=
    (t.now = s.now ∧ t.free = s.free ∧ t.rst = s.rst ∧ t.pending = s.pending) ∧
    (t.pwr = s.pwr ∧ t.nvm = s.nvm ∧ t.flt = s.flt ∧ t.start = s.start) ∧
    (t.prf = s.prf ∧ t.plt = s.plt ∧ t.adm = s.adm ∧ t.spn = s.spn) ∧
    (t.isl = s.isl ∧ t.fe = s.fe ∧ t.mns = s.mns ∧ t.stb = s.stb) ∧
    (t.fan = s.fan ∧ t.mot = s.mot ∧ t.gat = s.gat ∧ t.htd = s.htd) ∧
    (t.cal = s.cal ∧ t.can = s.can ∧ t.syn = s.syn ∧ t.svc = s.svc)

abbrev Only.pwrNvmRecrPrfSpnIslFeCan (t s : State) : Prop :=
    (t.now = s.now ∧ t.free = s.free ∧ t.rst = s.rst ∧ t.straps = s.straps ∧ t.pending = s.pending) ∧
    (t.flt = s.flt ∧ t.start = s.start) ∧
    (t.plt = s.plt ∧ t.adm = s.adm ∧ t.eng = s.eng) ∧
    (t.sw = s.sw ∧ t.mns = s.mns ∧ t.stb = s.stb) ∧
    (t.fan = s.fan ∧ t.mot = s.mot ∧ t.gat = s.gat ∧ t.htd = s.htd) ∧
    (t.cal = s.cal ∧ t.syn = s.syn ∧ t.svc = s.svc)

abbrev Only.pwrNvmRecrPrfPltSpnIslFeMnsStbFanHtdCanSvc (t s : State) : Prop :=
    (t.now = s.now ∧ t.free = s.free ∧ t.rst = s.rst ∧ t.straps = s.straps ∧ t.pending = s.pending) ∧
    (t.flt = s.flt ∧ t.start = s.start) ∧
    (t.adm = s.adm ∧ t.eng = s.eng) ∧
    (t.sw = s.sw) ∧
    (t.mot = s.mot ∧ t.gat = s.gat) ∧
    (t.cal = s.cal ∧ t.syn = s.syn)

abbrev Only.raisePwrNvmPrfPltFeMnsStbFanHtdCanSvc (t s : State) : Prop :=
    (t.now = s.now ∧ t.free = s.free ∧ t.rst = s.rst ∧ t.straps = s.straps ∧ t.pending = s.pending) ∧
    (t.adm = s.adm) ∧
    (t.mot = s.mot ∧ t.gat = s.gat) ∧
    (t.cal = s.cal ∧ t.syn = s.syn)

abbrev Only.pwrNvmFltRecrPrfPltEngSpnIslFeMnsStbFanHtdCanSvc (t s : State) : Prop :=
    (t.now = s.now ∧ t.free = s.free ∧ t.rst = s.rst ∧ t.straps = s.straps ∧ t.pending = s.pending) ∧
    (t.start = s.start) ∧
    (t.adm = s.adm) ∧
    (t.sw = s.sw) ∧
    (t.mot = s.mot ∧ t.gat = s.gat) ∧
    (t.cal = s.cal ∧ t.syn = s.syn)

abbrev Only.nvmPrfSpn (t s : State) : Prop :=
    (t.now = s.now ∧ t.free = s.free ∧ t.rst = s.rst ∧ t.straps = s.straps ∧ t.pending = s.pending) ∧
    (t.pwr = s.pwr ∧ t.flt = s.flt ∧ t.recr = s.recr ∧ t.start = s.start) ∧
    (t.plt = s.plt ∧ t.adm = s.adm ∧ t.eng = s.eng) ∧
    (t.isl = s.isl ∧ t.fe = s.fe ∧ t.sw = s.sw ∧ t.mns = s.mns ∧ t.stb = s.stb) ∧
    (t.fan = s.fan ∧ t.mot = s.mot ∧ t.gat = s.gat ∧ t.htd = s.htd) ∧
    (t.cal = s.cal ∧ t.can = s.can ∧ t.syn = s.syn ∧ t.svc = s.svc)

abbrev Only.recrStart (t s : State) : Prop :=
    (t.now = s.now ∧ t.free = s.free ∧ t.rst = s.rst ∧ t.straps = s.straps ∧ t.pending = s.pending) ∧
    (t.pwr = s.pwr ∧ t.nvm = s.nvm ∧ t.flt = s.flt) ∧
    (t.prf = s.prf ∧ t.plt = s.plt ∧ t.adm = s.adm ∧ t.eng = s.eng ∧ t.spn = s.spn) ∧
    (t.isl = s.isl ∧ t.fe = s.fe ∧ t.sw = s.sw ∧ t.mns = s.mns ∧ t.stb = s.stb) ∧
    (t.fan = s.fan ∧ t.mot = s.mot ∧ t.gat = s.gat ∧ t.htd = s.htd) ∧
    (t.cal = s.cal ∧ t.can = s.can ∧ t.syn = s.syn ∧ t.svc = s.svc)

abbrev Only.pwrNvmRecrStartPrfSpnIslFeCan (t s : State) : Prop :=
    (t.now = s.now ∧ t.free = s.free ∧ t.rst = s.rst ∧ t.straps = s.straps ∧ t.pending = s.pending) ∧
    (t.flt = s.flt) ∧
    (t.plt = s.plt ∧ t.adm = s.adm ∧ t.eng = s.eng) ∧
    (t.sw = s.sw ∧ t.mns = s.mns ∧ t.stb = s.stb) ∧
    (t.fan = s.fan ∧ t.mot = s.mot ∧ t.gat = s.gat ∧ t.htd = s.htd) ∧
    (t.cal = s.cal ∧ t.syn = s.syn ∧ t.svc = s.svc)

abbrev Only.raiseFreePwrNvmPrf (t s : State) : Prop :=
    (t.now = s.now ∧ t.rst = s.rst ∧ t.straps = s.straps ∧ t.pending = s.pending) ∧
    (t.plt = s.plt ∧ t.adm = s.adm) ∧
    (t.fe = s.fe ∧ t.mns = s.mns ∧ t.stb = s.stb) ∧
    (t.fan = s.fan ∧ t.mot = s.mot ∧ t.gat = s.gat ∧ t.htd = s.htd) ∧
    (t.cal = s.cal ∧ t.can = s.can ∧ t.syn = s.syn ∧ t.svc = s.svc)

abbrev Only.raisePwrNvmPrfPltFeCan (t s : State) : Prop :=
    (t.now = s.now ∧ t.free = s.free ∧ t.rst = s.rst ∧ t.straps = s.straps ∧ t.pending = s.pending) ∧
    (t.adm = s.adm) ∧
    (t.mns = s.mns ∧ t.stb = s.stb) ∧
    (t.fan = s.fan ∧ t.mot = s.mot ∧ t.gat = s.gat ∧ t.htd = s.htd) ∧
    (t.cal = s.cal ∧ t.syn = s.syn ∧ t.svc = s.svc)

abbrev Only.raisePwrNvmPrfPltAdmFeCan (t s : State) : Prop :=
    (t.now = s.now ∧ t.free = s.free ∧ t.rst = s.rst ∧ t.straps = s.straps ∧ t.pending = s.pending) ∧
    (t.mns = s.mns ∧ t.stb = s.stb) ∧
    (t.fan = s.fan ∧ t.mot = s.mot ∧ t.gat = s.gat ∧ t.htd = s.htd) ∧
    (t.cal = s.cal ∧ t.syn = s.syn ∧ t.svc = s.svc)

abbrev Only.prfAdm (t s : State) : Prop :=
    (t.now = s.now ∧ t.free = s.free ∧ t.rst = s.rst ∧ t.straps = s.straps ∧ t.pending = s.pending) ∧
    (t.pwr = s.pwr ∧ t.nvm = s.nvm ∧ t.flt = s.flt ∧ t.recr = s.recr ∧ t.start = s.start) ∧
    (t.plt = s.plt ∧ t.eng = s.eng ∧ t.spn = s.spn) ∧
    (t.isl = s.isl ∧ t.fe = s.fe ∧ t.sw = s.sw ∧ t.mns = s.mns ∧ t.stb = s.stb) ∧
    (t.fan = s.fan ∧ t.mot = s.mot ∧ t.gat = s.gat ∧ t.htd = s.htd) ∧
    (t.cal = s.cal ∧ t.can = s.can ∧ t.syn = s.syn ∧ t.svc = s.svc)

abbrev Only.nvmRecrStb (t s : State) : Prop :=
    (t.now = s.now ∧ t.free = s.free ∧ t.rst = s.rst ∧ t.straps = s.straps ∧ t.pending = s.pending) ∧
    (t.pwr = s.pwr ∧ t.flt = s.flt ∧ t.start = s.start) ∧
    (t.prf = s.prf ∧ t.plt = s.plt ∧ t.adm = s.adm ∧ t.eng = s.eng ∧ t.spn = s.spn) ∧
    (t.isl = s.isl ∧ t.fe = s.fe ∧ t.sw = s.sw ∧ t.mns = s.mns) ∧
    (t.fan = s.fan ∧ t.mot = s.mot ∧ t.gat = s.gat ∧ t.htd = s.htd) ∧
    (t.cal = s.cal ∧ t.can = s.can ∧ t.syn = s.syn ∧ t.svc = s.svc)

abbrev Only.raisePwrNvmPltStbFan (t s : State) : Prop :=
    (t.now = s.now ∧ t.free = s.free ∧ t.rst = s.rst ∧ t.straps = s.straps ∧ t.pending = s.pending) ∧
    (t.prf = s.prf ∧ t.adm = s.adm) ∧
    (t.fe = s.fe ∧ t.mns = s.mns) ∧
    (t.mot = s.mot ∧ t.gat = s.gat ∧ t.htd = s.htd) ∧
    (t.cal = s.cal ∧ t.can = s.can ∧ t.syn = s.syn ∧ t.svc = s.svc)

abbrev Only.pwrNvmFltPltStbFan (t s : State) : Prop :=
    (t.now = s.now ∧ t.free = s.free ∧ t.rst = s.rst ∧ t.straps = s.straps ∧ t.pending = s.pending) ∧
    (t.recr = s.recr ∧ t.start = s.start) ∧
    (t.prf = s.prf ∧ t.adm = s.adm ∧ t.eng = s.eng ∧ t.spn = s.spn) ∧
    (t.isl = s.isl ∧ t.fe = s.fe ∧ t.sw = s.sw ∧ t.mns = s.mns) ∧
    (t.mot = s.mot ∧ t.gat = s.gat ∧ t.htd = s.htd) ∧
    (t.cal = s.cal ∧ t.can = s.can ∧ t.syn = s.syn ∧ t.svc = s.svc)

abbrev Only.none (t s : State) : Prop :=
    (t.now = s.now ∧ t.free = s.free ∧ t.rst = s.rst ∧ t.straps = s.straps ∧ t.pending = s.pending) ∧
    (t.pwr = s.pwr ∧ t.nvm = s.nvm ∧ t.flt = s.flt ∧ t.recr = s.recr ∧ t.start = s.start) ∧
    (t.prf = s.prf ∧ t.plt = s.plt ∧ t.adm = s.adm ∧ t.eng = s.eng ∧ t.spn = s.spn) ∧
    (t.isl = s.isl ∧ t.fe = s.fe ∧ t.sw = s.sw ∧ t.mns = s.mns ∧ t.stb = s.stb) ∧
    (t.fan = s.fan ∧ t.mot = s.mot ∧ t.gat = s.gat ∧ t.htd = s.htd) ∧
    (t.cal = s.cal ∧ t.can = s.can ∧ t.syn = s.syn ∧ t.svc = s.svc)

abbrev Only.recrEngSvc (t s : State) : Prop :=
    (t.now = s.now ∧ t.free = s.free ∧ t.rst = s.rst ∧ t.straps = s.straps ∧ t.pending = s.pending) ∧
    (t.pwr = s.pwr ∧ t.nvm = s.nvm ∧ t.flt = s.flt ∧ t.start = s.start) ∧
    (t.prf = s.prf ∧ t.plt = s.plt ∧ t.adm = s.adm ∧ t.spn = s.spn) ∧
    (t.isl = s.isl ∧ t.fe = s.fe ∧ t.sw = s.sw ∧ t.mns = s.mns ∧ t.stb = s.stb) ∧
    (t.fan = s.fan ∧ t.mot = s.mot ∧ t.gat = s.gat ∧ t.htd = s.htd) ∧
    (t.cal = s.cal ∧ t.can = s.can ∧ t.syn = s.syn)

abbrev Only.recrPltEngStbSvc (t s : State) : Prop :=
    (t.now = s.now ∧ t.free = s.free ∧ t.rst = s.rst ∧ t.straps = s.straps ∧ t.pending = s.pending) ∧
    (t.pwr = s.pwr ∧ t.nvm = s.nvm ∧ t.flt = s.flt ∧ t.start = s.start) ∧
    (t.prf = s.prf ∧ t.adm = s.adm ∧ t.spn = s.spn) ∧
    (t.isl = s.isl ∧ t.fe = s.fe ∧ t.sw = s.sw ∧ t.mns = s.mns) ∧
    (t.fan = s.fan ∧ t.mot = s.mot ∧ t.gat = s.gat ∧ t.htd = s.htd) ∧
    (t.cal = s.cal ∧ t.can = s.can ∧ t.syn = s.syn)

abbrev Only.pwrNvmRecrPrfPltEngSpnStbSvc (t s : State) : Prop :=
    (t.now = s.now ∧ t.free = s.free ∧ t.rst = s.rst ∧ t.straps = s.straps ∧ t.pending = s.pending) ∧
    (t.flt = s.flt ∧ t.start = s.start) ∧
    (t.adm = s.adm) ∧
    (t.isl = s.isl ∧ t.fe = s.fe ∧ t.sw = s.sw ∧ t.mns = s.mns) ∧
    (t.fan = s.fan ∧ t.mot = s.mot ∧ t.gat = s.gat ∧ t.htd = s.htd) ∧
    (t.cal = s.cal ∧ t.can = s.can ∧ t.syn = s.syn)

abbrev Only.raisePwrNvmPrfPltStbSvc (t s : State) : Prop :=
    (t.now = s.now ∧ t.free = s.free ∧ t.rst = s.rst ∧ t.straps = s.straps ∧ t.pending = s.pending) ∧
    (t.adm = s.adm) ∧
    (t.fe = s.fe ∧ t.mns = s.mns) ∧
    (t.fan = s.fan ∧ t.mot = s.mot ∧ t.gat = s.gat ∧ t.htd = s.htd) ∧
    (t.cal = s.cal ∧ t.can = s.can ∧ t.syn = s.syn)

abbrev Only.nvmRecrSvc (t s : State) : Prop :=
    (t.now = s.now ∧ t.free = s.free ∧ t.rst = s.rst ∧ t.straps = s.straps ∧ t.pending = s.pending) ∧
    (t.pwr = s.pwr ∧ t.flt = s.flt ∧ t.start = s.start) ∧
    (t.prf = s.prf ∧ t.plt = s.plt ∧ t.adm = s.adm ∧ t.eng = s.eng ∧ t.spn = s.spn) ∧
    (t.isl = s.isl ∧ t.fe = s.fe ∧ t.sw = s.sw ∧ t.mns = s.mns ∧ t.stb = s.stb) ∧
    (t.fan = s.fan ∧ t.mot = s.mot ∧ t.gat = s.gat ∧ t.htd = s.htd) ∧
    (t.cal = s.cal ∧ t.can = s.can ∧ t.syn = s.syn)

abbrev Only.raisePwrNvmPrfCanSvc (t s : State) : Prop :=
    (t.now = s.now ∧ t.free = s.free ∧ t.rst = s.rst ∧ t.straps = s.straps ∧ t.pending = s.pending) ∧
    (t.plt = s.plt ∧ t.adm = s.adm) ∧
    (t.fe = s.fe ∧ t.mns = s.mns ∧ t.stb = s.stb) ∧
    (t.fan = s.fan ∧ t.mot = s.mot ∧ t.gat = s.gat ∧ t.htd = s.htd) ∧
    (t.cal = s.cal ∧ t.syn = s.syn)

abbrev Only.pwrIslFe (t s : State) : Prop :=
    (t.now = s.now ∧ t.free = s.free ∧ t.rst = s.rst ∧ t.straps = s.straps ∧ t.pending = s.pending) ∧
    (t.nvm = s.nvm ∧ t.flt = s.flt ∧ t.recr = s.recr ∧ t.start = s.start) ∧
    (t.prf = s.prf ∧ t.plt = s.plt ∧ t.adm = s.adm ∧ t.eng = s.eng ∧ t.spn = s.spn) ∧
    (t.sw = s.sw ∧ t.mns = s.mns ∧ t.stb = s.stb) ∧
    (t.fan = s.fan ∧ t.mot = s.mot ∧ t.gat = s.gat ∧ t.htd = s.htd) ∧
    (t.cal = s.cal ∧ t.can = s.can ∧ t.syn = s.syn ∧ t.svc = s.svc)

abbrev Only.freePlt (t s : State) : Prop :=
    (t.now = s.now ∧ t.rst = s.rst ∧ t.straps = s.straps ∧ t.pending = s.pending) ∧
    (t.pwr = s.pwr ∧ t.nvm = s.nvm ∧ t.flt = s.flt ∧ t.recr = s.recr ∧ t.start = s.start) ∧
    (t.prf = s.prf ∧ t.adm = s.adm ∧ t.eng = s.eng ∧ t.spn = s.spn) ∧
    (t.isl = s.isl ∧ t.fe = s.fe ∧ t.sw = s.sw ∧ t.mns = s.mns ∧ t.stb = s.stb) ∧
    (t.fan = s.fan ∧ t.mot = s.mot ∧ t.gat = s.gat ∧ t.htd = s.htd) ∧
    (t.cal = s.cal ∧ t.can = s.can ∧ t.syn = s.syn ∧ t.svc = s.svc)

abbrev Only.raiseNvmPltSvc (t s : State) : Prop :=
    (t.now = s.now ∧ t.free = s.free ∧ t.rst = s.rst ∧ t.straps = s.straps ∧ t.pending = s.pending) ∧
    (t.pwr = s.pwr) ∧
    (t.prf = s.prf ∧ t.adm = s.adm) ∧
    (t.fe = s.fe ∧ t.mns = s.mns ∧ t.stb = s.stb) ∧
    (t.fan = s.fan ∧ t.mot = s.mot ∧ t.gat = s.gat ∧ t.htd = s.htd) ∧
    (t.cal = s.cal ∧ t.can = s.can ∧ t.syn = s.syn)

abbrev Only.pwrNvmRecrStartPrfSpn (t s : State) : Prop :=
    (t.now = s.now ∧ t.free = s.free ∧ t.rst = s.rst ∧ t.straps = s.straps ∧ t.pending = s.pending) ∧
    (t.flt = s.flt) ∧
    (t.plt = s.plt ∧ t.adm = s.adm ∧ t.eng = s.eng) ∧
    (t.isl = s.isl ∧ t.fe = s.fe ∧ t.sw = s.sw ∧ t.mns = s.mns ∧ t.stb = s.stb) ∧
    (t.fan = s.fan ∧ t.mot = s.mot ∧ t.gat = s.gat ∧ t.htd = s.htd) ∧
    (t.cal = s.cal ∧ t.can = s.can ∧ t.syn = s.syn ∧ t.svc = s.svc)

abbrev Only.raiseNvmPrf (t s : State) : Prop :=
    (t.now = s.now ∧ t.free = s.free ∧ t.rst = s.rst ∧ t.straps = s.straps ∧ t.pending = s.pending) ∧
    (t.pwr = s.pwr) ∧
    (t.plt = s.plt ∧ t.adm = s.adm) ∧
    (t.fe = s.fe ∧ t.mns = s.mns ∧ t.stb = s.stb) ∧
    (t.fan = s.fan ∧ t.mot = s.mot ∧ t.gat = s.gat ∧ t.htd = s.htd) ∧
    (t.cal = s.cal ∧ t.can = s.can ∧ t.syn = s.syn ∧ t.svc = s.svc)

abbrev Only.raisePwrNvmPrfPltAdmFeStbFanCan (t s : State) : Prop :=
    (t.now = s.now ∧ t.free = s.free ∧ t.rst = s.rst ∧ t.straps = s.straps ∧ t.pending = s.pending) ∧
    (t.mns = s.mns) ∧
    (t.mot = s.mot ∧ t.gat = s.gat ∧ t.htd = s.htd) ∧
    (t.cal = s.cal ∧ t.syn = s.syn ∧ t.svc = s.svc)

abbrev Only.strapsPwrNvmEngSpnIslSvc (t s : State) : Prop :=
    (t.now = s.now ∧ t.free = s.free ∧ t.rst = s.rst ∧ t.pending = s.pending) ∧
    (t.flt = s.flt ∧ t.recr = s.recr ∧ t.start = s.start) ∧
    (t.prf = s.prf ∧ t.plt = s.plt ∧ t.adm = s.adm) ∧
    (t.fe = s.fe ∧ t.sw = s.sw ∧ t.mns = s.mns ∧ t.stb = s.stb) ∧
    (t.fan = s.fan ∧ t.mot = s.mot ∧ t.gat = s.gat ∧ t.htd = s.htd) ∧
    (t.cal = s.cal ∧ t.can = s.can ∧ t.syn = s.syn)

abbrev Only.recrEngSwSvc (t s : State) : Prop :=
    (t.now = s.now ∧ t.free = s.free ∧ t.rst = s.rst ∧ t.straps = s.straps ∧ t.pending = s.pending) ∧
    (t.pwr = s.pwr ∧ t.nvm = s.nvm ∧ t.flt = s.flt ∧ t.start = s.start) ∧
    (t.prf = s.prf ∧ t.plt = s.plt ∧ t.adm = s.adm ∧ t.spn = s.spn) ∧
    (t.isl = s.isl ∧ t.fe = s.fe ∧ t.mns = s.mns ∧ t.stb = s.stb) ∧
    (t.fan = s.fan ∧ t.mot = s.mot ∧ t.gat = s.gat ∧ t.htd = s.htd) ∧
    (t.cal = s.cal ∧ t.can = s.can ∧ t.syn = s.syn)

abbrev Only.raiseStrapsPwrNvmPrfFeStbFanMotCanSvc (t s : State) : Prop :=
    (t.now = s.now ∧ t.free = s.free ∧ t.rst = s.rst ∧ t.pending = s.pending) ∧
    (t.plt = s.plt ∧ t.adm = s.adm) ∧
    (t.mns = s.mns) ∧
    (t.gat = s.gat ∧ t.htd = s.htd) ∧
    (t.cal = s.cal ∧ t.syn = s.syn)

abbrev Only.pwrNvmFltRecrPrfSpnCalSvc (t s : State) : Prop :=
    (t.now = s.now ∧ t.free = s.free ∧ t.rst = s.rst ∧ t.straps = s.straps ∧ t.pending = s.pending) ∧
    (t.start = s.start) ∧
    (t.plt = s.plt ∧ t.adm = s.adm ∧ t.eng = s.eng) ∧
    (t.isl = s.isl ∧ t.fe = s.fe ∧ t.sw = s.sw ∧ t.mns = s.mns ∧ t.stb = s.stb) ∧
    (t.fan = s.fan ∧ t.mot = s.mot ∧ t.gat = s.gat ∧ t.htd = s.htd) ∧
    (t.can = s.can ∧ t.syn = s.syn)

abbrev Only.raiseStrapsPwrNvmPrfFeStbFanMotCalCanSvc (t s : State) : Prop :=
    (t.now = s.now ∧ t.free = s.free ∧ t.rst = s.rst ∧ t.pending = s.pending) ∧
    (t.plt = s.plt ∧ t.adm = s.adm) ∧
    (t.mns = s.mns) ∧
    (t.gat = s.gat ∧ t.htd = s.htd) ∧
    (t.syn = s.syn)

abbrev Only.raiseFreeNvmCal (t s : State) : Prop :=
    (t.now = s.now ∧ t.rst = s.rst ∧ t.straps = s.straps ∧ t.pending = s.pending) ∧
    (t.pwr = s.pwr) ∧
    (t.prf = s.prf ∧ t.plt = s.plt ∧ t.adm = s.adm) ∧
    (t.fe = s.fe ∧ t.mns = s.mns ∧ t.stb = s.stb) ∧
    (t.fan = s.fan ∧ t.mot = s.mot ∧ t.gat = s.gat ∧ t.htd = s.htd) ∧
    (t.can = s.can ∧ t.syn = s.syn ∧ t.svc = s.svc)

abbrev Only.raiseFreeNvmCalSvc (t s : State) : Prop :=
    (t.now = s.now ∧ t.rst = s.rst ∧ t.straps = s.straps ∧ t.pending = s.pending) ∧
    (t.pwr = s.pwr) ∧
    (t.prf = s.prf ∧ t.plt = s.plt ∧ t.adm = s.adm) ∧
    (t.fe = s.fe ∧ t.mns = s.mns ∧ t.stb = s.stb) ∧
    (t.fan = s.fan ∧ t.mot = s.mot ∧ t.gat = s.gat ∧ t.htd = s.htd) ∧
    (t.can = s.can ∧ t.syn = s.syn)

abbrev Only.freeSvc (t s : State) : Prop :=
    (t.now = s.now ∧ t.rst = s.rst ∧ t.straps = s.straps ∧ t.pending = s.pending) ∧
    (t.pwr = s.pwr ∧ t.nvm = s.nvm ∧ t.flt = s.flt ∧ t.recr = s.recr ∧ t.start = s.start) ∧
    (t.prf = s.prf ∧ t.plt = s.plt ∧ t.adm = s.adm ∧ t.eng = s.eng ∧ t.spn = s.spn) ∧
    (t.isl = s.isl ∧ t.fe = s.fe ∧ t.sw = s.sw ∧ t.mns = s.mns ∧ t.stb = s.stb) ∧
    (t.fan = s.fan ∧ t.mot = s.mot ∧ t.gat = s.gat ∧ t.htd = s.htd) ∧
    (t.cal = s.cal ∧ t.can = s.can ∧ t.syn = s.syn)

abbrev Only.fltRecrCanSyn (t s : State) : Prop :=
    (t.now = s.now ∧ t.free = s.free ∧ t.rst = s.rst ∧ t.straps = s.straps ∧ t.pending = s.pending) ∧
    (t.pwr = s.pwr ∧ t.nvm = s.nvm ∧ t.start = s.start) ∧
    (t.prf = s.prf ∧ t.plt = s.plt ∧ t.adm = s.adm ∧ t.eng = s.eng ∧ t.spn = s.spn) ∧
    (t.isl = s.isl ∧ t.fe = s.fe ∧ t.sw = s.sw ∧ t.mns = s.mns ∧ t.stb = s.stb) ∧
    (t.fan = s.fan ∧ t.mot = s.mot ∧ t.gat = s.gat ∧ t.htd = s.htd) ∧
    (t.cal = s.cal ∧ t.svc = s.svc)

abbrev Only.raiseGat (t s : State) : Prop :=
    (t.now = s.now ∧ t.free = s.free ∧ t.rst = s.rst ∧ t.straps = s.straps ∧ t.pending = s.pending) ∧
    (t.pwr = s.pwr ∧ t.nvm = s.nvm) ∧
    (t.prf = s.prf ∧ t.plt = s.plt ∧ t.adm = s.adm) ∧
    (t.fe = s.fe ∧ t.mns = s.mns ∧ t.stb = s.stb) ∧
    (t.fan = s.fan ∧ t.mot = s.mot ∧ t.htd = s.htd) ∧
    (t.cal = s.cal ∧ t.can = s.can ∧ t.syn = s.syn ∧ t.svc = s.svc)

abbrev Only.raiseMotGatHtd (t s : State) : Prop :=
    (t.now = s.now ∧ t.free = s.free ∧ t.rst = s.rst ∧ t.straps = s.straps ∧ t.pending = s.pending) ∧
    (t.pwr = s.pwr ∧ t.nvm = s.nvm) ∧
    (t.prf = s.prf ∧ t.plt = s.plt ∧ t.adm = s.adm) ∧
    (t.fe = s.fe ∧ t.mns = s.mns ∧ t.stb = s.stb) ∧
    (t.fan = s.fan) ∧
    (t.cal = s.cal ∧ t.can = s.can ∧ t.syn = s.syn ∧ t.svc = s.svc)

abbrev Only.recrCanSyn (t s : State) : Prop :=
    (t.now = s.now ∧ t.free = s.free ∧ t.rst = s.rst ∧ t.straps = s.straps ∧ t.pending = s.pending) ∧
    (t.pwr = s.pwr ∧ t.nvm = s.nvm ∧ t.flt = s.flt ∧ t.start = s.start) ∧
    (t.prf = s.prf ∧ t.plt = s.plt ∧ t.adm = s.adm ∧ t.eng = s.eng ∧ t.spn = s.spn) ∧
    (t.isl = s.isl ∧ t.fe = s.fe ∧ t.sw = s.sw ∧ t.mns = s.mns ∧ t.stb = s.stb) ∧
    (t.fan = s.fan ∧ t.mot = s.mot ∧ t.gat = s.gat ∧ t.htd = s.htd) ∧
    (t.cal = s.cal ∧ t.svc = s.svc)

abbrev Only.prfSpn (t s : State) : Prop :=
    (t.now = s.now ∧ t.free = s.free ∧ t.rst = s.rst ∧ t.straps = s.straps ∧ t.pending = s.pending) ∧
    (t.pwr = s.pwr ∧ t.nvm = s.nvm ∧ t.flt = s.flt ∧ t.recr = s.recr ∧ t.start = s.start) ∧
    (t.plt = s.plt ∧ t.adm = s.adm ∧ t.eng = s.eng) ∧
    (t.isl = s.isl ∧ t.fe = s.fe ∧ t.sw = s.sw ∧ t.mns = s.mns ∧ t.stb = s.stb) ∧
    (t.fan = s.fan ∧ t.mot = s.mot ∧ t.gat = s.gat ∧ t.htd = s.htd) ∧
    (t.cal = s.cal ∧ t.can = s.can ∧ t.syn = s.syn ∧ t.svc = s.svc)

abbrev Only.pending (t s : State) : Prop :=
    (t.now = s.now ∧ t.free = s.free ∧ t.rst = s.rst ∧ t.straps = s.straps) ∧
    (t.pwr = s.pwr ∧ t.nvm = s.nvm ∧ t.flt = s.flt ∧ t.recr = s.recr ∧ t.start = s.start) ∧
    (t.prf = s.prf ∧ t.plt = s.plt ∧ t.adm = s.adm ∧ t.eng = s.eng ∧ t.spn = s.spn) ∧
    (t.isl = s.isl ∧ t.fe = s.fe ∧ t.sw = s.sw ∧ t.mns = s.mns ∧ t.stb = s.stb) ∧
    (t.fan = s.fan ∧ t.mot = s.mot ∧ t.gat = s.gat ∧ t.htd = s.htd) ∧
    (t.cal = s.cal ∧ t.can = s.can ∧ t.syn = s.syn ∧ t.svc = s.svc)

theorem iteU (c : Prop) [Decidable c] (a b : State) :
    (if c then a else b).now = (if c then a.now else b.now) ∧ (if c then a else b).free = (if c then a.free else b.free) ∧
    (if c then a else b).rst = (if c then a.rst else b.rst) ∧ (if c then a else b).straps = (if c then a.straps else b.straps) ∧
    (if c then a else b).pwr = (if c then a.pwr else b.pwr) ∧ (if c then a else b).nvm = (if c then a.nvm else b.nvm) ∧
    (if c then a else b).flt = (if c then a.flt else b.flt) ∧ (if c then a else b).recr = (if c then a.recr else b.recr) ∧
    (if c then a else b).start = (if c then a.start else b.start) ∧ (if c then a else b).prf = (if c then a.prf else b.prf) ∧
    (if c then a else b).plt = (if c then a.plt else b.plt) ∧ (if c then a else b).adm = (if c then a.adm else b.adm) ∧
    (if c then a else b).eng = (if c then a.eng else b.eng) ∧ (if c then a else b).spn = (if c then a.spn else b.spn) ∧
    (if c then a else b).isl = (if c then a.isl else b.isl) ∧ (if c then a else b).fe = (if c then a.fe else b.fe) ∧
    (if c then a else b).sw = (if c then a.sw else b.sw) ∧ (if c then a else b).mns = (if c then a.mns else b.mns) ∧
    (if c then a else b).stb = (if c then a.stb else b.stb) ∧ (if c then a else b).fan = (if c then a.fan else b.fan) ∧
    (if c then a else b).mot = (if c then a.mot else b.mot) ∧ (if c then a else b).gat = (if c then a.gat else b.gat) ∧
    (if c then a else b).htd = (if c then a.htd else b.htd) ∧ (if c then a else b).cal = (if c then a.cal else b.cal) ∧
    (if c then a else b).can = (if c then a.can else b.can) ∧ (if c then a else b).syn = (if c then a.syn else b.syn) ∧
    (if c then a else b).svc = (if c then a.svc else b.svc) ∧
    (if c then a else b).pending = (if c then a.pending else b.pending) := by
  split <;> simp
theorem foldl_rel {α : Type} (R : State → State → Prop) (hr : ∀ s, R s s) (ht : ∀ a b c, R a b → R b c → R a c)
    (f : State → α → State) (h : ∀ s a, R (f s a) s) (l : List α) (s : State) : R (l.foldl f s) s := by
  induction l generalizing s with
  | nil => exact hr s
  | cons x xs ih => exact ht _ _ _ (ih (f s x)) (h s x)

end Sys2Proof.Machine
end

