-- ==== Sys2Proof/Laws/FramesA.lean ====
section
/-! SUPPORT. Frames of the shared operations, part 1 of 4: for each operation the units that it alone may change, in the order of the
Machine files. A later proof cites `<operation>_only` and never unfolds the operation. -/

set_option linter.unusedSimpArgs false
set_option linter.unusedVariables false
set_option maxRecDepth 8000

namespace Sys2Proof.Machine

open Sys2Proof

theorem takeFree_only (s : State) : Only.free ((takeFree s).2) s := by
  simp only [takeFree, Only.free]
  all_goals simp [iteU .., apply_ite Prod.snd, apply_ite Prod.fst]

theorem addRecord_only (s : State) (code unit : Nat) (a b : Word) : Only.recr (addRecord s code unit a b) s := by
  simp only [addRecord, Only.recr]
  all_goals simp [iteU .., apply_ite Prod.snd, apply_ite Prod.fst]

theorem startFlush_only (s : State) : Only.recr (startFlush s) s := by
  simp only [startFlush, Only.recr]
  all_goals simp [iteU .., apply_ite Prod.snd, apply_ite Prod.fst]

theorem putVal_only (s : State) (i : Nat) (w : Word) (q : Quality) (unit : Nat) : Only.engSw (putVal s i w q unit) s := by
  simp only [putVal, Only.engSw]
  all_goals simp [iteU .., apply_ite Prod.snd, apply_ite Prod.fst]

theorem setQuality_only (s : State) (i : Nat) (q : Quality) : Only.eng (setQuality s i q) s := by
  simp only [setQuality, Only.eng]
  all_goals simp [iteU .., apply_ite Prod.snd, apply_ite Prod.fst]

theorem countSat_only (s : State) (src unit : Nat) (w : Word) : Only.recrEng (countSat s src unit w) s := by
  simp only [countSat, Only.recrEng]
  all_goals simp [addRecord_only .., iteU .., apply_ite Prod.snd, apply_ite Prod.fst]

theorem countSats_only (s : State) (src unit : Nat) (x0 : List Word) : Only.recrEng (countSats s src unit x0) s := by
  induction x0 generalizing s src unit with
  | nil => simp [countSats, Only.recrEng]
  | cons y ys ih =>
    simp only [Only.recrEng, countSats] at ih ⊢
    simp [ih, countSat_only .., iteU .., apply_ite Prod.snd, apply_ite Prod.fst]

theorem tearWord_only (s : State) (x : Nat × Word) : Only.freeNvm (tearWord s x) s := by
  simp only [tearWord, Only.freeNvm]
  all_goals simp [takeFree_only .., iteU .., apply_ite Prod.snd, apply_ite Prod.fst]

theorem tearWords_only (s : State) (x0 : List (Nat × Word)) : Only.freeNvm (tearWords s x0) s := by
  induction x0 generalizing s with
  | nil => simp [tearWords, Only.freeNvm]
  | cons y ys ih =>
    simp only [Only.freeNvm, tearWords] at ih ⊢
    simp [ih, tearWord_only .., iteU .., apply_ite Prod.snd, apply_ite Prod.fst]

theorem mirror_only (s : State) (base n : Nat) (eff : FClass) (repeats : Nat) : Only.recr (mirror s base n eff repeats) s :=
    by
  simp only [mirror, Only.recr]
  all_goals simp [addRecord_only .., iteU .., apply_ite Prod.snd, apply_ite Prod.fst]

theorem setSect_only (s : State) (n : Nat) (x : Sect) : Only.start (setSect s n x) s := by
  simp only [setSect, Only.start]
  all_goals simp [iteU .., apply_ite Prod.snd, apply_ite Prod.fst]

theorem writeRun_only (s : State) (n : Nat) (b : Bool) : Only.startEngSw (writeRun s n b) s := by
  simp only [writeRun, Only.startEngSw]
  all_goals ((repeat' split) <;> simp [putVal_only .., setSect_only .., iteU .., apply_ite Prod.snd, apply_ite Prod.fst])

theorem deriveSect_only (s : State) (n : Nat) : Only.start (deriveSect s n) s := by
  simp only [deriveSect, Only.start]
  all_goals first
    | (simp [setSect_only .., iteU .., apply_ite Prod.snd, apply_ite Prod.fst]; done)
    | ((repeat' split) <;> simp [setSect_only .., iteU .., apply_ite Prod.snd, apply_ite Prod.fst])

theorem stopSect_only (s : State) (n reason : Nat) : Only.recrStartEngSw (stopSect s n reason) s := by
  simp only [stopSect, Only.recrStartEngSw]
  all_goals simp [addRecord_only .., setSect_only .., writeRun_only .., iteU .., apply_ite Prod.snd, apply_ite Prod.fst]

theorem faultStopSect_only (s : State) (src n : Nat) : Only.recrStartEngSw (faultStopSect s src n) s := by
  simp only [faultStopSect, Only.recrStartEngSw]
  all_goals simp [setSect_only .., stopSect_only .., iteU .., apply_ite Prod.snd, apply_ite Prod.fst]

theorem faultStopSects_only (s : State) (src : Nat) (x0 : List Nat) : Only.recrStartEngSw (faultStopSects s src x0) s := by
  induction x0 generalizing s src with
  | nil => simp [faultStopSects, Only.recrStartEngSw]
  | cons y ys ih =>
    simp only [Only.recrStartEngSw, faultStopSects] at ih ⊢
    simp [ih, faultStopSect_only .., iteU .., apply_ite Prod.snd, apply_ite Prod.fst]

theorem chipReset_only (s : State) (code : Nat) : Only.settleFreeRstStrapsPwrNvmPrfPltAdmMnsCalCanSynSvc (chipReset s code) s
    := by
  simp only [chipReset, Only.settleFreeRstStrapsPwrNvmPrfPltAdmMnsCalCanSynSvc]
  all_goals simp [tearWords_only .., iteU .., apply_ite Prod.snd, apply_ite Prod.fst]

theorem fatalLatch_only (s : State) (n : Nat) (param : Word) : Only.fltRecrSw (fatalLatch s n param) s := by
  simp only [fatalLatch, Only.fltRecrSw]
  all_goals simp [startFlush_only .., iteU .., apply_ite Prod.snd, apply_ite Prod.fst]

theorem plantResponse_only (s : State) (n : Nat) : Only.fltRecrStartEngSw (plantResponse s n) s := by
  simp only [plantResponse, Only.fltRecrStartEngSw]
  all_goals simp [faultStopSects_only .., iteU .., apply_ite Prod.snd, apply_ite Prod.fst]

theorem lateResponse_only (s : State) (n : Nat) : Only.fltRecrStartEngSw (lateResponse s n) s := by
  simp only [lateResponse, Only.fltRecrStartEngSw]
  all_goals simp [faultStopSects_only .., iteU .., apply_ite Prod.snd, apply_ite Prod.fst]

theorem lateResponses_only (s : State) (x0 : List Nat) : Only.fltRecrStartEngSw (lateResponses s x0) s := by
  induction x0 generalizing s with
  | nil => simp [lateResponses, Only.fltRecrStartEngSw]
  | cons y ys ih =>
    simp only [Only.fltRecrStartEngSw, lateResponses] at ih ⊢
    simp [ih, lateResponse_only .., iteU .., apply_ite Prod.snd, apply_ite Prod.fst]

theorem blockReset_only (s : State) (n : Nat) (param : Word) : Only.spnIsl (blockReset s n param) s := by
  simp only [blockReset, Only.spnIsl]
  all_goals first
    | (simp [iteU .., apply_ite Prod.snd, apply_ite Prod.fst]; done)
    | ((repeat' split) <;> simp [iteU .., apply_ite Prod.snd, apply_ite Prod.fst])

theorem reactTo_only (s : State) (n : Nat) (param : Word) (c : FClass) : Only.raise (reactTo s n param c) s := by
  simp only [reactTo, Only.raise]
  all_goals simp [blockReset_only .., fatalLatch_only .., plantResponse_only .., startFlush_only .., iteU .., apply_ite
    Prod.snd, apply_ite Prod.fst]

theorem raiseNow_only (s : State) (n : Nat) (param : Word) (unit : Nat) : Only.raise (raiseNow s n param unit) s := by
  simp only [raiseNow, Only.raise]
  all_goals simp [mirror_only .., reactTo_only .., iteU .., apply_ite Prod.snd, apply_ite Prod.fst]

theorem injHold_only (s : State) (x : Option (Word × Nat)) : Only.flt (injHold s x) s := by
  simp only [injHold, Only.flt]
  all_goals simp [iteU .., apply_ite Prod.snd, apply_ite Prod.fst]

theorem raise_only (s : State) (n : Nat) (param : Word) (unit : Nat) : Only.raise (raise s n param unit) s := by
  simp only [raise, Only.raise]
  all_goals simp [injHold_only .., raiseNow_only .., iteU .., apply_ite Prod.snd, apply_ite Prod.fst]

theorem latchReset_only (was : Bool) (s : State) : Only.settleFreeRstStrapsPwrNvmPrfPltAdmMnsCalCanSynSvc (latchReset was s) s
    := by
  simp only [latchReset, Only.settleFreeRstStrapsPwrNvmPrfPltAdmMnsCalCanSynSvc]
  all_goals simp [chipReset_only .., iteU .., apply_ite Prod.snd, apply_ite Prod.fst]

theorem raiseU_only (s : State) (n : Nat) (param : Word) : Only.raise (raiseU s n param) s := by
  simp only [raiseU, Only.raise]
  all_goals simp [raise_only .., iteU .., apply_ite Prod.snd, apply_ite Prod.fst]

theorem raiseFatal_only (s : State) (n : Nat) (param : Word) : Only.settleFreeRstStrapsPwrNvmPrfPltAdmMnsCalCanSynSvc
    (raiseFatal s n param) s := by
  simp only [raiseFatal, Only.settleFreeRstStrapsPwrNvmPrfPltAdmMnsCalCanSynSvc]
  all_goals simp [latchReset_only .., raiseU_only .., iteU .., apply_ite Prod.snd, apply_ite Prod.fst]

theorem causeOn_only (s : State) (n : Nat) (param : Word) : Only.raise (causeOn s n param) s := by
  simp only [causeOn, Only.raise]
  all_goals simp [raiseU_only .., iteU .., apply_ite Prod.snd, apply_ite Prod.fst]

theorem tryClear_only (s : State) (n : Nat) : Only.fltRecr (tryClear s n) s := by
  simp only [tryClear, Only.fltRecr]
  all_goals simp [mirror_only .., iteU .., apply_ite Prod.snd, apply_ite Prod.fst]

theorem causeOffNow_only (s : State) (n : Nat) : Only.fltRecr (causeOffNow s n) s := by
  simp only [causeOffNow, Only.fltRecr]
  all_goals simp [tryClear_only .., iteU .., apply_ite Prod.snd, apply_ite Prod.fst]

theorem causeOff_only (s : State) (n : Nat) : Only.fltRecr (causeOff s n) s := by
  simp only [causeOff, Only.fltRecr]
  all_goals simp [causeOffNow_only .., injHold_only .., iteU .., apply_ite Prod.snd, apply_ite Prod.fst]

theorem pulse_only (s : State) (n : Nat) (param : Word) : Only.raise (pulse s n param) s := by
  simp only [pulse, Only.raise]
  all_goals simp [causeOff_only .., raiseU_only .., iteU .., apply_ite Prod.snd, apply_ite Prod.fst]

theorem ackSrc_only (s : State) (n : Nat) : Only.fltRecr (ackSrc s n) s := by
  simp only [ackSrc, Only.fltRecr]
  all_goals simp [mirror_only .., tryClear_only .., iteU .., apply_ite Prod.snd, apply_ite Prod.fst]

theorem ackSrcs_only (s : State) (x0 : List Nat) : Only.fltRecr (ackSrcs s x0) s := by
  induction x0 generalizing s with
  | nil => simp [ackSrcs, Only.fltRecr]
  | cons y ys ih =>
    simp only [Only.fltRecr, ackSrcs] at ih ⊢
    simp [ih, ackSrc_only .., iteU .., apply_ite Prod.snd, apply_ite Prod.fst]

theorem ackFault_only (s : State) (n : Nat) : Only.fltRecr (ackFault s n) s := by
  simp only [ackFault, Only.fltRecr]
  all_goals simp [ackSrc_only .., ackSrcs_only .., iteU .., apply_ite Prod.snd, apply_ite Prod.fst]

theorem setFan_only (s : State) (ch : Nat) (x : FanSt) : Only.fan (setFan s ch x) s := by
  simp only [setFan, Only.fan]
  all_goals simp [iteU .., apply_ite Prod.snd, apply_ite Prod.fst]

theorem setMot_only (s : State) (ch : Nat) (x : MotSt) : Only.mot (setMot s ch x) s := by
  simp only [setMot, Only.mot]
  all_goals simp [iteU .., apply_ite Prod.snd, apply_ite Prod.fst]

theorem setGat_only (s : State) (ch : Nat) (x : GatSt) : Only.gat (setGat s ch x) s := by
  simp only [setGat, Only.gat]
  all_goals simp [iteU .., apply_ite Prod.snd, apply_ite Prod.fst]

theorem setHtd_only (s : State) (ch : Nat) (x : HtdSt) : Only.htd (setHtd s ch x) s := by
  simp only [setHtd, Only.htd]
  all_goals simp [iteU .., apply_ite Prod.snd, apply_ite Prod.fst]

theorem gateTarget_only (s : State) (ch : Nat) (t : Int) : Only.gat (gateTarget s ch t) s := by
  simp only [gateTarget, Only.gat]
  all_goals simp [setGat_only .., iteU .., apply_ite Prod.snd, apply_ite Prod.fst]

theorem gateTake_only (s : State) (ch : Nat) : Only.gat (gateTake s ch) s := by
  simp only [gateTake, Only.gat]
  all_goals ((repeat' split) <;> simp [gateTarget_only .., iteU .., apply_ite Prod.snd, apply_ite Prod.fst])

theorem endStart_only (s : State) (ch : Nat) : Only.stb (endStart s ch) s := by
  simp only [endStart, Only.stb]
  all_goals simp [iteU .., apply_ite Prod.snd, apply_ite Prod.fst]

theorem purgeFrom_only (s : State) (ch : Nat) : Only.mot (purgeFrom s ch) s := by
  simp only [purgeFrom, Only.mot]
  all_goals first
    | (simp [setMot_only .., iteU .., apply_ite Prod.snd, apply_ite Prod.fst]; done)
    | ((repeat' split) <;> simp [setMot_only .., iteU .., apply_ite Prod.snd, apply_ite Prod.fst])

theorem causeDrop_only (s : State) (src : Nat) (left : List Nat) : Only.fltRecr (causeDrop s src left) s := by
  simp only [causeDrop, Only.fltRecr]
  all_goals simp [causeOff_only .., iteU .., apply_ite Prod.snd, apply_ite Prod.fst]

theorem fbAgree_only (s : State) (ch : Nat) : Only.fltRecrMot (fbAgree s ch) s := by
  simp only [fbAgree, Only.fltRecrMot]
  all_goals simp [causeDrop_only .., setMot_only .., iteU .., apply_ite Prod.snd, apply_ite Prod.fst]

theorem motRelease_only (s : State) (ch st : Nat) : Only.fltRecrStbMot (motRelease s ch st) s := by
  simp only [motRelease, Only.fltRecrStbMot]
  all_goals first
    | (simp [endStart_only .., fbAgree_only .., purgeFrom_only .., setMot_only .., iteU .., apply_ite Prod.snd, apply_ite
        Prod.fst]; done)
    | ((repeat' split) <;> simp [endStart_only .., fbAgree_only .., purgeFrom_only .., setMot_only .., iteU .., apply_ite
        Prod.snd, apply_ite Prod.fst])

theorem stoppingAll_only (s : State) (x0 : List Nat) : Only.mot (stoppingAll s x0) s := by
  induction x0 generalizing s with
  | nil => simp [stoppingAll, Only.mot]
  | cons y ys ih =>
    simp only [Only.mot, stoppingAll] at ih ⊢
    simp [ih, setMot_only .., iteU .., apply_ite Prod.snd, apply_ite Prod.fst]

theorem releaseLeaves_only (s : State) (x0 : List Nat) : Only.fltRecrStbMot (releaseLeaves s x0) s := by
  induction x0 generalizing s with
  | nil => simp [releaseLeaves, Only.fltRecrStbMot]
  | cons y ys ih =>
    simp only [Only.fltRecrStbMot, releaseLeaves] at ih ⊢
    simp [ih, motRelease_only .., iteU .., apply_ite Prod.snd, apply_ite Prod.fst]

theorem routeStop_only (s : State) (ch : Nat) : Only.fltRecrStbMot (routeStop s ch) s := by
  simp only [routeStop, Only.fltRecrStbMot]
  all_goals simp [releaseLeaves_only .., stoppingAll_only .., iteU .., apply_ite Prod.snd, apply_ite Prod.fst]

theorem routeStops_only (s : State) (x0 : List Nat) : Only.fltRecrStbMot (routeStops s x0) s := by
  induction x0 generalizing s with
  | nil => simp [routeStops, Only.fltRecrStbMot]
  | cons y ys ih =>
    simp only [Only.fltRecrStbMot, routeStops] at ih ⊢
    first
      | (simp [ih, routeStop_only .., iteU .., apply_ite Prod.snd, apply_ite Prod.fst]; done)
      | ((repeat' split) <;> simp [ih, routeStop_only .., iteU .., apply_ite Prod.snd, apply_ite Prod.fst])

theorem routeHolds_only (s : State) : Only.fltRecrStbMot (routeHolds s) s := by
  simp only [routeHolds, Only.fltRecrStbMot]
  all_goals simp [routeStops_only .., iteU .., apply_ite Prod.snd, apply_ite Prod.fst]

theorem dropReq_only (s : State) (ch : Nat) : Only.fltRecrStb (dropReq s ch) s := by
  simp only [dropReq, Only.fltRecrStb]
  all_goals simp [causeOff_only .., iteU .., apply_ite Prod.snd, apply_ite Prod.fst]

theorem startAsk_only (s : State) (ch : Nat) : Only.stb (startAsk s ch) s := by
  simp only [startAsk, Only.stb]
  all_goals simp [iteU .., apply_ite Prod.snd, apply_ite Prod.fst]

theorem startDrop_only (s : State) (ch : Nat) : Only.fltRecrStb (startDrop s ch) s := by
  simp only [startDrop, Only.fltRecrStb]
  all_goals simp [dropReq_only .., iteU .., apply_ite Prod.snd, apply_ite Prod.fst]

theorem startAsks_only (s : State) (x0 : List MotorCfg) : Only.fltRecrStb (startAsks s x0) s := by
  induction x0 generalizing s with
  | nil => simp [startAsks, Only.fltRecrStb]
  | cons y ys ih =>
    simp only [Only.fltRecrStb, startAsks] at ih ⊢
    simp [ih, startAsk_only .., startDrop_only .., iteU .., apply_ite Prod.snd, apply_ite Prod.fst]

theorem startSettle_only (s : State) : Only.fltRecrStb (startSettle s) s := by
  simp only [startSettle, Only.fltRecrStb]
  all_goals simp [startAsks_only .., iteU .., apply_ite Prod.snd, apply_ite Prod.fst]

theorem clearMot_only (s : State) (ch : Nat) : Only.mot (clearMot s ch) s := by
  simp only [clearMot, Only.mot]
  all_goals simp [setMot_only .., iteU .., apply_ite Prod.snd, apply_ite Prod.fst]

theorem clearMots_only (s : State) (x0 : List Nat) : Only.mot (clearMots s x0) s := by
  induction x0 generalizing s with
  | nil => simp [clearMots, Only.mot]
  | cons y ys ih =>
    simp only [Only.mot, clearMots] at ih ⊢
    simp [ih, clearMot_only .., iteU .., apply_ite Prod.snd, apply_ite Prod.fst]

theorem sectStarts_only (s : State) (n origin : Nat) : Only.recrStartEngSw (sectStarts s n origin) s := by
  simp only [sectStarts, Only.recrStartEngSw]
  all_goals simp [addRecord_only .., setSect_only .., writeRun_only .., iteU .., apply_ite Prod.snd, apply_ite Prod.fst]

theorem startSect_only (s : State) (n origin : Nat) : Only.recrStartEngSwMot ((startSect s n origin).2) s := by
  simp only [startSect, Only.recrStartEngSwMot]
  all_goals simp [clearMots_only .., sectStarts_only .., iteU .., apply_ite Prod.snd, apply_ite Prod.fst]

theorem opStopSect_only (s : State) (n : Nat) : Only.recrStartEngSw (opStopSect s n) s := by
  simp only [opStopSect, Only.recrStartEngSw]
  all_goals simp [stopSect_only .., iteU .., apply_ite Prod.snd, apply_ite Prod.fst]

theorem opStopSects_only (s : State) (x0 : List Nat) : Only.recrStartEngSw (opStopSects s x0) s := by
  induction x0 generalizing s with
  | nil => simp [opStopSects, Only.recrStartEngSw]
  | cons y ys ih =>
    simp only [Only.recrStartEngSw, opStopSects] at ih ⊢
    simp [ih, opStopSect_only .., iteU .., apply_ite Prod.snd, apply_ite Prod.fst]

theorem stopCommand_only (s : State) (n : Nat) : Only.recrStartEngSw (stopCommand s n) s := by
  simp only [stopCommand, Only.recrStartEngSw]
  all_goals simp [opStopSect_only .., opStopSects_only .., iteU .., apply_ite Prod.snd, apply_ite Prod.fst]

theorem fireRule_only (s : State) (n : Nat) : Only.recrStartEngSw (fireRule s n) s := by
  simp only [fireRule, Only.recrStartEngSw]
  all_goals simp [sectStarts_only .., iteU .., apply_ite Prod.snd, apply_ite Prod.fst]

theorem condRule_only (s : State) (c : SectCfg) : Only.recrStartEngSw (condRule s c) s := by
  simp only [condRule, Only.recrStartEngSw]
  all_goals simp [fireRule_only .., setSect_only .., iteU .., apply_ite Prod.snd, apply_ite Prod.fst]

theorem sectEvals_only (s : State) (x0 : List SectCfg) : Only.recrStartEngSw (sectEvals s x0) s := by
  induction x0 generalizing s with
  | nil => simp [sectEvals, Only.recrStartEngSw]
  | cons y ys ih =>
    simp only [Only.recrStartEngSw, sectEvals] at ih ⊢
    simp [ih, condRule_only .., deriveSect_only .., iteU .., apply_ite Prod.snd, apply_ite Prod.fst]

theorem sectSettle_only (s : State) : Only.recrStartEngSw (sectSettle s) s := by
  simp only [sectSettle, Only.recrStartEngSw]
  all_goals simp [sectEvals_only .., iteU .., apply_ite Prod.snd, apply_ite Prod.fst]

theorem setList_only (s : State) (l : Nat) (x : LSeq) : Only.fe (setList s l x) s := by
  simp only [setList, Only.fe]
  all_goals simp [iteU .., apply_ite Prod.snd, apply_ite Prod.fst]

theorem blankEntry_only (s : State) (c : ScanCfg) : Only.engFe (blankEntry s c) s := by
  simp only [blankEntry, Only.engFe]
  all_goals simp [setQuality_only .., iteU .., apply_ite Prod.snd, apply_ite Prod.fst]

theorem blankEntries_only (s : State) (x0 : List ScanCfg) : Only.engFe (blankEntries s x0) s := by
  induction x0 generalizing s with
  | nil => simp [blankEntries, Only.engFe]
  | cons y ys ih =>
    simp only [Only.engFe, blankEntries] at ih ⊢
    simp [ih, blankEntry_only .., iteU .., apply_ite Prod.snd, apply_ite Prod.fst]

theorem abortList_only (s : State) (l : Nat) : Only.fe (abortList s l) s := by
  simp only [abortList, Only.fe]
  all_goals simp [setList_only .., iteU .., apply_ite Prod.snd, apply_ite Prod.fst]

theorem abortLists_only (s : State) (x0 : List Nat) : Only.fe (abortLists s x0) s := by
  induction x0 generalizing s with
  | nil => simp [abortLists, Only.fe]
  | cons y ys ih =>
    simp only [Only.fe, abortLists] at ih ⊢
    simp [ih, abortList_only .., iteU .., apply_ite Prod.snd, apply_ite Prod.fst]

theorem trigAssert_only (s : State) (k : Nat) : Only.engFe (trigAssert s k) s := by
  simp only [trigAssert, Only.engFe]
  all_goals simp [abortLists_only .., blankEntries_only .., iteU .., apply_ite Prod.snd, apply_ite Prod.fst]

theorem trigSettle_only (s : State) : Only.engFe (trigSettle s) s := by
  simp only [trigSettle, Only.engFe]
  all_goals simp [trigAssert_only .., iteU .., apply_ite Prod.snd, apply_ite Prod.fst]

theorem setSw_only (s : State) (n : Nat) (x : SwSt) : Only.sw (setSw s n x) s := by
  simp only [setSw, Only.sw]
  all_goals simp [iteU .., apply_ite Prod.snd, apply_ite Prod.fst]

theorem swEval_only (s : State) (c : SwCfg) : Only.sw (swEval s c) s := by
  simp only [swEval, Only.sw]
  all_goals simp [setSw_only .., iteU .., apply_ite Prod.snd, apply_ite Prod.fst]

theorem swEvals_only (s : State) (x0 : List SwCfg) : Only.sw (swEvals s x0) s := by
  induction x0 generalizing s with
  | nil => simp [swEvals, Only.sw]
  | cons y ys ih =>
    simp only [Only.sw, swEvals] at ih ⊢
    simp [ih, swEval_only .., iteU .., apply_ite Prod.snd, apply_ite Prod.fst]

theorem swSettle_only (s : State) : Only.sw (swSettle s) s := by
  simp only [swSettle, Only.sw]
  all_goals simp [swEvals_only .., iteU .., apply_ite Prod.snd, apply_ite Prod.fst]

theorem plenEval_only (s : State) (c : HeatCfg) : Only.raiseHtd (plenEval s c) s := by
  simp only [plenEval, Only.raiseHtd]
  all_goals simp [raiseU_only .., setHtd_only .., iteU .., apply_ite Prod.snd, apply_ite Prod.fst]

theorem plenEvals_only (s : State) (x0 : List HeatCfg) : Only.raiseHtd (plenEvals s x0) s := by
  induction x0 generalizing s with
  | nil => simp [plenEvals, Only.raiseHtd]
  | cons y ys ih =>
    simp only [Only.raiseHtd, plenEvals] at ih ⊢
    simp [ih, plenEval_only .., iteU .., apply_ite Prod.snd, apply_ite Prod.fst]

theorem plenSettle_only (s : State) : Only.raiseHtd (plenSettle s) s := by
  simp only [plenSettle, Only.raiseHtd]
  all_goals simp [causeOff_only .., plenEvals_only .., iteU .., apply_ite Prod.snd, apply_ite Prod.fst]

theorem motTrip_only (s : State) (ch cause src : Nat) (param : Word) : Only.raiseStbMot (motTrip s ch cause src param) s := by
  simp only [motTrip, Only.raiseStbMot]
  all_goals simp [motRelease_only .., raiseU_only .., setMot_only .., iteU .., apply_ite Prod.snd, apply_ite Prod.fst]

theorem motTripRun_only (s : State) (ch cause src : Nat) : Only.raiseStbMot (motTripRun s ch cause src) s := by
  simp only [motTripRun, Only.raiseStbMot]
  all_goals simp [causeOff_only .., motTrip_only .., iteU .., apply_ite Prod.snd, apply_ite Prod.fst]

theorem fullEval_only (s : State) (c : MotorCfg) : Only.raiseMot (fullEval s c) s := by
  simp only [fullEval, Only.raiseMot]
  all_goals simp [raiseU_only .., setMot_only .., iteU .., apply_ite Prod.snd, apply_ite Prod.fst]

theorem motorProved_only (s : State) (ch : Nat) : Only.fltRecrMot (motorProved s ch) s := by
  simp only [motorProved, Only.fltRecrMot]
  all_goals simp [causeDrop_only .., setMot_only .., iteU .., apply_ite Prod.snd, apply_ite Prod.fst]

theorem motEval_only (s : State) (c : MotorCfg) : Only.raiseStbMot (motEval s c) s := by
  simp only [motEval, Only.raiseStbMot]
  all_goals simp [fullEval_only .., motRelease_only .., motTripRun_only .., motorProved_only .., setMot_only .., iteU ..,
    apply_ite Prod.snd, apply_ite Prod.fst]

theorem motEvals_only (s : State) (x0 : List MotorCfg) : Only.raiseStbMot (motEvals s x0) s := by
  induction x0 generalizing s with
  | nil => simp [motEvals, Only.raiseStbMot]
  | cons y ys ih =>
    simp only [Only.raiseStbMot, motEvals] at ih ⊢
    simp [ih, motEval_only .., iteU .., apply_ite Prod.snd, apply_ite Prod.fst]

theorem permEval_only (s : State) (c : MotorCfg) : Only.fltRecrStbMot (permEval s c) s := by
  simp only [permEval, Only.fltRecrStbMot]
  all_goals simp [motRelease_only .., iteU .., apply_ite Prod.snd, apply_ite Prod.fst]

theorem permEvals_only (s : State) (x0 : List MotorCfg) : Only.fltRecrStbMot (permEvals s x0) s := by
  induction x0 generalizing s with
  | nil => simp [permEvals, Only.fltRecrStbMot]
  | cons y ys ih =>
    simp only [Only.fltRecrStbMot, permEvals] at ih ⊢
    simp [ih, permEval_only .., iteU .., apply_ite Prod.snd, apply_ite Prod.fst]

theorem permLoop_only (k : Nat) (s : State) : Only.fltRecrStbMot (permLoop k s) s := by
  induction k generalizing s with
  | zero => simp [permLoop, Only.fltRecrStbMot]
  | succ k ih =>
    simp only [permLoop, Only.fltRecrStbMot] at ih ⊢
    simp [ih, permEvals_only ..]

theorem motSettle_only (s : State) : Only.raiseStbMot (motSettle s) s := by
  simp only [motSettle, Only.raiseStbMot]
  all_goals simp [causeOff_only .., motEvals_only .., permLoop_only .., routeHolds_only .., iteU .., apply_ite Prod.snd,
    apply_ite Prod.fst]

theorem gateEval_only (s : State) (c : GateCfg) : Only.fltRecrGat (gateEval s c) s := by
  simp only [gateEval, Only.fltRecrGat]
  all_goals first
    | (simp [causeDrop_only .., gateTake_only .., setGat_only .., iteU .., apply_ite Prod.snd, apply_ite Prod.fst]; done)
    | ((repeat' split) <;> simp [causeDrop_only .., gateTake_only .., setGat_only .., iteU .., apply_ite Prod.snd, apply_ite
        Prod.fst])

theorem gateEvals_only (s : State) (x0 : List GateCfg) : Only.fltRecrGat (gateEvals s x0) s := by
  induction x0 generalizing s with
  | nil => simp [gateEvals, Only.fltRecrGat]
  | cons y ys ih =>
    simp only [Only.fltRecrGat, gateEvals] at ih ⊢
    simp [ih, gateEval_only .., iteU .., apply_ite Prod.snd, apply_ite Prod.fst]

theorem gateSettle_only (s : State) : Only.fltRecrGat (gateSettle s) s := by
  simp only [gateSettle, Only.fltRecrGat]
  all_goals simp [gateEvals_only .., iteU .., apply_ite Prod.snd, apply_ite Prod.fst]

theorem heatTrack_only (s : State) (c : HeatCfg) : Only.htd (heatTrack s c) s := by
  simp only [heatTrack, Only.htd]
  all_goals simp [setHtd_only .., iteU .., apply_ite Prod.snd, apply_ite Prod.fst]

theorem heatTracks_only (s : State) (x0 : List HeatCfg) : Only.htd (heatTracks s x0) s := by
  induction x0 generalizing s with
  | nil => simp [heatTracks, Only.htd]
  | cons y ys ih =>
    simp only [Only.htd, heatTracks] at ih ⊢
    simp [ih, heatTrack_only .., iteU .., apply_ite Prod.snd, apply_ite Prod.fst]

theorem fanPinEval_only (s : State) (ch : Nat) : Only.fan (fanPinEval s ch) s := by
  simp only [fanPinEval, Only.fan]
  all_goals simp [setFan_only .., iteU .., apply_ite Prod.snd, apply_ite Prod.fst]

theorem heatPinEval_only (s : State) (ch : Nat) : Only.htd (heatPinEval s ch) s := by
  simp only [heatPinEval, Only.htd]
  all_goals simp [setHtd_only .., iteU .., apply_ite Prod.snd, apply_ite Prod.fst]

theorem fanPins_only (s : State) (x0 : List Nat) : Only.fan (fanPins s x0) s := by
  induction x0 generalizing s with
  | nil => simp [fanPins, Only.fan]
  | cons y ys ih =>
    simp only [Only.fan, fanPins] at ih ⊢
    simp [ih, fanPinEval_only .., iteU .., apply_ite Prod.snd, apply_ite Prod.fst]

theorem heatPins_only (s : State) (x0 : List Nat) : Only.htd (heatPins s x0) s := by
  induction x0 generalizing s with
  | nil => simp [heatPins, Only.htd]
  | cons y ys ih =>
    simp only [Only.htd, heatPins] at ih ⊢
    simp [ih, heatPinEval_only .., iteU .., apply_ite Prod.snd, apply_ite Prod.fst]

theorem pinSettle_only (s : State) : Only.fanHtd (pinSettle s) s := by
  simp only [pinSettle, Only.fanHtd]
  all_goals simp [fanPins_only .., heatPins_only .., iteU .., apply_ite Prod.snd, apply_ite Prod.fst]

theorem setPair_only (s : State) (k : Nat) (x : PairSt) : Only.sw (setPair s k x) s := by
  simp only [setPair, Only.sw]
  all_goals simp [iteU .., apply_ite Prod.snd, apply_ite Prod.fst]

theorem pairTimer_only (s : State) (k : Nat) (p : PairCfg) : Only.sw (pairTimer s k p) s := by
  simp only [pairTimer, Only.sw]
  all_goals simp [setPair_only .., iteU .., apply_ite Prod.snd, apply_ite Prod.fst]

theorem pairTimers_only (s : State) (x0 : Nat) (x1 : List PairCfg) : Only.sw (pairTimers s x0 x1) s := by
  induction x1 generalizing s x0 with
  | nil => simp [pairTimers, Only.sw]
  | cons y ys ih =>
    simp only [Only.sw, pairTimers] at ih ⊢
    simp [ih, pairTimer_only .., iteU .., apply_ite Prod.snd, apply_ite Prod.fst]

theorem settle_only (s : State) : Only.settle (settle s) s := by
  simp only [settle, Only.settle]
  all_goals simp [gateSettle_only .., heatTracks_only .., motSettle_only .., pairTimers_only .., pinSettle_only ..,
    plenSettle_only .., sectSettle_only .., startSettle_only .., swSettle_only .., trigSettle_only .., iteU .., apply_ite
    Prod.snd, apply_ite Prod.fst]

theorem readHoldup_only (s : State) (code : Nat) : Only.pwr (readHoldup s code) s := by
  simp only [readHoldup, Only.pwr]
  all_goals simp [iteU .., apply_ite Prod.snd, apply_ite Prod.fst]

theorem readPin_only (s : State) : Only.pwr (readPin s) s := by
  simp only [readPin, Only.pwr]
  all_goals simp [readHoldup_only .., iteU .., apply_ite Prod.snd, apply_ite Prod.fst]

theorem senseHoldup_only (s : State) (code : Nat) : Only.pwr (senseHoldup s code) s := by
  simp only [senseHoldup, Only.pwr]
  all_goals simp [readPin_only .., iteU .., apply_ite Prod.snd, apply_ite Prod.fst]

theorem energyRefused_only (s : State) (t : Store) : Only.pwrRecr (energyRefused s t) s := by
  simp only [energyRefused, Only.pwrRecr]
  all_goals simp [addRecord_only .., iteU .., apply_ite Prod.snd, apply_ite Prod.fst]

theorem queuePlace_only (s : State) (t : Store) : Only.pwr (queuePlace s t) s := by
  simp only [queuePlace, Only.pwr]
  all_goals simp [iteU .., apply_ite Prod.snd, apply_ite Prod.fst]

theorem enqueue_only (s : State) (b : Nat) (t : Store) : Only.pwr (enqueue s b t) s := by
  simp only [enqueue, Only.pwr]
  all_goals simp [queuePlace_only .., iteU .., apply_ite Prod.snd, apply_ite Prod.fst]

theorem refillQueue_only (s : State) : Only.pwr (refillQueue s) s := by
  simp only [refillQueue, Only.pwr]
  all_goals simp [iteU .., apply_ite Prod.snd, apply_ite Prod.fst]

theorem setArb_only (s : State) (n : Nat) (a : Arb) : Only.spn (setArb s n a) s := by
  simp only [setArb, Only.spn]
  all_goals simp [iteU .., apply_ite Prod.snd, apply_ite Prod.fst]

theorem modArb_only (s : State) (n : Nat) (f : Arb → Arb) : Only.spn (modArb s n f) s := by
  simp only [modArb, Only.spn]
  all_goals simp [setArb_only .., iteU .., apply_ite Prod.snd, apply_ite Prod.fst]

theorem bankRequest_only (s : State) (b : Nat) : Only.spn (bankRequest s b) s := by
  simp only [bankRequest, Only.spn]
  all_goals simp [modArb_only .., iteU .., apply_ite Prod.snd, apply_ite Prod.fst]

theorem mapPlace_only (s : State) (t : Store) : Only.prf ((mapPlace s t).1) s := by
  simp only [mapPlace, Only.prf]
  all_goals ((repeat' split) <;> simp [iteU .., apply_ite Prod.snd, apply_ite Prod.fst])

theorem refuseTurn_only (s : State) (b : Nat) (t : Store) : Only.pwrNvmRecr (refuseTurn s b t) s := by
  simp only [refuseTurn, Only.pwrNvmRecr]
  all_goals simp [energyRefused_only .., enqueue_only .., iteU .., apply_ite Prod.snd, apply_ite Prod.fst]

theorem startTurn_only (s : State) (b : Nat) (t : Store) (rest : List Store) : Only.pwrNvmRecrPrf (startTurn s b t rest) s :=
    by
  simp only [startTurn, Only.pwrNvmRecrPrf]
  all_goals simp [mapPlace_only .., readPin_only .., refillQueue_only .., refuseTurn_only .., iteU .., apply_ite Prod.snd,
    apply_ite Prod.fst]

theorem bankDrop_only (s : State) (b : Nat) : Only.spn (bankDrop s b) s := by
  simp only [bankDrop, Only.spn]
  all_goals simp [modArb_only .., iteU .., apply_ite Prod.snd, apply_ite Prod.fst]

theorem bankServe_only (b k : Nat) (s : State) : Only.pwrNvmRecrPrfSpn (bankServe b k s) s := by
  induction k generalizing s with
  | zero => simp [bankServe, Only.pwrNvmRecrPrfSpn]
  | succ k ih =>
    simp only [Only.pwrNvmRecrPrfSpn, bankServe] at ih ⊢
    (repeat' split) <;> simp [ih, startTurn_only .., bankRequest_only .., modArb_only .., bankDrop_only ..]

theorem bankAsk_only (s : State) (b : Nat) : Only.pwrNvmRecrPrfSpn (bankAsk s b) s := by
  simp only [bankAsk, Only.pwrNvmRecrPrfSpn]
  all_goals simp [bankRequest_only .., bankServe_only .., iteU .., apply_ite Prod.snd, apply_ite Prod.fst]

theorem dropHand_only (s : State) (b : Nat) : Only.nvm (dropHand s b) s := by
  simp only [dropHand, Only.nvm]
  all_goals simp [iteU .., apply_ite Prod.snd, apply_ite Prod.fst]

theorem bankRelease_only (s : State) (b : Nat) : Only.pwrNvmRecrPrfSpn (bankRelease s b) s := by
  simp only [bankRelease, Only.pwrNvmRecrPrfSpn]
  all_goals simp [bankAsk_only .., modArb_only .., iteU .., apply_ite Prod.snd, apply_ite Prod.fst]

theorem arbMoved_only (s : State) (n : Nat) : Only.pwrNvmRecrPrfSpn (arbMoved s n) s := by
  simp only [arbMoved, Only.pwrNvmRecrPrfSpn]
  all_goals simp [bankAsk_only .., iteU .., apply_ite Prod.snd, apply_ite Prod.fst]

theorem startStore_only (s : State) (t : Store) : Only.pwrNvmRecrPrfSpn (startStore s t) s := by
  simp only [startStore, Only.pwrNvmRecrPrfSpn]
  all_goals simp [bankAsk_only .., iteU .., apply_ite Prod.snd, apply_ite Prod.fst]

theorem requestStore_only (s : State) (t : Store) : Only.pwrNvmRecrPrfSpn (requestStore s t) s := by
  simp only [requestStore, Only.pwrNvmRecrPrfSpn]
  all_goals ((repeat' split) <;> simp [startStore_only .., iteU .., apply_ite Prod.snd, apply_ite Prod.fst])

theorem storeWord_only (s : State) (o : Owner) (l : Nat) (w : Word) : Only.pwrNvmRecrPrfSpn (storeWord s o l w) s := by
  simp only [storeWord, Only.pwrNvmRecrPrfSpn]
  all_goals simp [requestStore_only .., iteU .., apply_ite Prod.snd, apply_ite Prod.fst]

theorem storeWords_only (s : State) (o : Owner) (x0 : List (Nat × Word)) : Only.pwrNvmRecrPrfSpn (storeWords s o x0) s := by
  induction x0 generalizing s o with
  | nil => simp [storeWords, Only.pwrNvmRecrPrfSpn]
  | cons y ys ih =>
    simp only [Only.pwrNvmRecrPrfSpn, storeWords] at ih ⊢
    simp [ih, storeWord_only .., iteU .., apply_ite Prod.snd, apply_ite Prod.fst]

theorem requestErase_only (s : State) (bank row : Nat) (o : Owner) : Only.pwrNvmRecrPrfSpn (requestErase s bank row o) s := by
  simp only [requestErase, Only.pwrNvmRecrPrfSpn]
  all_goals simp [requestStore_only .., iteU .., apply_ite Prod.snd, apply_ite Prod.fst]

theorem nextErase_only (s : State) (bank : Nat) : Only.pwrNvmRecrPrfSpn (nextErase s bank) s := by
  simp only [nextErase, Only.pwrNvmRecrPrfSpn]
  all_goals first
    | (simp [requestErase_only .., iteU .., apply_ite Prod.snd, apply_ite Prod.fst]; done)
    | ((repeat' split) <;> simp [requestErase_only .., iteU .., apply_ite Prod.snd, apply_ite Prod.fst])

theorem wantRetire_only (s : State) (bank row : Nat) : Only.raiseNvm (wantRetire s bank row) s := by
  simp only [wantRetire, Only.raiseNvm]
  all_goals simp [raiseU_only .., iteU .., apply_ite Prod.snd, apply_ite Prod.fst]

theorem checkWear_only (s : State) (bank row : Nat) : Only.raiseNvm (checkWear s bank row) s := by
  simp only [checkWear, Only.raiseNvm]
  all_goals simp [pulse_only .., wantRetire_only .., iteU .., apply_ite Prod.snd, apply_ite Prod.fst]

theorem uncorrFound_only (s : State) (l : Nat) : Only.raiseNvm (uncorrFound s l) s := by
  simp only [uncorrFound, Only.raiseNvm]
  all_goals simp [pulse_only .., wantRetire_only .., iteU .., apply_ite Prod.snd, apply_ite Prod.fst]

theorem correctedFound_only (s : State) (l : Nat) : Only.nvm (correctedFound s l) s := by
  simp only [correctedFound, Only.nvm]
  all_goals simp [iteU .., apply_ite Prod.snd, apply_ite Prod.fst]

theorem wordFound_only (s : State) (l : Nat) : Only.raiseNvm (wordFound s l) s := by
  simp only [wordFound, Only.raiseNvm]
  all_goals ((repeat' split) <;> simp [correctedFound_only .., uncorrFound_only .., iteU .., apply_ite Prod.snd, apply_ite
    Prod.fst])

theorem wordsFound_only (s : State) (x0 : List Nat) : Only.raiseNvm (wordsFound s x0) s := by
  induction x0 generalizing s with
  | nil => simp [wordsFound, Only.raiseNvm]
  | cons y ys ih =>
    simp only [Only.raiseNvm, wordsFound] at ih ⊢
    simp [ih, wordFound_only .., iteU .., apply_ite Prod.snd, apply_ite Prod.fst]

theorem setIsl_only (s : State) (i : Nat) (x : IslSt) : Only.isl (setIsl s i x) s := by
  simp only [setIsl, Only.isl]
  all_goals simp [iteU .., apply_ite Prod.snd, apply_ite Prod.fst]

theorem islOverflow_only (s : State) (i q : Nat) : Only.raise (islOverflow s i q) s := by
  simp only [islOverflow, Only.raise]
  all_goals simp [pulse_only .., setIsl_only .., iteU .., apply_ite Prod.snd, apply_ite Prod.fst]

theorem islCause_only (s : State) : Only.fltRecr (islCause s) s := by
  simp only [islCause, Only.fltRecr]
  all_goals simp [causeOff_only .., iteU .., apply_ite Prod.snd, apply_ite Prod.fst]

theorem mapStoreAs_only (s : State) (o : Owner) (e : Word) : Only.pwrNvmRecrPrfSpn (mapStoreAs s o e) s := by
  simp only [mapStoreAs, Only.pwrNvmRecrPrfSpn]
  all_goals simp [requestStore_only .., iteU .., apply_ite Prod.snd, apply_ite Prod.fst]

theorem mapStore_only (s : State) (e : Word) : Only.pwrNvmRecrPrfSpn (mapStore s e) s := by
  simp only [mapStore, Only.pwrNvmRecrPrfSpn]
  all_goals simp [mapStoreAs_only .., iteU .., apply_ite Prod.snd, apply_ite Prod.fst]

theorem mapLates_only (s : State) (x0 : List Word) : Only.pwrNvmRecrPrfSpn (mapLates s x0) s := by
  induction x0 generalizing s with
  | nil => simp [mapLates, Only.pwrNvmRecrPrfSpn]
  | cons y ys ih =>
    simp only [Only.pwrNvmRecrPrfSpn, mapLates] at ih ⊢
    simp [ih, mapStoreAs_only .., iteU .., apply_ite Prod.snd, apply_ite Prod.fst]

theorem newDefect_only (s : State) (e : Word) : Only.raisePwrNvmPrf (newDefect s e) s := by
  simp only [newDefect, Only.raisePwrNvmPrf]
  all_goals simp [mapStore_only .., pulse_only .., iteU .., apply_ite Prod.snd, apply_ite Prod.fst]

theorem rerunDue_only (s : State) : Only.adm (rerunDue s) s := by
  simp only [rerunDue, Only.adm]
  all_goals simp [iteU .., apply_ite Prod.snd, apply_ite Prod.fst]

theorem publishSpeed_only (s : State) (t : Nat × Nat × Nat) : Only.freeRecrEngSwFan (publishSpeed s t) s := by
  simp only [publishSpeed, Only.freeRecrEngSwFan]
  all_goals first
    | (simp [countSats_only .., putVal_only .., setFan_only .., takeFree_only .., iteU .., apply_ite Prod.snd, apply_ite
        Prod.fst]; done)
    | ((repeat' split) <;> simp [countSats_only .., putVal_only .., setFan_only .., takeFree_only .., iteU .., apply_ite
        Prod.snd, apply_ite Prod.fst])

theorem publishSpeeds_only (s : State) (x0 : List (Nat × Nat × Nat)) : Only.freeRecrEngSwFan (publishSpeeds s x0) s := by
  induction x0 generalizing s with
  | nil => simp [publishSpeeds, Only.freeRecrEngSwFan]
  | cons y ys ih =>
    simp only [Only.freeRecrEngSwFan, publishSpeeds] at ih ⊢
    simp [ih, publishSpeed_only .., iteU .., apply_ite Prod.snd, apply_ite Prod.fst]

theorem fanLoops_only (s : State) (x0 : List FanCfg) : Only.recrEngFan (fanLoops s x0) s := by
  induction x0 generalizing s with
  | nil => simp [fanLoops, Only.recrEngFan]
  | cons y ys ih =>
    simp only [Only.recrEngFan, fanLoops] at ih ⊢
    simp [ih, countSats_only .., setFan_only .., iteU .., apply_ite Prod.snd, apply_ite Prod.fst]

theorem stallEval_only (s : State) (c : FanCfg) : Only.raiseFan (stallEval s c) s := by
  simp only [stallEval, Only.raiseFan]
  all_goals simp [raiseU_only .., setFan_only .., iteU .., apply_ite Prod.snd, apply_ite Prod.fst]

theorem stallEvals_only (s : State) (x0 : List FanCfg) : Only.raiseFan (stallEvals s x0) s := by
  induction x0 generalizing s with
  | nil => simp [stallEvals, Only.raiseFan]
  | cons y ys ih =>
    simp only [Only.raiseFan, stallEvals] at ih ⊢
    simp [ih, stallEval_only .., iteU .., apply_ite Prod.snd, apply_ite Prod.fst]

theorem lossEval_only (s : State) (d : Nat) : Only.fan (lossEval s d) s := by
  simp only [lossEval, Only.fan]
  all_goals simp [iteU .., apply_ite Prod.snd, apply_ite Prod.fst]

theorem lossEvals_only (s : State) (x0 : List Nat) : Only.fan (lossEvals s x0) s := by
  induction x0 generalizing s with
  | nil => simp [lossEvals, Only.fan]
  | cons y ys ih =>
    simp only [Only.fan, lossEvals] at ih ⊢
    simp [ih, lossEval_only .., iteU .., apply_ite Prod.snd, apply_ite Prod.fst]

theorem fogStops_only (s : State) (x0 : List Nat) : Only.recrStartEngSw (fogStops s x0) s := by
  induction x0 generalizing s with
  | nil => simp [fogStops, Only.recrStartEngSw]
  | cons y ys ih =>
    simp only [Only.recrStartEngSw, fogStops] at ih ⊢
    simp [ih, stopSect_only .., iteU .., apply_ite Prod.snd, apply_ite Prod.fst]

theorem fogEnd_only (s : State) (port : Word) : Only.fltRecrFan (fogEnd s port) s := by
  simp only [fogEnd, Only.fltRecrFan]
  all_goals simp [addRecord_only .., causeOff_only .., iteU .., apply_ite Prod.snd, apply_ite Prod.fst]

theorem hostBeat_only (s : State) : Only.fan (hostBeat s) s := by
  simp only [hostBeat, Only.fan]
  all_goals first
    | (simp [iteU .., apply_ite Prod.snd, apply_ite Prod.fst]; done)
    | ((repeat' split) <;> simp [iteU .., apply_ite Prod.snd, apply_ite Prod.fst])

theorem calSetApply_only (s : State) (w0 w1 : Word) : Only.cal (calSetApply s w0 w1) s := by
  simp only [calSetApply, Only.cal]
  all_goals simp [iteU .., apply_ite Prod.snd, apply_ite Prod.fst]

theorem calCommit_only (s : State) (w0 w1 : Word) : Only.fltRecrCal ((calCommit s w0 w1).2) s := by
  simp only [calCommit, Only.fltRecrCal]
  all_goals simp [addRecord_only .., calSetApply_only .., causeOff_only .., iteU .., apply_ite Prod.snd, apply_ite Prod.fst]

theorem calLose_only (s : State) (why : Nat) : Only.raiseCal (calLose s why) s := by
  simp only [calLose, Only.raiseCal]
  all_goals simp [causeOn_only .., iteU .., apply_ite Prod.snd, apply_ite Prod.fst]

theorem calAtStart_only (s : State) : Only.raise (calAtStart s) s := by
  simp only [calAtStart, Only.raise]
  all_goals simp [causeOn_only .., iteU .., apply_ite Prod.snd, apply_ite Prod.fst]

theorem feedback_only (s : State) (x : Nat × Bool) : Only.fltRecrMot (feedback s x) s := by
  simp only [feedback, Only.fltRecrMot]
  all_goals simp [fbAgree_only .., setMot_only .., iteU .., apply_ite Prod.snd, apply_ite Prod.fst]

theorem feedbacks_only (s : State) (x0 : List (Nat × Bool)) : Only.fltRecrMot (feedbacks s x0) s := by
  induction x0 generalizing s with
  | nil => simp [feedbacks, Only.fltRecrMot]
  | cons y ys ih =>
    simp only [Only.fltRecrMot, feedbacks] at ih ⊢
    simp [ih, feedback_only .., iteU .., apply_ite Prod.snd, apply_ite Prod.fst]

theorem motionRate_only (s : State) (edges : List (Nat × Nat × Nat)) (c : MotorCfg) : Only.mot (motionRate s edges c) s := by
  simp only [motionRate, Only.mot]
  all_goals simp [setMot_only .., iteU .., apply_ite Prod.snd, apply_ite Prod.fst]

theorem motionRates_only (s : State) (edges : List (Nat × Nat × Nat)) (x0 : List MotorCfg) : Only.mot (motionRates s edges x0)
    s := by
  induction x0 generalizing s edges with
  | nil => simp [motionRates, Only.mot]
  | cons y ys ih =>
    simp only [Only.mot, motionRates] at ih ⊢
    simp [ih, motionRate_only .., iteU .., apply_ite Prod.snd, apply_ite Prod.fst]

end Sys2Proof.Machine
end

