-- ==== Sys2Proof/Laws/FramesB.lean ====
section
/-! SUPPORT. Frames of the shared operations, part 2 of 4: for each operation the units that it alone may change, in the order of the
Machine files. A later proof cites `<operation>_only` and never unfolds the operation. -/

set_option linter.unusedSimpArgs false
set_option linter.unusedVariables false
set_option maxRecDepth 8000

namespace Sys2Proof.Machine

open Sys2Proof

theorem plugEval_only (s : State) (c : MotorCfg) : Only.raiseStbMot (plugEval s c) s := by
  simp only [plugEval, Only.raiseStbMot]
  all_goals simp [motTripRun_only .., setMot_only .., iteU .., apply_ite Prod.snd, apply_ite Prod.fst]

theorem motionEval_only (s : State) (c : MotorCfg) : Only.raiseStbMot (motionEval s c) s := by
  simp only [motionEval, Only.raiseStbMot]
  all_goals simp [motorProved_only .., plugEval_only .., iteU .., apply_ite Prod.snd, apply_ite Prod.fst]

theorem motionEvals_only (s : State) (x0 : List MotorCfg) : Only.raiseStbMot (motionEvals s x0) s := by
  induction x0 generalizing s with
  | nil => simp [motionEvals, Only.raiseStbMot]
  | cons y ys ih =>
    simp only [Only.raiseStbMot, motionEvals] at ih ⊢
    simp [ih, motionEval_only .., iteU .., apply_ite Prod.snd, apply_ite Prod.fst]

theorem fbFault_only (s : State) (ch : Nat) : Only.mot (fbFault s ch) s := by
  simp only [fbFault, Only.mot]
  all_goals simp [iteU .., apply_ite Prod.snd, apply_ite Prod.fst]

theorem gateFail_only (s : State) (ch code : Nat) : Only.gat (gateFail s ch code) s := by
  simp only [gateFail, Only.gat]
  all_goals simp [setGat_only .., iteU .., apply_ite Prod.snd, apply_ite Prod.fst]

theorem permitGone_only (s : State) : Only.fltRecr (permitGone s) s := by
  simp only [permitGone, Only.fltRecr]
  all_goals simp [causeOff_only .., iteU .., apply_ite Prod.snd, apply_ite Prod.fst]

theorem setPermit_only (s : State) (ch : Nat) (p : Bool) : Only.fltRecrHtd (setPermit s ch p) s := by
  simp only [setPermit, Only.fltRecrHtd]
  all_goals simp [permitGone_only .., setHtd_only .., iteU .., apply_ite Prod.snd, apply_ite Prod.fst]

theorem svcSend_only (s : State) (r : Reply) : Only.svc (svcSend s r) s := by
  simp only [svcSend, Only.svc]
  all_goals simp [iteU .., apply_ite Prod.snd, apply_ite Prod.fst]

theorem svcReply_only (s : State) (seq cmd : Nat) (bytes : List Byte) : Only.svc (svcReply s seq cmd bytes) s := by
  simp only [svcReply, Only.svc]
  all_goals simp [svcSend_only .., iteU .., apply_ite Prod.snd, apply_ite Prod.fst]

theorem pltAbandon_only (s : State) (fail : Nat) : Only.plt (pltAbandon s fail) s := by
  simp only [pltAbandon, Only.plt]
  all_goals simp [iteU .., apply_ite Prod.snd, apply_ite Prod.fst]

theorem pltAnswer_only (s : State) (st : Nat) : Only.pltSvc (pltAnswer s st) s := by
  simp only [pltAnswer, Only.pltSvc]
  all_goals ((repeat' split) <;> simp [svcReply_only .., iteU .., apply_ite Prod.snd, apply_ite Prod.fst])

theorem imgAbandon_only (s : State) (cut : Bool) : Only.svc (imgAbandon s cut) s := by
  simp only [imgAbandon, Only.svc]
  all_goals simp [iteU .., apply_ite Prod.snd, apply_ite Prod.fst]

theorem imgAnswer_only (s : State) (st : Nat) : Only.svc (imgAnswer s st) s := by
  simp only [imgAnswer, Only.svc]
  all_goals first
    | (simp [svcReply_only .., iteU .., apply_ite Prod.snd, apply_ite Prod.fst]; done)
    | ((repeat' split) <;> simp [svcReply_only .., iteU .., apply_ite Prod.snd, apply_ite Prod.fst])

theorem pfwCut_only (s : State) : Only.pltSvc (pfwCut s) s := by
  simp only [pfwCut, Only.pltSvc]
  all_goals simp [imgAbandon_only .., imgAnswer_only .., pltAbandon_only .., pltAnswer_only .., iteU .., apply_ite Prod.snd,
    apply_ite Prod.fst]

theorem setCan_only (s : State) (n : Nat) (x : CanSt) : Only.can (setCan s n x) s := by
  simp only [setCan, Only.can]
  all_goals simp [iteU .., apply_ite Prod.snd, apply_ite Prod.fst]

theorem canChoose_only (s : State) (n : Nat) : Only.spn (canChoose s n) s := by
  simp only [canChoose, Only.spn]
  all_goals simp [setArb_only .., iteU .., apply_ite Prod.snd, apply_ite Prod.fst]

theorem canDecide_only (s : State) (n : Nat) : Only.spn (canDecide s n) s := by
  simp only [canDecide, Only.spn]
  all_goals simp [canChoose_only .., iteU .., apply_ite Prod.snd, apply_ite Prod.fst]

theorem canFresh_only (s : State) (n : Nat) : Only.spn (canFresh s n) s := by
  simp only [canFresh, Only.spn]
  all_goals simp [canChoose_only .., iteU .., apply_ite Prod.snd, apply_ite Prod.fst]

theorem canMove_only (s : State) (n : Nat) : Only.can (canMove s n) s := by
  simp only [canMove, Only.can]
  all_goals ((repeat' split) <;> simp [setCan_only .., iteU .., apply_ite Prod.snd, apply_ite Prod.fst])

theorem canMoves_only (s : State) (n : Nat) (x0 : Nat) : Only.can (canMoves s n x0) s := by
  induction x0 generalizing s n with
  | zero => simp [canMoves, Only.can]
  | succ y ih =>
    simp only [Only.can, canMoves] at ih ⊢
    simp [ih, canMove_only .., iteU .., apply_ite Prod.snd, apply_ite Prod.fst]

theorem canPump_only (s : State) (n : Nat) : Only.can (canPump s n) s := by
  simp only [canPump, Only.can]
  all_goals simp [canMoves_only .., iteU .., apply_ite Prod.snd, apply_ite Prod.fst]

theorem canLoadE_only (s : State) (n : Nat) (e : LoadEnt) : Only.can (canLoadE s n e) s := by
  simp only [canLoadE, Only.can]
  all_goals simp [canPump_only .., setCan_only .., iteU .., apply_ite Prod.snd, apply_ite Prod.fst]

theorem canLoad_only (s : State) (n : Nat) (f : CanFrame) (telem : Bool) : Only.can (canLoad s n f telem) s := by
  simp only [canLoad, Only.can]
  all_goals simp [canLoadE_only .., iteU .., apply_ite Prod.snd, apply_ite Prod.fst]

theorem canCauses_only (s : State) : Only.fltRecr (canCauses s) s := by
  simp only [canCauses, Only.fltRecr]
  all_goals simp [causeOff_only .., iteU .., apply_ite Prod.snd, apply_ite Prod.fst]

theorem canHalt_only (s : State) (n : Nat) : Only.spn (canHalt s n) s := by
  simp only [canHalt, Only.spn]
  all_goals simp [modArb_only .., iteU .., apply_ite Prod.snd, apply_ite Prod.fst]

theorem canBusOff_only (s : State) (n : Nat) : Only.raiseCanSyn (canBusOff s n) s := by
  simp only [canBusOff, Only.raiseCanSyn]
  all_goals simp [canHalt_only .., raise_only .., setCan_only .., iteU .., apply_ite Prod.snd, apply_ite Prod.fst]

theorem canConfine_only (s : State) (n : Nat) : Only.raiseCanSyn (canConfine s n) s := by
  simp only [canConfine, Only.raiseCanSyn]
  all_goals simp [canBusOff_only .., canCauses_only .., raise_only .., setCan_only .., iteU .., apply_ite Prod.snd, apply_ite
    Prod.fst]

theorem canOffRc_only (s : State) (n : Nat) : Only.spnCan (canOffRc s n) s := by
  simp only [canOffRc, Only.spnCan]
  all_goals simp [canHalt_only .., setCan_only .., iteU .., apply_ite Prod.snd, apply_ite Prod.fst]

theorem canFlush_only (s : State) (n : Nat) : Only.spnCan (canFlush s n) s := by
  simp only [canFlush, Only.spnCan]
  all_goals simp [canHalt_only .., setCan_only .., iteU .., apply_ite Prod.snd, apply_ite Prod.fst]

theorem canConfigure_only (s : State) (n : Nat) (c : CanCfg) (moored : Bool) : Only.can (canConfigure s n c moored) s := by
  simp only [canConfigure, Only.can]
  all_goals simp [setCan_only .., iteU .., apply_ite Prod.snd, apply_ite Prod.fst]

theorem entryFaults_only (s : State) (loc : Nat) : Only.raiseNvm (entryFaults s loc) s := by
  simp only [entryFaults, Only.raiseNvm]
  all_goals ((repeat' split) <;> simp [wordsFound_only .., iteU .., apply_ite Prod.snd, apply_ite Prod.fst])

theorem entryFaultsAll_only (s : State) (x0 : List Nat) : Only.raiseNvm (entryFaultsAll s x0) s := by
  induction x0 generalizing s with
  | nil => simp [entryFaultsAll, Only.raiseNvm]
  | cons y ys ih =>
    simp only [Only.raiseNvm, entryFaultsAll] at ih ⊢
    simp [ih, entryFaults_only .., iteU .., apply_ite Prod.snd, apply_ite Prod.fst]

theorem requestFlush_only (s : State) : Only.recr (requestFlush s) s := by
  simp only [requestFlush, Only.recr]
  all_goals ((repeat' split) <;> simp [startFlush_only .., iteU .., apply_ite Prod.snd, apply_ite Prod.fst])

theorem locate_only (s : State) : Only.recr (locate s) s := by
  simp only [locate, Only.recr]
  all_goals simp [iteU .., apply_ite Prod.snd, apply_ite Prod.fst]

theorem eraseAhead_only (s : State) (row : Nat) : Only.pwrNvmRecrPrfSpn (eraseAhead s row) s := by
  simp only [eraseAhead, Only.pwrNvmRecrPrfSpn]
  all_goals simp [requestErase_only .., iteU .., apply_ite Prod.snd, apply_ite Prod.fst]

theorem aheadCheck_only (s : State) : Only.pwrNvmRecrPrfSpn (aheadCheck s) s := by
  simp only [aheadCheck, Only.pwrNvmRecrPrfSpn]
  all_goals simp [addRecord_only .., eraseAhead_only .., iteU .., apply_ite Prod.snd, apply_ite Prod.fst]

theorem eraseNext_only (s : State) : Only.pwrNvmRecrPrfSpn (eraseNext s) s := by
  simp only [eraseNext, Only.pwrNvmRecrPrfSpn]
  all_goals simp [eraseAhead_only .., iteU .., apply_ite Prod.snd, apply_ite Prod.fst]

theorem skipRow_only (s : State) (r : Nat) : Only.pwrNvmRecrPrfSpn (skipRow s r) s := by
  simp only [skipRow, Only.pwrNvmRecrPrfSpn]
  all_goals simp [eraseAhead_only .., iteU .., apply_ite Prod.snd, apply_ite Prod.fst]

theorem dropNotice_only (s : State) : Only.recr (dropNotice s) s := by
  simp only [dropNotice, Only.recr]
  all_goals simp [addRecord_only .., iteU .., apply_ite Prod.snd, apply_ite Prod.fst]

theorem beginChunk_only (s : State) (t : Store) (xs : List Record) (header : Option (Nat × Word)) : Only.pwrNvmRecrPrfSpn
    (beginChunk s t xs header) s := by
  simp only [beginChunk, Only.pwrNvmRecrPrfSpn]
  all_goals simp [startStore_only .., iteU .., apply_ite Prod.snd, apply_ite Prod.fst]

theorem takeChunk_only (s : State) (t : Store) : Only.pwrNvmRecrPrfSpn (takeChunk s t) s := by
  simp only [takeChunk, Only.pwrNvmRecrPrfSpn]
  all_goals simp [beginChunk_only .., dropNotice_only .., eraseNext_only .., iteU .., apply_ite Prod.snd, apply_ite Prod.fst]

theorem chunkRefused_only (s : State) (t : Store) : Only.pwrRecr (chunkRefused s t) s := by
  simp only [chunkRefused, Only.pwrRecr]
  all_goals simp [energyRefused_only .., enqueue_only .., iteU .., apply_ite Prod.snd, apply_ite Prod.fst]

theorem tryChunk_only (s : State) (t : Store) : Only.pwrNvmRecrPrfSpn (tryChunk s t) s := by
  simp only [tryChunk, Only.pwrNvmRecrPrfSpn]
  all_goals simp [aheadCheck_only .., chunkRefused_only .., readPin_only .., takeChunk_only .., iteU .., apply_ite Prod.snd,
    apply_ite Prod.fst]

theorem recStored_only (s : State) (x : Nat × Word) : Only.fltSyn (recStored s x) s := by
  simp only [recStored, Only.fltSyn]
  all_goals ((repeat' split) <;> simp [iteU .., apply_ite Prod.snd, apply_ite Prod.fst])

theorem markW0_only (s : State) (t : Store) (l : Nat) (good : Bool) : Only.recr (markW0 s t l good) s := by
  simp only [markW0, Only.recr]
  all_goals simp [iteU .., apply_ite Prod.snd, apply_ite Prod.fst]

theorem chunkOver_only (s : State) : Only.recr (chunkOver s) s := by
  simp only [chunkOver, Only.recr]
  all_goals simp [iteU .., apply_ite Prod.snd, apply_ite Prod.fst]

theorem fatalConfirm_only (s : State) : Only.settleFreeRstStrapsPwrNvmPrfPltAdmMnsCalCanSynSvc (fatalConfirm s) s := by
  simp only [fatalConfirm, Only.settleFreeRstStrapsPwrNvmPrfPltAdmMnsCalCanSynSvc]
  all_goals simp [chipReset_only .., iteU .., apply_ite Prod.snd, apply_ite Prod.fst]

theorem synSend_only (s : State) (n cls dst obj : Nat) (data : List Byte) : Only.can (synSend s n cls dst obj data) s := by
  simp only [synSend, Only.can]
  all_goals simp [canLoad_only .., iteU .., apply_ite Prod.snd, apply_ite Prod.fst]

theorem hostSendV_only (s : State) (rank cls obj : Nat) (data : List Byte) (stat : List (Nat × Nat)) : Only.can (hostSendV s
    rank cls obj data stat) s := by
  simp only [hostSendV, Only.can]
  all_goals simp [canLoadE_only .., iteU .., apply_ite Prod.snd, apply_ite Prod.fst]

theorem hostSend_only (s : State) (rank cls obj : Nat) (data : List Byte) : Only.can (hostSend s rank cls obj data) s := by
  simp only [hostSend, Only.can]
  all_goals simp [hostSendV_only .., iteU .., apply_ite Prod.snd, apply_ite Prod.fst]

theorem synSends_only (s : State) (cls dst obj : Nat) (data : List Byte) (x0 : List Nat) : Only.can (synSends s cls dst obj
    data x0) s := by
  induction x0 generalizing s cls dst obj data with
  | nil => simp [synSends, Only.can]
  | cons y ys ih =>
    simp only [Only.can, synSends] at ih ⊢
    simp [ih, synSend_only .., iteU .., apply_ite Prod.snd, apply_ite Prod.fst]

theorem setNode_only (s : State) (k : Nat) (x : NodeSt) : Only.syn (setNode s k x) s := by
  simp only [setNode, Only.syn]
  all_goals simp [iteU .., apply_ite Prod.snd, apply_ite Prod.fst]

theorem nodeCauses_only (s : State) : Only.fltRecr (nodeCauses s) s := by
  simp only [nodeCauses, Only.fltRecr]
  all_goals simp [causeOff_only .., iteU .., apply_ite Prod.snd, apply_ite Prod.fst]

theorem setQualities_only (s : State) (q : Quality) (x0 : List Nat) : Only.eng (setQualities s q x0) s := by
  induction x0 generalizing s q with
  | nil => simp [setQualities, Only.eng]
  | cons y ys ih =>
    simp only [Only.eng, setQualities] at ih ⊢
    simp [ih, setQuality_only .., iteU .., apply_ite Prod.snd, apply_ite Prod.fst]

theorem abortCmds_only (s : State) (bus node : Nat) : Only.spnCan (abortCmds s bus node) s := by
  simp only [abortCmds, Only.spnCan]
  all_goals simp [modArb_only .., setCan_only .., iteU .., apply_ite Prod.snd, apply_ite Prod.fst]

theorem nodeLose_only (s : State) (bus node : Nat) : Only.raiseCanSyn (nodeLose s bus node) s := by
  simp only [nodeLose, Only.raiseCanSyn]
  all_goals simp [abortCmds_only .., nodeCauses_only .., raise_only .., setNode_only .., setQualities_only .., iteU ..,
    apply_ite Prod.snd, apply_ite Prod.fst]

theorem nodeForeign_only (s : State) (bus node why : Nat) : Only.raiseCanSyn (nodeForeign s bus node why) s := by
  simp only [nodeForeign, Only.raiseCanSyn]
  all_goals simp [abortCmds_only .., nodeCauses_only .., raise_only .., setNode_only .., setQualities_only .., iteU ..,
    apply_ite Prod.snd, apply_ite Prod.fst]

theorem sendCmd_only (s : State) (kind ch : Nat) (level : Int) (flags : Nat) : Only.canSyn (sendCmd s kind ch level flags) s
    := by
  simp only [sendCmd, Only.canSyn]
  all_goals first
    | (simp [synSend_only .., iteU .., apply_ite Prod.snd, apply_ite Prod.fst]; done)
    | ((repeat' split) <;> simp [synSend_only .., iteU .., apply_ite Prod.snd, apply_ite Prod.fst])

theorem sendNow_only (s : State) (x0 : List (Nat × Nat)) : Only.canSyn (sendNow s x0) s := by
  induction x0 generalizing s with
  | nil => simp [sendNow, Only.canSyn]
  | cons y ys ih =>
    simp only [Only.canSyn, sendNow] at ih ⊢
    first
      | (simp [ih, sendCmd_only .., iteU .., apply_ite Prod.snd, apply_ite Prod.fst]; done)
      | ((repeat' split) <;> simp [ih, sendCmd_only .., iteU .., apply_ite Prod.snd, apply_ite Prod.fst])

theorem pubSend_only (s : State) (n dst obj value : Nat) (x : BIn) : Only.can (pubSend s n dst obj value x) s := by
  simp only [pubSend, Only.can]
  all_goals simp [canLoadE_only .., setCan_only .., iteU .., apply_ite Prod.snd, apply_ite Prod.fst]

theorem rxTake_only (s : State) (n : Nat) : Only.can (rxTake s n) s := by
  simp only [rxTake, Only.can]
  all_goals simp [setCan_only .., iteU .., apply_ite Prod.snd, apply_ite Prod.fst]

theorem hostReply_only (s : State) (f : CanFrame) (status : Nat) (extra : List Byte) : Only.can (hostReply s f status extra) s
    := by
  simp only [hostReply, Only.can]
  all_goals simp [hostSend_only .., iteU .., apply_ite Prod.snd, apply_ite Prod.fst]

theorem hostRate_only (s : State) : Only.syn ((hostRate s).2) s := by
  simp only [hostRate, Only.syn]
  all_goals simp [iteU .., apply_ite Prod.snd, apply_ite Prod.fst]

theorem recResult_only (s : State) (req id obj status discarded : Nat) : Only.can (recResult s req id obj status discarded) s
    := by
  simp only [recResult, Only.can]
  all_goals simp [synSend_only .., iteU .., apply_ite Prod.snd, apply_ite Prod.fst]

theorem pfwTurns_only (s : State) (x0 : List Nat) : Only.nvmSpn (pfwTurns s x0) s := by
  induction x0 generalizing s with
  | nil => simp [pfwTurns, Only.nvmSpn]
  | cons y ys ih =>
    simp only [Only.nvmSpn, pfwTurns] at ih ⊢
    simp [ih, bankDrop_only .., iteU .., apply_ite Prod.snd, apply_ite Prod.fst]

theorem clearAnswer_only (s : State) (c : ClearReq) (st n : Nat) : Only.canSvc (clearAnswer s c st n) s := by
  simp only [clearAnswer, Only.canSvc]
  all_goals simp [recResult_only .., svcReply_only .., iteU .., apply_ite Prod.snd, apply_ite Prod.fst]

theorem clearAnswers_only (s : State) (st : Nat) (x0 : List ClearReq) : Only.canSvc (clearAnswers s st x0) s := by
  induction x0 generalizing s st with
  | nil => simp [clearAnswers, Only.canSvc]
  | cons y ys ih =>
    simp only [Only.canSvc, clearAnswers] at ih ⊢
    simp [ih, clearAnswer_only .., iteU .., apply_ite Prod.snd, apply_ite Prod.fst]

theorem clearsCut_only (s : State) : Only.recrCanSvc (clearsCut s) s := by
  simp only [clearsCut, Only.recrCanSvc]
  all_goals simp [clearAnswers_only .., iteU .., apply_ite Prod.snd, apply_ite Prod.fst]

theorem pfwStart_only (s : State) : Only.pwrNvmRecrPltSpnStbCanSvc (pfwStart s) s := by
  simp only [pfwStart, Only.pwrNvmRecrPltSpnStbCanSvc]
  all_goals simp [addRecord_only .., clearsCut_only .., pfwCut_only .., pfwTurns_only .., readPin_only .., refillQueue_only
    .., startFlush_only .., iteU .., apply_ite Prod.snd, apply_ite Prod.fst]

theorem resumeErases_only (s : State) (x0 : List Nat) : Only.pwrNvmRecrPrfSpn (resumeErases s x0) s := by
  induction x0 generalizing s with
  | nil => simp [resumeErases, Only.pwrNvmRecrPrfSpn]
  | cons y ys ih =>
    simp only [Only.pwrNvmRecrPrfSpn, resumeErases] at ih ⊢
    first
      | (simp [ih, bankAsk_only .., requestStore_only .., iteU .., apply_ite Prod.snd, apply_ite Prod.fst]; done)
      | ((repeat' split) <;> simp [ih, bankAsk_only .., requestStore_only .., iteU .., apply_ite Prod.snd, apply_ite
          Prod.fst])

theorem pfwEnd_only (s : State) : Only.pwrNvmRecrPrfSpn (pfwEnd s) s := by
  simp only [pfwEnd, Only.pwrNvmRecrPrfSpn]
  all_goals simp [addRecord_only .., resumeErases_only .., iteU .., apply_ite Prod.snd, apply_ite Prod.fst]

theorem pfwRefresh_only (s : State) : Only.pwrNvmRecrPrfPltSpnStbCanSvc (pfwRefresh s) s := by
  simp only [pfwRefresh, Only.pwrNvmRecrPrfPltSpnStbCanSvc]
  all_goals simp [pfwEnd_only .., pfwStart_only .., iteU .., apply_ite Prod.snd, apply_ite Prod.fst]

theorem evtBegin_only (s : State) (kind src phases extreme : Nat) : Only.raiseMns ((evtBegin s kind src phases extreme).1) s
    := by
  simp only [evtBegin, Only.raiseMns]
  all_goals simp [raiseU_only .., iteU .., apply_ite Prod.snd, apply_ite Prod.fst]

theorem evtWrite_only (s : State) (o : MnsOpen) (kind : Nat) (isOpen : Bool) : Only.mns (evtWrite s o kind isOpen) s := by
  simp only [evtWrite, Only.mns]
  all_goals first
    | (simp [iteU .., apply_ite Prod.snd, apply_ite Prod.fst]; done)
    | ((repeat' split) <;> simp [iteU .., apply_ite Prod.snd, apply_ite Prod.fst])

theorem evtStep_only (s : State) (cur : Option MnsOpen) (kind src phases extreme : Nat) (starts ends : Bool) (pick : Nat → Nat
    → Nat) : Only.raiseMns ((evtStep s cur kind src phases extreme starts ends pick).1) s := by
  simp only [evtStep, Only.raiseMns]
  all_goals ((repeat' split) <;> simp [causeOff_only .., evtBegin_only .., evtWrite_only .., iteU .., apply_ite Prod.snd,
    apply_ite Prod.fst])

theorem spoilWatches_only (s : State) : Only.stb (spoilWatches s) s := by
  simp only [spoilWatches, Only.stb]
  all_goals simp [iteU .., apply_ite Prod.snd, apply_ite Prod.fst]

theorem mainsEvents_only (s : State) (c : IslandsCfg) (rms : List Int) : Only.raiseMnsStb (mainsEvents s c rms) s := by
  simp only [mainsEvents, Only.raiseMnsStb]
  all_goals simp [evtStep_only .., spoilWatches_only .., iteU .., apply_ite Prod.snd, apply_ite Prod.fst]

theorem mainsPfw_only (s : State) (c : IslandsCfg) (rms : List Int) : Only.pwrNvmRecrPrfPltSpnMnsStbCanSvc (mainsPfw s c rms)
    s := by
  simp only [mainsPfw, Only.pwrNvmRecrPrfPltSpnMnsStbCanSvc]
  all_goals simp [pfwRefresh_only .., iteU .., apply_ite Prod.snd, apply_ite Prod.fst]

theorem watchDips_only (s : State) (lo : Int) : Only.stb (watchDips s lo) s := by
  simp only [watchDips, Only.stb]
  all_goals simp [iteU .., apply_ite Prod.snd, apply_ite Prod.fst]

theorem mainsWrite_only (s : State) (q : Nat → Option Int × Quality) (x0 : Nat) (x1 : List Nat) : Only.engSw (mainsWrite s q
    x0 x1) s := by
  induction x1 generalizing s q x0 with
  | nil => simp [mainsWrite, Only.engSw]
  | cons y ys ih =>
    simp only [Only.engSw, mainsWrite] at ih ⊢
    simp [ih, putVal_only .., iteU .., apply_ite Prod.snd, apply_ite Prod.fst]

theorem condStep_only (s : State) (src need n since : Nat) (okSince : Option Nat) (bad good : Bool) (param : Word) :
    Only.raise ((condStep s src need n since okSince bad good param).1) s := by
  simp only [condStep, Only.raise]
  all_goals first
    | (simp [causeOff_only .., causeOn_only .., iteU .., apply_ite Prod.snd, apply_ite Prod.fst]; done)
    | ((repeat' split) <;> simp [causeOff_only .., causeOn_only .., iteU .., apply_ite Prod.snd, apply_ite Prod.fst])

theorem mainsConds_only (s : State) (c : IslandsCfg) (since : Nat) (freq unbal : Int) (acb posLow : Bool) : Only.raiseMns
    (mainsConds s c since freq unbal acb posLow) s := by
  simp only [mainsConds, Only.raiseMns]
  all_goals simp [condStep_only .., iteU .., apply_ite Prod.snd, apply_ite Prod.fst]

theorem freezeDrop_only (s : State) : Only.stb (freezeDrop s) s := by
  simp only [freezeDrop, Only.stb]
  all_goals simp [iteU .., apply_ite Prod.snd, apply_ite Prod.fst]

theorem grantStart_only (s : State) (ch : Nat) : Only.fltRecrStartStbMot (grantStart s ch) s := by
  simp only [grantStart, Only.fltRecrStartStbMot]
  all_goals simp [dropReq_only .., fbAgree_only .., setMot_only .., iteU .., apply_ite Prod.snd, apply_ite Prod.fst]

theorem serveStep_only (s : State) : Only.fltRecrStartStbMot (serveStep s) s := by
  simp only [serveStep, Only.fltRecrStartStbMot]
  all_goals ((repeat' split) <;> simp [dropReq_only .., grantStart_only .., iteU .., apply_ite Prod.snd, apply_ite Prod.fst])

theorem sectStartCmd_only (s : State) (n origin : Nat) : Only.recrStartEngSwMot ((sectStartCmd s n origin).2) s := by
  simp only [sectStartCmd, Only.recrStartEngSwMot]
  all_goals simp [startSect_only .., iteU .., apply_ite Prod.snd, apply_ite Prod.fst]

theorem sectStopCmd_only (s : State) (n : Nat) : Only.recrStartEngSw ((sectStopCmd s n).2) s := by
  simp only [sectStopCmd, Only.recrStartEngSw]
  all_goals simp [stopCommand_only .., iteU .., apply_ite Prod.snd, apply_ite Prod.fst]

theorem ackCmd_only (s : State) (n : Nat) : Only.fltRecr ((ackCmd s n).2) s := by
  simp only [ackCmd, Only.fltRecr]
  all_goals simp [ackFault_only .., iteU .., apply_ite Prod.snd, apply_ite Prod.fst]

theorem fogAckCmd_only (s : State) (port : Word) : Only.fltRecrFan ((fogAckCmd s port).2) s := by
  simp only [fogAckCmd, Only.fltRecrFan]
  all_goals simp [fogEnd_only .., iteU .., apply_ite Prod.snd, apply_ite Prod.fst]

theorem freezeRecord_only (s : State) (port : Word) (set : Bool) : Only.recr (freezeRecord s port set) s := by
  simp only [freezeRecord, Only.recr]
  all_goals simp [addRecord_only .., iteU .., apply_ite Prod.snd, apply_ite Prod.fst]

theorem hostFreeze_only (s : State) (port : Word) (b : Bool) : Only.recrStb (hostFreeze s port b) s := by
  simp only [hostFreeze, Only.recrStb]
  all_goals simp [freezeDrop_only .., freezeRecord_only .., iteU .., apply_ite Prod.snd, apply_ite Prod.fst]

theorem sessionFreeze_only (s : State) (port : Word) (b : Bool) : Only.recrStb (sessionFreeze s port b) s := by
  simp only [sessionFreeze, Only.recrStb]
  all_goals simp [freezeDrop_only .., freezeRecord_only .., iteU .., apply_ite Prod.snd, apply_ite Prod.fst]

theorem motClearCmd_only (s : State) (ch : Nat) : Only.mot ((motClearCmd s ch).2) s := by
  simp only [motClearCmd, Only.mot]
  all_goals simp [clearMot_only .., iteU .., apply_ite Prod.snd, apply_ite Prod.fst]

theorem keeperPut_only (s : State) (c : ValCfg) : Only.engSw (keeperPut s c) s := by
  simp only [keeperPut, Only.engSw]
  all_goals ((repeat' split) <;> simp [putVal_only .., iteU .., apply_ite Prod.snd, apply_ite Prod.fst])

theorem keeperPuts_only (s : State) (x0 : List ValCfg) : Only.engSw (keeperPuts s x0) s := by
  induction x0 generalizing s with
  | nil => simp [keeperPuts, Only.engSw]
  | cons y ys ih =>
    simp only [Only.engSw, keeperPuts] at ih ⊢
    simp [ih, keeperPut_only .., iteU .., apply_ite Prod.snd, apply_ite Prod.fst]

theorem calendarPuts_only (s : State) : Only.engSw (calendarPuts s) s := by
  simp only [calendarPuts, Only.engSw]
  all_goals simp [keeperPuts_only .., iteU .., apply_ite Prod.snd, apply_ite Prod.fst]

theorem plantPuts_only (s : State) (all : Bool) : Only.engSw (plantPuts s all) s := by
  simp only [plantPuts, Only.engSw]
  all_goals simp [keeperPuts_only .., iteU .., apply_ite Prod.snd, apply_ite Prod.fst]

theorem calAdvance_only (s : State) : Only.cal (calAdvance s) s := by
  simp only [calAdvance, Only.cal]
  all_goals simp [iteU .., apply_ite Prod.snd, apply_ite Prod.fst]

theorem fireRules_only (s : State) (x0 : List Nat) : Only.recrStartEngSw (fireRules s x0) s := by
  induction x0 generalizing s with
  | nil => simp [fireRules, Only.recrStartEngSw]
  | cons y ys ih =>
    simp only [Only.recrStartEngSw, fireRules] at ih ⊢
    simp [ih, fireRule_only .., iteU .., apply_ite Prod.snd, apply_ite Prod.fst]

theorem schedFire_only (s : State) (x : CalDate) (x0 : List SchedCfg) : Only.recrStartEngSw (schedFire s x x0) s := by
  induction x0 generalizing s x with
  | nil => simp [schedFire, Only.recrStartEngSw]
  | cons y ys ih =>
    simp only [Only.recrStartEngSw, schedFire] at ih ⊢
    simp [ih, fireRules_only .., iteU .., apply_ite Prod.snd, apply_ite Prod.fst]

theorem schedSkip_only (s : State) (x0 : List SchedCfg) : Only.recr (schedSkip s x0) s := by
  induction x0 generalizing s with
  | nil => simp [schedSkip, Only.recr]
  | cons y ys ih =>
    simp only [Only.recr, schedSkip] at ih ⊢
    simp [ih, addRecord_only .., iteU .., apply_ite Prod.snd, apply_ite Prod.fst]

theorem setFev_only (s : State) (i : Nat) (x : FeVal) : Only.sw (setFev s i x) s := by
  simp only [setFev, Only.sw]
  all_goals simp [iteU .., apply_ite Prod.snd, apply_ite Prod.fst]

theorem startCount_only (s : State) (i cls : Nat) : Only.raise (startCount s i cls) s := by
  simp only [startCount, Only.raise]
  all_goals simp [raiseU_only .., setFev_only .., iteU .., apply_ite Prod.snd, apply_ite Prod.fst]

theorem stopCount_only (s : State) (i : Nat) : Only.fltRecrSw (stopCount s i) s := by
  simp only [stopCount, Only.fltRecrSw]
  all_goals simp [causeOff_only .., setFev_only .., iteU .., apply_ite Prod.snd, apply_ite Prod.fst]

theorem rewriteVal_only (s : State) (i : Nat) (w : Int) (q : Quality) : Only.eng (rewriteVal s i w q) s := by
  simp only [rewriteVal, Only.eng]
  all_goals simp [iteU .., apply_ite Prod.snd, apply_ite Prod.fst]

theorem present_only (s : State) (i : Nat) (sampled : Bool) (w : Int) (q : Quality) : Only.engSw (present s i sampled w q) s
    := by
  simp only [present, Only.engSw]
  all_goals simp [putVal_only .., rewriteVal_only .., setFev_only .., iteU .., apply_ite Prod.snd, apply_ite Prod.fst]

theorem presentOwn_only (s : State) (i : Nat) (sampled : Bool) : Only.engSw (presentOwn s i sampled) s := by
  simp only [presentOwn, Only.engSw]
  all_goals simp [present_only .., iteU .., apply_ite Prod.snd, apply_ite Prod.fst]

theorem pairAgree_only (s : State) (k : Nat) : Only.fltRecrSw (pairAgree s k) s := by
  simp only [pairAgree, Only.fltRecrSw]
  all_goals simp [causeOff_only .., setPair_only .., iteU .., apply_ite Prod.snd, apply_ite Prod.fst]

theorem pairCompare_only (s : State) (k : Nat) (p : PairCfg) : Only.sw (pairCompare s k p) s := by
  simp only [pairCompare, Only.sw]
  all_goals simp [setPair_only .., iteU .., apply_ite Prod.snd, apply_ite Prod.fst]

theorem pairShow_only (s : State) (k : Nat) (p : PairCfg) (i : Nat) (sampled : Bool) : Only.engSw (pairShow s k p i sampled) s
    := by
  simp only [pairShow, Only.engSw]
  all_goals simp [present_only .., presentOwn_only .., iteU .., apply_ite Prod.snd, apply_ite Prod.fst]

theorem pairShowBad_only (s : State) (m : Option Nat) (i j : Nat) : Only.engSw (pairShowBad s m i j) s := by
  simp only [pairShowBad, Only.engSw]
  all_goals simp [present_only .., presentOwn_only .., iteU .., apply_ite Prod.snd, apply_ite Prod.fst]

theorem pairUpdate_only (s : State) (k : Nat) (p : PairCfg) (m : Option Nat) : Only.fltRecrEngSw (pairUpdate s k p m) s := by
  simp only [pairUpdate, Only.fltRecrEngSw]
  all_goals first
    | (simp [pairAgree_only .., pairCompare_only .., pairShow_only .., pairShowBad_only .., setPair_only .., iteU ..,
        apply_ite Prod.snd, apply_ite Prod.fst]; done)
    | ((repeat' split) <;> simp [pairAgree_only .., pairCompare_only .., pairShow_only .., pairShowBad_only .., setPair_only
        .., iteU .., apply_ite Prod.snd, apply_ite Prod.fst])

theorem ownFaulty_only (s : State) (v : ValCfg) (cls : Nat) (code : Int) : Only.raise (ownFaulty s v cls code) s := by
  simp only [ownFaulty, Only.raise]
  all_goals simp [setFev_only .., startCount_only .., iteU .., apply_ite Prod.snd, apply_ite Prod.fst]

theorem ownUsable_only (s : State) (v : ValCfg) (y : Int) (q : Quality) : Only.fltRecrSw (ownUsable s v y q) s := by
  simp only [ownUsable, Only.fltRecrSw]
  all_goals simp [setFev_only .., stopCount_only .., iteU .., apply_ite Prod.snd, apply_ite Prod.fst]

theorem sampleOwn_only (s : State) (x : Sample) (c : ScanCfg) (v : ValCfg) : Only.raise (sampleOwn s x c v) s := by
  simp only [sampleOwn, Only.raise]
  all_goals first
    | (simp [countSats_only .., ownFaulty_only .., ownUsable_only .., iteU .., apply_ite Prod.snd, apply_ite Prod.fst]; done)
    | ((repeat' split) <;> simp [countSats_only .., ownFaulty_only .., ownUsable_only .., iteU .., apply_ite Prod.snd,
        apply_ite Prod.fst])

theorem unblank_only (s : State) (i endT : Nat) : Only.fltRecrFe (unblank s i endT) s := by
  simp only [unblank, Only.fltRecrFe]
  all_goals simp [causeOff_only .., iteU .., apply_ite Prod.snd, apply_ite Prod.fst]

theorem processSample_only (s : State) (x : Sample) : Only.raiseFe (processSample s x) s := by
  simp only [processSample, Only.raiseFe]
  all_goals first
    | (simp [pairUpdate_only .., presentOwn_only .., sampleOwn_only .., unblank_only .., iteU .., apply_ite Prod.snd,
        apply_ite Prod.fst]; done)
    | ((repeat' split) <;> simp [pairUpdate_only .., presentOwn_only .., sampleOwn_only .., unblank_only .., iteU ..,
        apply_ite Prod.snd, apply_ite Prod.fst])

theorem vanaFault_only (s : State) (c : ScanCfg) : Only.engSw (vanaFault s c) s := by
  simp only [vanaFault, Only.engSw]
  all_goals simp [setFev_only .., setQuality_only .., iteU .., apply_ite Prod.snd, apply_ite Prod.fst]

theorem vanaFaults_only (s : State) (x0 : List ScanCfg) : Only.engSw (vanaFaults s x0) s := by
  induction x0 generalizing s with
  | nil => simp [vanaFaults, Only.engSw]
  | cons y ys ih =>
    simp only [Only.engSw, vanaFaults] at ih ⊢
    simp [ih, vanaFault_only .., iteU .., apply_ite Prod.snd, apply_ite Prod.fst]

theorem pairsAgree_only (s : State) (x0 : Nat) (x1 : List PairCfg) : Only.fltRecrSw (pairsAgree s x0 x1) s := by
  induction x1 generalizing s x0 with
  | nil => simp [pairsAgree, Only.fltRecrSw]
  | cons y ys ih =>
    simp only [Only.fltRecrSw, pairsAgree] at ih ⊢
    simp [ih, pairAgree_only .., iteU .., apply_ite Prod.snd, apply_ite Prod.fst]

theorem pairAges_only (s : State) (x0 : Nat) (x1 : List PairCfg) : Only.fltRecrEngSw (pairAges s x0 x1) s := by
  induction x1 generalizing s x0 with
  | nil => simp [pairAges, Only.fltRecrEngSw]
  | cons y ys ih =>
    simp only [Only.fltRecrEngSw, pairAges] at ih ⊢
    simp [ih, pairUpdate_only .., iteU .., apply_ite Prod.snd, apply_ite Prod.fst]

theorem setSlice_only (s : State) (n : Nat) (x : SliceSt) : Only.fe (setSlice s n x) s := by
  simp only [setSlice, Only.fe]
  all_goals simp [iteU .., apply_ite Prod.snd, apply_ite Prod.fst]

theorem openSlice_only (s : State) (n : Nat) : Only.fe (openSlice s n) s := by
  simp only [openSlice, Only.fe]
  all_goals simp [iteU .., apply_ite Prod.snd, apply_ite Prod.fst]

theorem openSlices_only (s : State) (x0 : List Nat) : Only.fe (openSlices s x0) s := by
  induction x0 generalizing s with
  | nil => simp [openSlices, Only.fe]
  | cons y ys ih =>
    simp only [Only.fe, openSlices] at ih ⊢
    simp [ih, openSlice_only .., iteU .., apply_ite Prod.snd, apply_ite Prod.fst]

theorem closeConns_only (s : State) (xs : List Conn) : Only.fe (closeConns s xs) s := by
  simp only [closeConns, Only.fe]
  all_goals simp [iteU .., apply_ite Prod.snd, apply_ite Prod.fst]

theorem openList_only (s : State) (l : Nat) : Only.fe (openList s l) s := by
  simp only [openList, Only.fe]
  all_goals simp [openSlices_only .., iteU .., apply_ite Prod.snd, apply_ite Prod.fst]

theorem joinOverlap_only (s : State) (l p e : Nat) : Only.fe (joinOverlap s l p e) s := by
  simp only [joinOverlap, Only.fe]
  all_goals ((repeat' split) <;> simp [iteU .., apply_ite Prod.snd, apply_ite Prod.fst])

theorem setGains_only (s : State) (g : Nat) (x0 : List Nat) : Only.fe (setGains s g x0) s := by
  induction x0 generalizing s g with
  | nil => simp [setGains, Only.fe]
  | cons y ys ih =>
    simp only [Only.fe, setGains] at ih ⊢
    simp [ih, setSlice_only .., iteU .., apply_ite Prod.snd, apply_ite Prod.fst]

theorem beginEntry_only (s : State) (l : Nat) (q : LSeq) (e T : Nat) : Only.fe (beginEntry s l q e T) s := by
  simp only [beginEntry, Only.fe]
  all_goals ((repeat' split) <;> simp [closeConns_only .., joinOverlap_only .., openList_only .., setGains_only ..,
    setList_only .., iteU .., apply_ite Prod.snd, apply_ite Prod.fst])

theorem listCount_only (s : State) (l : Nat) (f : Arb → Arb) : Only.spn (listCount s l f) s := by
  simp only [listCount, Only.spn]
  all_goals ((repeat' split) <;> simp [modArb_only .., iteU .., apply_ite Prod.snd, apply_ite Prod.fst])

theorem idleTurn_only (s : State) (l : Nat) (q : LSeq) (T : Nat) (dead wd : Bool) (next : Option Nat) : Only.spnFe (idleTurn s
    l q T dead wd next) s := by
  simp only [idleTurn, Only.spnFe]
  all_goals simp [listCount_only .., openList_only .., setList_only .., iteU .., apply_ite Prod.snd, apply_ite Prod.fst]

theorem serveNext_only (s : State) (l : Nat) (q : LSeq) (T : Nat) : Only.spnFe (serveNext s l q T) s := by
  simp only [serveNext, Only.spnFe]
  all_goals first
    | (simp [beginEntry_only .., idleTurn_only .., listCount_only .., iteU .., apply_ite Prod.snd, apply_ite Prod.fst]; done)
    | ((repeat' split) <;> simp [beginEntry_only .., idleTurn_only .., listCount_only .., iteU .., apply_ite Prod.snd,
        apply_ite Prod.fst])

theorem overlapEntry_only (s : State) (l : Nat) (c : ScanCfg) (code code2 : Int) : Only.fe (overlapEntry s l c code code2) s
    := by
  simp only [overlapEntry, Only.fe]
  all_goals first
    | (simp [iteU .., apply_ite Prod.snd, apply_ite Prod.fst]; done)
    | ((repeat' split) <;> simp [iteU .., apply_ite Prod.snd, apply_ite Prod.fst])

theorem measured_only (s : State) (c : ScanCfg) (vexc : Nat) : Only.fe (measured s c vexc) s := by
  simp only [measured, Only.fe]
  all_goals simp [iteU .., apply_ite Prod.snd, apply_ite Prod.fst]

theorem emitSample_only (s : State) (l e : Nat) (c : ScanCfg) (q : LSeq) (code : Int) (ovr : Bool) (lo hi vexc : Nat) :
    Only.raiseFe (emitSample s l e c q code ovr lo hi vexc) s := by
  simp only [emitSample, Only.raiseFe]
  all_goals simp [islOverflow_only .., measured_only .., iteU .., apply_ite Prod.snd, apply_ite Prod.fst]

theorem endEntry_only (s : State) (l e : Nat) (c : ScanCfg) (q : LSeq) (code code2 : Reading) (ovr : Bool) (lo hi vexc : Nat)
    : Only.raiseFe (endEntry s l e c q code code2 ovr lo hi vexc) s := by
  simp only [endEntry, Only.raiseFe]
  all_goals simp [emitSample_only .., overlapEntry_only .., iteU .., apply_ite Prod.snd, apply_ite Prod.fst]

theorem keepFlags_only (s : State) (src : Bool) (x0 : List Nat) : Only.fe (keepFlags s src x0) s := by
  induction x0 generalizing s src with
  | nil => simp [keepFlags, Only.fe]
  | cons y ys ih =>
    simp only [Only.fe, keepFlags] at ih ⊢
    (repeat' split) <;> simp [ih, setList_only .., iteU .., apply_ite Prod.snd, apply_ite Prod.fst]

theorem calEntry_only (s : State) (w : Word) : Only.nvm (calEntry s w) s := by
  simp only [calEntry, Only.nvm]
  all_goals simp [iteU .., apply_ite Prod.snd, apply_ite Prod.fst]

theorem retireSlice_only (s : State) (n : Nat) : Only.raisePwrNvmPrfAdmFe (retireSlice s n) s := by
  simp only [retireSlice, Only.raisePwrNvmPrfAdmFe]
  all_goals first
    | (simp [mapStore_only .., openSlices_only .., raiseU_only .., rerunDue_only .., setList_only .., setSlice_only .., iteU
        .., apply_ite Prod.snd, apply_ite Prod.fst]; done)
    | ((repeat' split) <;> simp [mapStore_only .., openSlices_only .., raiseU_only .., rerunDue_only .., setList_only ..,
        setSlice_only .., iteU .., apply_ite Prod.snd, apply_ite Prod.fst])

theorem rotationStart_only (s : State) : Only.fe (rotationStart s) s := by
  simp only [rotationStart, Only.fe]
  all_goals simp [iteU .., apply_ite Prod.snd, apply_ite Prod.fst]

theorem calDiscard_only (s : State) (n : Nat) : Only.fe (calDiscard s n) s := by
  simp only [calDiscard, Only.fe]
  all_goals simp [setSlice_only .., iteU .., apply_ite Prod.snd, apply_ite Prod.fst]

theorem calsSpoil_only (s : State) : Only.fe (calsSpoil s) s := by
  simp only [calsSpoil, Only.fe]
  all_goals simp [iteU .., apply_ite Prod.snd, apply_ite Prod.fst]

theorem calApply_only (s : State) (n kind : Nat) (offs gains : List Int) : Only.nvmFe (calApply s n kind offs gains) s := by
  simp only [calApply, Only.nvmFe]
  all_goals simp [calEntry_only .., setSlice_only .., iteU .., apply_ite Prod.snd, apply_ite Prod.fst]

theorem reconnect_only (s : State) (l : Nat) : Only.fe (reconnect s l) s := by
  simp only [reconnect, Only.fe]
  all_goals ((repeat' split) <;> simp [closeConns_only .., openList_only .., iteU .., apply_ite Prod.snd, apply_ite Prod.fst])

theorem listsStart_only (s : State) : Only.engFe (listsStart s) s := by
  simp only [listsStart, Only.engFe]
  all_goals simp [blankEntries_only .., iteU .., apply_ite Prod.snd, apply_ite Prod.fst]

theorem feStart_only (s : State) : Only.engFe (feStart s) s := by
  simp only [feStart, Only.engFe]
  all_goals simp [listsStart_only .., iteU .., apply_ite Prod.snd, apply_ite Prod.fst]

theorem feRestart_only (s : State) : Only.engFe (feRestart s) s := by
  simp only [feRestart, Only.engFe]
  all_goals simp [listsStart_only .., iteU .., apply_ite Prod.snd, apply_ite Prod.fst]

theorem setTile_only (s : State) (p : Nat) (x : Tile) : Only.prf (setTile s p x) s := by
  simp only [setTile, Only.prf]
  all_goals simp [iteU .., apply_ite Prod.snd, apply_ite Prod.fst]

theorem setLt_only (s : State) (t : Nat) (x : LTile) : Only.eng (setLt s t x) s := by
  simp only [setLt, Only.eng]
  all_goals simp [iteU .., apply_ite Prod.snd, apply_ite Prod.fst]

theorem countSkip_only (s : State) : Only.eng (countSkip s) s := by
  simp only [countSkip, Only.eng]
  all_goals simp [iteU .., apply_ite Prod.snd, apply_ite Prod.fst]

theorem withhold_only (s : State) (t : Nat) : Only.eng (withhold s t) s := by
  simp only [withhold, Only.eng]
  all_goals simp [setLt_only .., iteU .., apply_ite Prod.snd, apply_ite Prod.fst]

theorem tileFrame_only (s : State) (t g : Nat) : Only.raise (tileFrame s t g) s := by
  simp only [tileFrame, Only.raise]
  all_goals first
    | (simp [countSkip_only .., raiseU_only .., setLt_only .., withhold_only .., iteU .., apply_ite Prod.snd, apply_ite
        Prod.fst]; done)
    | ((repeat' split) <;> simp [countSkip_only .., raiseU_only .., setLt_only .., withhold_only .., iteU .., apply_ite
        Prod.snd, apply_ite Prod.fst])

theorem tileFrames_only (s : State) (g : Nat) (x0 : List Nat) : Only.raise (tileFrames s g x0) s := by
  induction x0 generalizing s g with
  | nil => simp [tileFrames, Only.raise]
  | cons y ys ih =>
    simp only [Only.raise, tileFrames] at ih ⊢
    simp [ih, tileFrame_only .., iteU .., apply_ite Prod.snd, apply_ite Prod.fst]

theorem bgSegments_only (s : State) (x0 : List Nat) : Only.prf (bgSegments s x0) s := by
  induction x0 generalizing s with
  | nil => simp [bgSegments, Only.prf]
  | cons y ys ih =>
    simp only [Only.prf, bgSegments] at ih ⊢
    simp [ih, setTile_only .., iteU .., apply_ite Prod.snd, apply_ite Prod.fst]

theorem nextFrame_only (s : State) : Only.raisePrf (nextFrame s) s := by
  simp only [nextFrame, Only.raisePrf]
  all_goals simp [bgSegments_only .., causeOff_only .., tileFrames_only .., iteU .., apply_ite Prod.snd, apply_ite Prod.fst]

theorem afterRun_only (s : State) (tile : Nat) (x0 : RunLog) : Only.recrEng (afterRun s tile x0) s := by
  induction x0 generalizing s with
  | nil => simp [afterRun, Only.recrEng]
  | cons y ys ih =>
    obtain ⟨a, b, c⟩ := y
    simp only [Only.recrEng] at ih ⊢
    simp [afterRun, ih, countSats_only ..]

theorem runEntry_only (s : State) (tile f task : Nat) : Only.recrEng (runEntry s tile f task) s := by
  simp only [runEntry, Only.recrEng]
  all_goals ((repeat' split) <;> simp [afterRun_only .., setLt_only .., iteU .., apply_ite Prod.snd, apply_ite Prod.fst])

theorem deliver_only (s : State) (tile : Nat) (o : OutCfg) (x : BIn) : Only.engSw (deliver s tile o x) s := by
  simp only [deliver, Only.engSw]
  all_goals simp [putVal_only .., iteU .., apply_ite Prod.snd, apply_ite Prod.fst]

theorem delivers_only (s : State) (tile : Nat) (x0 : List (OutCfg × Option BIn)) : Only.engSw (delivers s tile x0) s := by
  induction x0 generalizing s with
  | nil => simp [delivers, Only.engSw]
  | cons y ys ih =>
    obtain ⟨o, _ | x⟩ := y
    · simpa [delivers] using ih s
    · simp only [delivers]
      have h1 := ih (deliver s tile o x)
      have h2 := deliver_only s tile o x
      simp only [Only.engSw] at h1 h2 ⊢
      simp [h1, h2]

theorem publishAlarm_only (s : State) (tile : Nat) (c : InstCfg) (on : Bool) : Only.raise (publishAlarm s tile c on) s := by
  simp only [publishAlarm, Only.raise]
  all_goals simp [causeOff_only .., raise_only .., iteU .., apply_ite Prod.snd, apply_ite Prod.fst]

end Sys2Proof.Machine
end

