-- ==== Sys2Proof/Laws/FramesC.lean ====
section
/-! SUPPORT. Frames of the shared operations, part 3 of 4: for each operation the units that it alone may change, in the order of the
Machine files. A later proof cites `<operation>_only` and never unfolds the operation. -/

set_option linter.unusedSimpArgs false
set_option linter.unusedVariables false
set_option maxRecDepth 8000

namespace Sys2Proof.Machine

open Sys2Proof

theorem publishSfrz_only (s : State) (inst : Nat) (on : Bool) : Only.engStb (publishSfrz s inst on) s := by
  simp only [publishSfrz, Only.engStb]
  all_goals simp [freezeDrop_only .., iteU .., apply_ite Prod.snd, apply_ite Prod.fst]

theorem publishPub_only (s : State) (c : InstCfg) (x : BIn) : Only.can (publishPub s c x) s := by
  simp only [publishPub, Only.can]
  all_goals simp [pubSend_only .., iteU .., apply_ite Prod.snd, apply_ite Prod.fst]

theorem publishInst_only (s : State) (tile f : Nat) (c : InstCfg) (r : BRes) : Only.raiseNvmStbCan (publishInst s tile f c r)
    s := by
  simp only [publishInst, Only.raiseNvmStbCan]
  all_goals first
    | (simp [delivers_only .., publishAlarm_only .., publishPub_only .., publishSfrz_only .., iteU .., apply_ite Prod.snd,
        apply_ite Prod.fst]; done)
    | ((repeat' split) <;> simp [delivers_only .., publishAlarm_only .., publishPub_only .., publishSfrz_only .., iteU ..,
        apply_ite Prod.snd, apply_ite Prod.fst])

theorem publishAll_only (s : State) (tile f : Nat) (x0 : List (Nat × BRes)) : Only.raiseNvmStbCan (publishAll s tile f x0) s
    := by
  induction x0 generalizing s tile f with
  | nil => simp [publishAll, Only.raiseNvmStbCan]
  | cons y ys ih =>
    simp only [Only.raiseNvmStbCan, publishAll] at ih ⊢
    first
      | (simp [ih, publishInst_only .., iteU .., apply_ite Prod.snd, apply_ite Prod.fst]; done)
      | ((repeat' split) <;> simp [ih, publishInst_only .., iteU .., apply_ite Prod.snd, apply_ite Prod.fst])

theorem publishFrame_only (s : State) (tile f : Nat) : Only.raiseNvmStbCan (publishFrame s tile f) s := by
  simp only [publishFrame, Only.raiseNvmStbCan]
  all_goals simp [publishAll_only .., setLt_only .., iteU .., apply_ite Prod.snd, apply_ite Prod.fst]

theorem assignTiles_only (s : State) : Only.prf (assignTiles s) s := by
  simp only [assignTiles, Only.prf]
  all_goals simp [iteU .., apply_ite Prod.snd, apply_ite Prod.fst]

theorem loadTable_only (s : State) (t p : Nat) : Only.prf (loadTable s t p) s := by
  simp only [loadTable, Only.prf]
  all_goals simp [setTile_only .., iteU .., apply_ite Prod.snd, apply_ite Prod.fst]

theorem loadTables_only (s : State) (x0 : List Nat) : Only.prf (loadTables s x0) s := by
  induction x0 generalizing s with
  | nil => simp [loadTables, Only.prf]
  | cons y ys ih =>
    simp only [Only.prf, loadTables] at ih ⊢
    (repeat' split) <;> simp [ih, loadTable_only .., iteU .., apply_ite Prod.snd, apply_ite Prod.fst]

theorem migNote_only (s : State) (logical from_ dst minor : Nat) : Only.prf (migNote s logical from_ dst minor) s := by
  simp only [migNote, Only.prf]
  all_goals simp [iteU .., apply_ite Prod.snd, apply_ite Prod.fst]

theorem retireSpare_only (s : State) (p : Nat) : Only.raisePwrNvmPrfAdm (retireSpare s p) s := by
  simp only [retireSpare, Only.raisePwrNvmPrfAdm]
  all_goals simp [assignTiles_only .., newDefect_only .., rerunDue_only .., setTile_only .., iteU .., apply_ite Prod.snd,
    apply_ite Prod.fst]

theorem barFrame_only (s : State) (t g : Nat) : Only.eng (barFrame s t g) s := by
  simp only [barFrame, Only.eng]
  all_goals simp [setLt_only .., withhold_only .., iteU .., apply_ite Prod.snd, apply_ite Prod.fst]

theorem migEnds_only (s : State) : Only.eng (migEnds s) s := by
  simp only [migEnds, Only.eng]
  all_goals simp [iteU .., apply_ite Prod.snd, apply_ite Prod.fst]

theorem migrate_only (s : State) (t p minor g : Nat) : Only.raisePwrNvmPrf (migrate s t p minor g) s := by
  simp only [migrate, Only.raisePwrNvmPrf]
  all_goals ((repeat' split) <;> simp [mapStore_only .., migEnds_only .., migNote_only .., raiseU_only .., setLt_only .., iteU
    .., apply_ite Prod.snd, apply_ite Prod.fst])

theorem tableFail_only (s : State) (t p : Nat) : Only.raisePwrNvmPrf (tableFail s t p) s := by
  simp only [tableFail, Only.raisePwrNvmPrf]
  all_goals ((repeat' split) <;> simp [barFrame_only .., migrate_only .., setTile_only .., withhold_only .., iteU ..,
    apply_ite Prod.snd, apply_ite Prod.fst])

theorem tileFail_only (s : State) (t : Nat) : Only.raisePwrNvmPrfAdm (tileFail s t) s := by
  simp only [tileFail, Only.raisePwrNvmPrfAdm]
  all_goals first
    | (simp [retireSpare_only .., setTile_only .., tableFail_only .., withhold_only .., iteU .., apply_ite Prod.snd, apply_ite
        Prod.fst]; done)
    | ((repeat' split) <;> simp [retireSpare_only .., setTile_only .., tableFail_only .., withhold_only .., iteU .., apply_ite
        Prod.snd, apply_ite Prod.fst])

theorem lateFails_only (s : State) (x0 : List Nat) : Only.raisePwrNvmPrfAdm (lateFails s x0) s := by
  induction x0 generalizing s with
  | nil => simp [lateFails, Only.raisePwrNvmPrfAdm]
  | cons y ys ih =>
    simp only [Only.raisePwrNvmPrfAdm, lateFails] at ih ⊢
    (repeat' split) <;> simp [ih, tableFail_only .., iteU .., apply_ite Prod.snd, apply_ite Prod.fst]

theorem loadFail_only (s : State) (l : MigLoad) : Only.raisePwrNvmPrf (loadFail s l) s := by
  simp only [loadFail, Only.raisePwrNvmPrf]
  all_goals simp [barFrame_only .., mapStore_only .., migrate_only .., setTile_only .., iteU .., apply_ite Prod.snd, apply_ite
    Prod.fst]

theorem sparesLow_only (s : State) : Only.raise (sparesLow s) s := by
  simp only [sparesLow, Only.raise]
  all_goals simp [raiseU_only .., iteU .., apply_ite Prod.snd, apply_ite Prod.fst]

theorem loadEnd_only (s : State) (x : MigLoad) : Only.raisePwrNvmPrf (loadEnd s x) s := by
  simp only [loadEnd, Only.raisePwrNvmPrf]
  all_goals simp [loadTable_only .., mapStore_only .., migEnds_only .., migNote_only .., pulse_only .., setTile_only ..,
    sparesLow_only .., withhold_only .., iteU .., apply_ite Prod.snd, apply_ite Prod.fst]

theorem keeperRetire_only (s : State) (k : Nat) : Only.raise (keeperRetire s k) s := by
  simp only [keeperRetire, Only.raise]
  all_goals simp [raiseU_only .., iteU .., apply_ite Prod.snd, apply_ite Prod.fst]

theorem keeperCause_only (s : State) : Only.fltRecr (keeperCause s) s := by
  simp only [keeperCause, Only.fltRecr]
  all_goals simp [causeOff_only .., iteU .., apply_ite Prod.snd, apply_ite Prod.fst]

theorem miscompare_only (s : State) (k port : Nat) : Only.raise (miscompare s k port) s := by
  simp only [miscompare, Only.raise]
  all_goals simp [keeperCause_only .., keeperRetire_only .., raiseU_only .., iteU .., apply_ite Prod.snd, apply_ite Prod.fst]

theorem keeperSplit_only (s : State) : Only.settleFreeRstStrapsPwrNvmPrfPltAdmMnsCalCanSynSvc (keeperSplit s) s := by
  simp only [keeperSplit, Only.settleFreeRstStrapsPwrNvmPrfPltAdmMnsCalCanSynSvc]
  all_goals simp [raiseFatal_only .., iteU .., apply_ite Prod.snd, apply_ite Prod.fst]

theorem setLink_only (s : State) (d : Nat) (x : Link) : Only.spn (setLink s d x) s := by
  simp only [setLink, Only.spn]
  all_goals simp [iteU .., apply_ite Prod.snd, apply_ite Prod.fst]

theorem setFreeze_only (s : State) (n : Nat) : Only.spnFe (setFreeze s n) s := by
  simp only [setFreeze, Only.spnFe]
  all_goals simp [modArb_only .., setList_only .., iteU .., apply_ite Prod.snd, apply_ite Prod.fst]

theorem clearFreeze_only (s : State) (n : Nat) : Only.pwrNvmRecrPrfSpnFe (clearFreeze s n) s := by
  simp only [clearFreeze, Only.pwrNvmRecrPrfSpnFe]
  all_goals simp [arbMoved_only .., canFresh_only .., modArb_only .., setList_only .., iteU .., apply_ite Prod.snd, apply_ite
    Prod.fst]

theorem setFreezes_only (s : State) (x0 : List Nat) : Only.spnFe (setFreezes s x0) s := by
  induction x0 generalizing s with
  | nil => simp [setFreezes, Only.spnFe]
  | cons y ys ih =>
    simp only [Only.spnFe, setFreezes] at ih ⊢
    simp [ih, setFreeze_only .., iteU .., apply_ite Prod.snd, apply_ite Prod.fst]

theorem clearFreezes_only (s : State) (x0 : List Nat) : Only.pwrNvmRecrPrfSpnFe (clearFreezes s x0) s := by
  induction x0 generalizing s with
  | nil => simp [clearFreezes, Only.pwrNvmRecrPrfSpnFe]
  | cons y ys ih =>
    simp only [Only.pwrNvmRecrPrfSpnFe, clearFreezes] at ih ⊢
    simp [ih, clearFreeze_only .., iteU .., apply_ite Prod.snd, apply_ite Prod.fst]

theorem laneWorn_only (s : State) (d lane : Nat) : Only.raiseFe (laneWorn s d lane) s := by
  simp only [laneWorn, Only.raiseFe]
  all_goals simp [pulse_only .., setFreezes_only .., setLink_only .., iteU .., apply_ite Prod.snd, apply_ite Prod.fst]

theorem laneCorrected_only (s : State) (d lane : Nat) : Only.raiseFe (laneCorrected s d lane) s := by
  simp only [laneCorrected, Only.raiseFe]
  all_goals simp [laneWorn_only .., setLink_only .., iteU .., apply_ite Prod.snd, apply_ite Prod.fst]

theorem portTileFail_only (s : State) (port : Nat) : Only.raisePwrNvmPrfAdm (portTileFail s port) s := by
  simp only [portTileFail, Only.raisePwrNvmPrfAdm]
  all_goals first
    | (simp [loadFail_only .., retireSpare_only .., tileFail_only .., iteU .., apply_ite Prod.snd, apply_ite Prod.fst]; done)
    | ((repeat' split) <;> simp [loadFail_only .., retireSpare_only .., tileFail_only .., iteU .., apply_ite Prod.snd,
        apply_ite Prod.fst])

theorem poisoned_only (s : State) (src dst : Nat) : Only.raisePwrNvmPrfAdm (poisoned s src dst) s := by
  simp only [poisoned, Only.raisePwrNvmPrfAdm]
  all_goals simp [portTileFail_only .., pulse_only .., iteU .., apply_ite Prod.snd, apply_ite Prod.fst]

theorem setCross_only (s : State) (d : Nat) (c : Option Cross) : Only.spn (setCross s d c) s := by
  simp only [setCross, Only.spn]
  all_goals simp [iteU .., apply_ite Prod.snd, apply_ite Prod.fst]

theorem releasePort_only (s : State) (port : Option Nat) : Only.spn (releasePort s port) s := by
  simp only [releasePort, Only.spn]
  all_goals ((repeat' split) <;> simp [modArb_only .., iteU .., apply_ite Prod.snd, apply_ite Prod.fst])

theorem leaveLink_only (s : State) (d : Nat) : Only.spn (leaveLink s d) s := by
  simp only [leaveLink, Only.spn]
  all_goals simp [releasePort_only .., setCross_only .., iteU .., apply_ite Prod.snd, apply_ite Prod.fst]

theorem arrive_only (s : State) (c : Cross) : Only.raisePwrNvmPrfAdm (arrive s c) s := by
  simp only [arrive, Only.raisePwrNvmPrfAdm]
  all_goals simp [poisoned_only .., iteU .., apply_ite Prod.snd, apply_ite Prod.fst]

theorem crossWord_only (s : State) (d : Nat) (c : Cross) (wrong : Bool) : Only.raisePwrNvmPrfAdm (crossWord s d c wrong) s :=
    by
  simp only [crossWord, Only.raisePwrNvmPrfAdm]
  all_goals simp [arrive_only .., leaveLink_only .., setCross_only .., iteU .., apply_ite Prod.snd, apply_ite Prod.fst]

theorem leaveLinks_only (s : State) (x0 : List Nat) : Only.spn (leaveLinks s x0) s := by
  induction x0 generalizing s with
  | nil => simp [leaveLinks, Only.spn]
  | cons y ys ih =>
    simp only [Only.spn, leaveLinks] at ih ⊢
    simp [ih, leaveLink_only .., iteU .., apply_ite Prod.snd, apply_ite Prod.fst]

theorem passLinks_only (s : State) (c : Cross) (x0 : List Nat) : Only.spn (passLinks s c x0) s := by
  induction x0 generalizing s c with
  | nil => simp [passLinks, Only.spn]
  | cons y ys ih =>
    simp only [Only.spn, passLinks] at ih ⊢
    simp [ih, iteU .., apply_ite Prod.snd, apply_ite Prod.fst]

theorem endPacket_only (s : State) (c : Cross) : Only.raisePwrNvmPrfAdm (endPacket s c) s := by
  simp only [endPacket, Only.raisePwrNvmPrfAdm]
  all_goals simp [leaveLinks_only .., passLinks_only .., poisoned_only .., iteU .., apply_ite Prod.snd, apply_ite Prod.fst]

theorem sramEntry_only (s : State) (row : Nat) : Only.pwrNvmRecrPrfSpn (sramEntry s row) s := by
  simp only [sramEntry, Only.pwrNvmRecrPrfSpn]
  all_goals simp [mapStore_only .., iteU .., apply_ite Prod.snd, apply_ite Prod.fst]

theorem sramEntries_only (s : State) (x0 : List Nat) : Only.pwrNvmRecrPrfSpn (sramEntries s x0) s := by
  induction x0 generalizing s with
  | nil => simp [sramEntries, Only.pwrNvmRecrPrfSpn]
  | cons y ys ih =>
    simp only [Only.pwrNvmRecrPrfSpn, sramEntries] at ih ⊢
    simp [ih, sramEntry_only .., iteU .., apply_ite Prod.snd, apply_ite Prod.fst]

theorem sramEnd_only (s : State) (b : Nat) : Only.pwrNvmRecrPrfSpn (sramEnd s b) s := by
  simp only [sramEnd, Only.pwrNvmRecrPrfSpn]
  all_goals simp [sramEntries_only .., iteU .., apply_ite Prod.snd, apply_ite Prod.fst]

theorem swapLane_only (s : State) (d lane : Nat) : Only.pwrNvmRecrPrfSpnFe (swapLane s d lane) s := by
  simp only [swapLane, Only.pwrNvmRecrPrfSpnFe]
  all_goals simp [addRecord_only .., clearFreezes_only .., mapStore_only .., setLink_only .., iteU .., apply_ite Prod.snd,
    apply_ite Prod.fst]

theorem onceWritten_only (s : State) (l : Nat) (w : Word) : Only.recrSvc (onceWritten s l w) s := by
  simp only [onceWritten, Only.recrSvc]
  all_goals simp [addRecord_only .., iteU .., apply_ite Prod.snd, apply_ite Prod.fst]

theorem storeRest_only (s : State) (t : Store) : Only.nvm (storeRest s t) s := by
  simp only [storeRest, Only.nvm]
  all_goals ((repeat' split) <;> simp [iteU .., apply_ite Prod.snd, apply_ite Prod.fst])

theorem secondStore_only (s : State) (b : Nat) (t : Store) : Only.nvm (secondStore s b t) s := by
  simp only [secondStore, Only.nvm]
  all_goals simp [iteU .., apply_ite Prod.snd, apply_ite Prod.fst]

theorem dropRewrites_only (s : State) (l : Nat) : Only.pwrNvm (dropRewrites s l) s := by
  simp only [dropRewrites, Only.pwrNvm]
  all_goals simp [iteU .., apply_ite Prod.snd, apply_ite Prod.fst]

theorem programWord_only (s : State) (t : Store) (x : Nat × Word) (differs : Bool) : Only.freePwrNvmRecr (programWord s t x
    differs) s := by
  simp only [programWord, Only.freePwrNvmRecr]
  all_goals simp [dropRewrites_only .., markW0_only .., tearWord_only .., iteU .., apply_ite Prod.snd, apply_ite Prod.fst]

theorem wordTurn_only (s : State) (b : Nat) (t : Store) (x : Nat × Word) (o : WordOut) :
    Only.freePwrNvmRecrSvc (wordTurn s b t x o) s := by
  unfold wordTurn
  cases o <;> (repeat' split) <;>
    simp_all [Only.freePwrNvmRecrSvc, dropHand_only .., onceWritten_only .., programWord_only .., secondStore_only .., storeRest_only ..]

theorem imageErased_only (s : State) (slot row : Nat) : Only.pwrNvmRecrPrfSpnSvc (imageErased s slot row) s := by
  simp only [imageErased, Only.pwrNvmRecrPrfSpnSvc]
  all_goals simp [requestErase_only .., storeWord_only .., iteU .., apply_ite Prod.snd, apply_ite Prod.fst]

theorem eraseDone_only (s : State) (b : Nat) (e : EraseSeq) : Only.pwrNvmRecrPrfSpnSvc (eraseDone s b e) s := by
  simp only [eraseDone, Only.pwrNvmRecrPrfSpnSvc]
  all_goals first
    | (simp [imageErased_only .., iteU .., apply_ite Prod.snd, apply_ite Prod.fst]; done)
    | ((repeat' split) <;> simp [imageErased_only .., iteU .., apply_ite Prod.snd, apply_ite Prod.fst])

theorem eraseSkipped_only (s : State) (row : Nat) (o : Owner) : Only.pwrNvmRecrPrfSpnSvc (eraseSkipped s row o) s := by
  simp only [eraseSkipped, Only.pwrNvmRecrPrfSpnSvc]
  all_goals ((repeat' split) <;> simp [imageErased_only .., skipRow_only .., iteU .., apply_ite Prod.snd, apply_ite Prod.fst])

theorem eraseFailed_only (s : State) (b : Nat) (e : EraseSeq) : Only.raisePwrNvmPrfSvc (eraseFailed s b e) s := by
  simp only [eraseFailed, Only.raisePwrNvmPrfSvc]
  all_goals simp [eraseSkipped_only .., requestErase_only .., wantRetire_only .., iteU .., apply_ite Prod.snd, apply_ite
    Prod.fst]

theorem sparesGone_only (s : State) (b row : Nat) : Only.raisePwrNvmPrfSvc (sparesGone s b row) s := by
  simp only [sparesGone, Only.raisePwrNvmPrfSvc]
  all_goals ((repeat' split) <;> simp [eraseSkipped_only .., nextErase_only .., raiseU_only .., iteU .., apply_ite Prod.snd,
    apply_ite Prod.fst])

theorem pulseEnd_only (s : State) (b : Nat) (e : EraseSeq) (blank : Bool) : Only.raisePwrNvmPrfSvc (pulseEnd s b e blank) s :=
    by
  simp only [pulseEnd, Only.raisePwrNvmPrfSvc]
  all_goals simp [bankRelease_only .., checkWear_only .., dropHand_only .., eraseDone_only .., eraseFailed_only ..,
    nextErase_only .., requestStore_only .., iteU .., apply_ite Prod.snd, apply_ite Prod.fst]

theorem degrade_only (s : State) (x : Nat × Bool) : Only.freeNvm (degrade s x) s := by
  simp only [degrade, Only.freeNvm]
  all_goals first
    | (simp [takeFree_only .., iteU .., apply_ite Prod.snd, apply_ite Prod.fst]; done)
    | ((repeat' split) <;> simp [takeFree_only .., iteU .., apply_ite Prod.snd, apply_ite Prod.fst])

theorem degrades_only (s : State) (x0 : List (Nat × Bool)) : Only.freeNvm (degrades s x0) s := by
  induction x0 generalizing s with
  | nil => simp [degrades, Only.freeNvm]
  | cons y ys ih =>
    simp only [Only.freeNvm, degrades] at ih ⊢
    simp [ih, degrade_only .., iteU .., apply_ite Prod.snd, apply_ite Prod.fst]

theorem scrubWord_only (s : State) (l : Nat) : Only.raisePwrNvmPrf (scrubWord s l) s := by
  simp only [scrubWord, Only.raisePwrNvmPrf]
  all_goals first
    | (simp [correctedFound_only .., storeWord_only .., uncorrFound_only .., wantRetire_only .., iteU .., apply_ite Prod.snd,
        apply_ite Prod.fst]; done)
    | ((repeat' split) <;> simp [correctedFound_only .., storeWord_only .., uncorrFound_only .., wantRetire_only .., iteU ..,
        apply_ite Prod.snd, apply_ite Prod.fst])

theorem scrubWords_only (s : State) (x0 : List Nat) : Only.raisePwrNvmPrf (scrubWords s x0) s := by
  induction x0 generalizing s with
  | nil => simp [scrubWords, Only.raisePwrNvmPrf]
  | cons y ys ih =>
    simp only [Only.raisePwrNvmPrf, scrubWords] at ih ⊢
    simp [ih, scrubWord_only .., iteU .., apply_ite Prod.snd, apply_ite Prod.fst]

theorem scrubPacket_only (s : State) (b : Nat) : Only.raisePwrNvmPrf (scrubPacket s b) s := by
  simp only [scrubPacket, Only.raisePwrNvmPrf]
  all_goals simp [scrubWords_only .., iteU .., apply_ite Prod.snd, apply_ite Prod.fst]

theorem scrubProgress_only (k : Nat) (s : State) : Only.pwrNvmRecrPrfSpn (scrubProgress k s) s := by
  induction k generalizing s with
  | zero => simp [scrubProgress, Only.pwrNvmRecrPrfSpn]
  | succ k ih =>
    simp only [Only.pwrNvmRecrPrfSpn, scrubProgress] at ih ⊢
    (repeat' split) <;> simp [ih, storeWord_only ..]

theorem scrubPassEnd_only (s : State) : Only.nvmFltRecr (scrubPassEnd s) s := by
  simp only [scrubPassEnd, Only.nvmFltRecr]
  all_goals simp [causeOff_only .., iteU .., apply_ite Prod.snd, apply_ite Prod.fst]

theorem readEnd_only (s : State) (b : Nat) (t : Store) : Only.raisePwrNvmPrf (readEnd s b t) s := by
  simp only [readEnd, Only.raisePwrNvmPrf]
  all_goals simp [bankRelease_only .., dropHand_only .., scrubPacket_only .., scrubPassEnd_only .., scrubProgress_only ..,
    iteU .., apply_ite Prod.snd, apply_ite Prod.fst]

theorem readsRun_only (b : Nat) (o : Owner) (k : Nat) (s : State) : Only.raisePwrNvmPrf (readsRun b o k s) s := by
  induction k generalizing s with
  | zero => simp [readsRun, Only.raisePwrNvmPrf]
  | succ k ih =>
    simp only [Only.raisePwrNvmPrf, readsRun] at ih ⊢
    (repeat' split) <;> simp [ih, readEnd_only ..]

theorem askReads_only (s : State) (b : Nat) (o : Owner) (k : Nat) : Only.pwrNvmRecrPrfSpn (askReads s b o k) s := by
  simp only [askReads, Only.pwrNvmRecrPrfSpn]
  all_goals simp [bankAsk_only .., iteU .., apply_ite Prod.snd, apply_ite Prod.fst]

theorem recReads_only (s t : State) (n : Nat) (h : recReads s n = some t) : Only.raisePwrNvmPrf t s := by
  simp only [recReads] at h
  split at h
  · cases h
  · cases h
    simp [Only.raisePwrNvmPrf, readsRun_only .., askReads_only ..]

theorem scrubBank_only (s : State) (b : Nat) : Only.raisePwrNvmPrf (scrubBank s b) s := by
  simp only [scrubBank, Only.raisePwrNvmPrf]
  all_goals simp [askReads_only .., readsRun_only .., iteU .., apply_ite Prod.snd, apply_ite Prod.fst]

theorem scrubBanks_only (s : State) (x0 : List Nat) : Only.raisePwrNvmPrf (scrubBanks s x0) s := by
  induction x0 generalizing s with
  | nil => simp [scrubBanks, Only.raisePwrNvmPrf]
  | cons y ys ih =>
    simp only [Only.raisePwrNvmPrf, scrubBanks] at ih ⊢
    simp [ih, scrubBank_only .., iteU .., apply_ite Prod.snd, apply_ite Prod.fst]

theorem sparesCheck_only (s : State) (b : Nat) : Only.raiseNvm (sparesCheck s b) s := by
  simp only [sparesCheck, Only.raiseNvm]
  all_goals simp [raiseU_only .., sparesLow_only .., iteU .., apply_ite Prod.snd, apply_ite Prod.fst]

theorem setRetire_only (s : State) (r : Option Retire) : Only.nvm (setRetire s r) s := by
  simp only [setRetire, Only.nvm]
  all_goals simp [iteU .., apply_ite Prod.snd, apply_ite Prod.fst]

theorem mapRestored_only (s : State) (b row : Nat) : Only.fltRecrPrf (mapRestored s b row) s := by
  simp only [mapRestored, Only.fltRecrPrf]
  all_goals simp [causeOff_only .., iteU .., apply_ite Prod.snd, apply_ite Prod.fst]

theorem wearReset_only (s : State) (row : Nat) : Only.pwrNvm (wearReset s row) s := by
  simp only [wearReset, Only.pwrNvm]
  all_goals simp [iteU .., apply_ite Prod.snd, apply_ite Prod.fst]

theorem redirectRow_only (s : State) (r : Retire) : Only.pwrNvmFltRecrPrfSpnFe (redirectRow s r) s := by
  simp only [redirectRow, Only.pwrNvmFltRecrPrfSpnFe]
  all_goals simp [clearFreeze_only .., mapRestored_only .., setRetire_only .., wearReset_only .., iteU .., apply_ite Prod.snd,
    apply_ite Prod.fst]

theorem askCopy_only (s : State) (l : Nat) : Only.pwrNvmRecrPrfSpn (askCopy s l) s := by
  simp only [askCopy, Only.pwrNvmRecrPrfSpn]
  all_goals simp [requestStore_only .., iteU .., apply_ite Prod.snd, apply_ite Prod.fst]

theorem retireAsk_only (s : State) (r : Retire) : Only.pwrNvmRecrPrfSpnFe (retireAsk s r) s := by
  simp only [retireAsk, Only.pwrNvmRecrPrfSpnFe]
  all_goals ((repeat' split) <;> simp [askCopy_only .., askReads_only .., clearFreeze_only .., mapStoreAs_only ..,
    setFreeze_only .., setRetire_only .., storeWord_only .., iteU .., apply_ite Prod.snd, apply_ite Prod.fst])

theorem retireDone_only (s : State) (r : Retire) : Only.raisePwrNvmPrf (retireDone s r) s := by
  simp only [retireDone, Only.raisePwrNvmPrf]
  all_goals simp [addRecord_only .., nextErase_only .., setRetire_only .., sparesCheck_only .., iteU .., apply_ite Prod.snd,
    apply_ite Prod.fst]

theorem retireStored_only (s : State) (o : Owner) (l : Nat) : Only.raisePwrNvmPrfFe (retireStored s o l) s := by
  simp only [retireStored, Only.raisePwrNvmPrfFe]
  all_goals ((repeat' split) <;> simp [redirectRow_only .., retireAsk_only .., retireDone_only .., setRetire_only .., iteU ..,
    apply_ite Prod.snd, apply_ite Prod.fst])

theorem retireSpareBad_only (s : State) (r : Retire) : Only.raisePwrNvmPrfSvc (retireSpareBad s r) s := by
  simp only [retireSpareBad, Only.raisePwrNvmPrfSvc]
  all_goals ((repeat' split) <;> simp [mapStore_only .., setRetire_only .., sparesGone_only .., iteU .., apply_ite Prod.snd,
    apply_ite Prod.fst])

theorem retireStep_only (s : State) (r : Retire) (differs : Bool) : Only.raisePwrNvmPrfFeSvc (retireStep s r differs) s := by
  simp only [retireStep, Only.raisePwrNvmPrfFeSvc]
  all_goals simp [readsRun_only .., retireAsk_only .., retireSpareBad_only .., setRetire_only .., iteU .., apply_ite Prod.snd,
    apply_ite Prod.fst]

theorem retireNext_only (s : State) : Only.raisePwrNvmPrfSvc (retireNext s) s := by
  simp only [retireNext, Only.raisePwrNvmPrfSvc]
  all_goals ((repeat' split) <;> simp [setRetire_only .., sparesGone_only .., iteU .., apply_ite Prod.snd, apply_ite
    Prod.fst])

theorem ownerDone_only (s : State) (t : Store) (x : Nat × Word) : Only.raisePwrNvmPrfFeSyn (ownerDone s t x) s := by
  simp only [ownerDone, Only.raisePwrNvmPrfFeSyn]
  all_goals first
    | (simp [recStored_only .., retireStored_only .., iteU .., apply_ite Prod.snd, apply_ite Prod.fst]; done)
    | ((repeat' split) <;> simp [recStored_only .., retireStored_only .., iteU .., apply_ite Prod.snd, apply_ite Prod.fst])

theorem wordEnd_only (s : State) (b : Nat) (t : Store) (x : Nat × Word) (differs : Bool) : Only.raiseFreePwrNvmPrfFeSynSvc
    (wordEnd s b t x differs) s := by
  simp only [wordEnd, Only.raiseFreePwrNvmPrfFeSynSvc]
  all_goals ((repeat' split) <;> simp [bankAsk_only .., bankRelease_only .., checkWear_only .., chunkOver_only ..,
    ownerDone_only .., wantRetire_only .., wordTurn_only .., iteU .., apply_ite Prod.snd, apply_ite Prod.fst])

theorem chunkRun_only (k : Nat) (s : State) : Only.raiseFreePwrNvmPrfFeSynSvc (chunkRun k s) s := by
  induction k generalizing s with
  | zero => simp [chunkRun, Only.raiseFreePwrNvmPrfFeSynSvc]
  | succ k ih =>
    simp only [Only.raiseFreePwrNvmPrfFeSynSvc, chunkRun] at ih ⊢
    (repeat' split) <;> simp [ih, wordEnd_only ..]

theorem startClear_only (s : State) (port : Word) : Only.pwrNvmRecrPrfSpn ((startClear s port).2) s := by
  simp only [startClear, Only.pwrNvmRecrPrfSpn]
  all_goals simp [beginChunk_only .., eraseNext_only .., iteU .., apply_ite Prod.snd, apply_ite Prod.fst]

theorem clearServe_only (k : Nat) (s : State) : Only.pwrNvmRecrPrfSpnCanSvc (clearServe k s) s := by
  induction k generalizing s with
  | zero => simp [clearServe, Only.pwrNvmRecrPrfSpnCanSvc]
  | succ k ih =>
    simp only [Only.pwrNvmRecrPrfSpnCanSvc, clearServe] at ih ⊢
    (repeat' split) <;>
      simp [ih, aheadCheck_only .., clearAnswer_only .., energyRefused_only .., readPin_only .., startClear_only ..]

theorem clearsServe_only (s : State) : Only.pwrNvmRecrPrfSpnCanSvc (clearsServe s) s := by
  simp only [clearsServe, Only.pwrNvmRecrPrfSpnCanSvc]
  all_goals simp [clearServe_only .., iteU .., apply_ite Prod.snd, apply_ite Prod.fst]

theorem recClear_only (s : State) (c : ClearReq) : Only.pwrNvmRecrPrfSpnCanSvc (recClear s c) s := by
  simp only [recClear, Only.pwrNvmRecrPrfSpnCanSvc]
  all_goals simp [clearsServe_only .., iteU .., apply_ite Prod.snd, apply_ite Prod.fst]

theorem wearStore_only (s : State) (row k : Nat) : Only.pwrNvmRecrPrfSpn (wearStore s row k) s := by
  simp only [wearStore, Only.pwrNvmRecrPrfSpn]
  all_goals simp [storeWord_only .., iteU .., apply_ite Prod.snd, apply_ite Prod.fst]

theorem passRow_only (s : State) (cs : List (Nat × Nat × Word)) (row : Nat) : Only.pwrNvmRecrPrfSpn (passRow s cs row) s := by
  simp only [passRow]
  split
  · simp [Only.pwrNvmRecrPrfSpn]
  · have h := wearStore_only
    have hf : ∀ (xs : List (Nat × Nat × Word)) (s : State),
        Only.pwrNvmRecrPrfSpn (xs.foldl (fun (t : State) c => storeWord t (.persistent c.1 c.2.1) (itemLoc c.1) c.2.2) s) s := by
      intro xs s
      exact foldl_rel Only.pwrNvmRecrPrfSpn (by intro s; simp [Only.pwrNvmRecrPrfSpn]) (by intro a b c h g; simp only [Only.pwrNvmRecrPrfSpn] at h g ⊢; simp [h, g]) _ (by intro s a; simp [Only.pwrNvmRecrPrfSpn, storeWord_only ..]) _ _
    simp only [Only.pwrNvmRecrPrfSpn] at h hf ⊢
    simp [h, hf]

theorem passRows_only (s : State) (cs : List (Nat × Nat × Word)) (x0 : List Nat) : Only.pwrNvmRecrPrfSpn (passRows s cs x0) s
    := by
  induction x0 generalizing s cs with
  | nil => simp [passRows, Only.pwrNvmRecrPrfSpn]
  | cons y ys ih =>
    simp only [Only.pwrNvmRecrPrfSpn, passRows] at ih ⊢
    simp [ih, passRow_only .., iteU .., apply_ite Prod.snd, apply_ite Prod.fst]

theorem calStores_only (s : State) (pass : Bool) (x0 : List Word) : Only.pwrNvmRecrPrfSpn (calStores s pass x0) s := by
  induction x0 generalizing s pass with
  | nil => simp [calStores, Only.pwrNvmRecrPrfSpn]
  | cons y ys ih =>
    simp only [Only.pwrNvmRecrPrfSpn, calStores] at ih ⊢
    simp [ih, storeWord_only .., wearStore_only .., iteU .., apply_ite Prod.snd, apply_ite Prod.fst]

theorem wearFurther_only (s : State) (row : Nat) : Only.pwrNvmRecrPrfSpn (wearFurther s row) s := by
  simp only [wearFurther, Only.pwrNvmRecrPrfSpn]
  all_goals simp [wearStore_only .., iteU .., apply_ite Prod.snd, apply_ite Prod.fst]

theorem passLayout_only (s : State) : Only.pwrNvmRecrPrfSpn (passLayout s) s := by
  simp only [passLayout, Only.pwrNvmRecrPrfSpn]
  all_goals simp [storeWord_only .., wearStore_only .., iteU .., apply_ite Prod.snd, apply_ite Prod.fst]

theorem persistentPass_only (s : State) : Only.pwrNvmRecrPrfSpn (persistentPass s) s := by
  have hf : ∀ (xs : List Nat) (s : State), Only.pwrNvmRecrPrfSpn (xs.foldl wearFurther s) s := by
    intro xs s
    exact foldl_rel Only.pwrNvmRecrPrfSpn (by intro s; simp [Only.pwrNvmRecrPrfSpn]) (by intro a b c h g; simp only [Only.pwrNvmRecrPrfSpn] at h g ⊢; simp [h, g]) _ (by intro s a; simp [Only.pwrNvmRecrPrfSpn, wearFurther_only ..]) _ _
  simp only [persistentPass, Only.pwrNvmRecrPrfSpn] at hf ⊢
  simp [hf, calStores_only .., passLayout_only .., passRows_only .., wearFurther_only ..]

theorem flushWord_only (s : State) (o : Owner) (l : Nat) (w : Word) : Only.pwrNvmRecrPrfSpn (flushWord s o l w) s := by
  simp only [flushWord, Only.pwrNvmRecrPrfSpn]
  all_goals simp [requestStore_only .., iteU .., apply_ite Prod.snd, apply_ite Prod.fst]

theorem flushItems_only (s : State) (x0 : List (Nat × Nat × Word)) : Only.pwrNvmRecrPrfSpn (flushItems s x0) s := by
  induction x0 generalizing s with
  | nil => simp [flushItems, Only.pwrNvmRecrPrfSpn]
  | cons y ys ih =>
    simp only [Only.pwrNvmRecrPrfSpn, flushItems] at ih ⊢
    simp [ih, flushWord_only .., iteU .., apply_ite Prod.snd, apply_ite Prod.fst]

theorem storeAuth_only (s : State) (flush : Bool) (x0 : List (Nat × Option Word)) : Only.pwrNvmRecrPrfSpn (storeAuth s flush
    x0) s := by
  induction x0 generalizing s flush with
  | nil => simp [storeAuth, Only.pwrNvmRecrPrfSpn]
  | cons y ys ih =>
    simp only [Only.pwrNvmRecrPrfSpn, storeAuth] at ih ⊢
    (repeat' split) <;> simp [ih, flushWord_only .., storeWord_only .., iteU .., apply_ite Prod.snd, apply_ite Prod.fst]

theorem flushChunks_only (s : State) : Only.pwrNvmRecrPrfSpn (flushChunks s) s := by
  simp only [flushChunks, Only.pwrNvmRecrPrfSpn]
  all_goals simp [aheadCheck_only .., startFlush_only .., iteU .., apply_ite Prod.snd, apply_ite Prod.fst]

theorem flushBegin_only (s : State) (k : Nat) : Only.pwrNvmRecrPrfSpn (flushBegin s k) s := by
  simp only [flushBegin, Only.pwrNvmRecrPrfSpn]
  all_goals ((repeat' split) <;> simp [calStores_only .., flushChunks_only .., flushItems_only .., storeAuth_only ..,
    storeWord_only .., iteU .., apply_ite Prod.snd, apply_ite Prod.fst])

theorem flushStep_only (s : State) : Only.pwrNvmRecrPrfSpn (flushStep s) s := by
  simp only [flushStep, Only.pwrNvmRecrPrfSpn]
  all_goals first
    | (simp [flushBegin_only .., iteU .., apply_ite Prod.snd, apply_ite Prod.fst]; done)
    | ((repeat' split) <;> simp [flushBegin_only .., iteU .., apply_ite Prod.snd, apply_ite Prod.fst])

theorem queueGone_only (s : State) : Only.fltRecr (queueGone s) s := by
  simp only [queueGone, Only.fltRecr]
  all_goals simp [causeOff_only .., iteU .., apply_ite Prod.snd, apply_ite Prod.fst]

theorem retryStore_only (s : State) (t : Store) : Only.pwrNvmFltRecrPrfSpn (retryStore s t) s := by
  simp only [retryStore, Only.pwrNvmFltRecrPrfSpn]
  all_goals simp [energyRefused_only .., queueGone_only .., refillQueue_only .., startStore_only .., tryChunk_only .., iteU
    .., apply_ite Prod.snd, apply_ite Prod.fst]

theorem mbTake_only (s : State) (n m : Nat) (e : LoadEnt) : Only.spnCan (mbTake s n m e) s := by
  simp only [mbTake, Only.spnCan]
  all_goals simp [canDecide_only .., setCan_only .., iteU .., apply_ite Prod.snd, apply_ite Prod.fst]

theorem xferLoad_only (s : State) (n : Nat) : Only.raisePwrNvmPrfCanSyn (xferLoad s n) s := by
  simp only [xferLoad]
  repeat' split
  case _ => simp [Only.raisePwrNvmPrfCanSyn]
  case _ => simp [Only.raisePwrNvmPrfCanSyn]
  case _ => simp [Only.raisePwrNvmPrfCanSyn]
  case _ => simp [Only.raisePwrNvmPrfCanSyn]
  case _ hr =>
    have h := recReads_only _ _ _ hr
    simp only [Only.raisePwrNvmPrfCanSyn] at h ⊢
    simp [h, entryFaultsAll_only .., setCan_only ..]

theorem loadReady_only (s : State) (n : Nat) : Only.raisePwrNvmPrfCanSyn (loadReady s n) s := by
  simp only [loadReady, Only.raisePwrNvmPrfCanSyn]
  all_goals simp [canPump_only .., xferLoad_only .., iteU .., apply_ite Prod.snd, apply_ite Prod.fst]

theorem mbFree_only (s : State) (n m : Nat) : Only.can (mbFree s n m) s := by
  simp only [mbFree, Only.can]
  all_goals simp [setCan_only .., iteU .., apply_ite Prod.snd, apply_ite Prod.fst]

theorem canTurnEnd_only (s : State) (n m : Nat) : Only.spnCan (canTurnEnd s n m) s := by
  simp only [canTurnEnd, Only.spnCan]
  all_goals simp [canDecide_only .., mbFree_only .., modArb_only .., iteU .., apply_ite Prod.snd, apply_ite Prod.fst]

theorem canErr_only (s : State) (n err : Nat) (data tx dom : Bool) : Only.raiseCanSyn (canErr s n err data tx dom) s := by
  simp only [canErr, Only.raiseCanSyn]
  all_goals first
    | (simp [canConfine_only .., canTurnEnd_only .., setCan_only .., iteU .., apply_ite Prod.snd, apply_ite Prod.fst]; done)
    | ((repeat' split) <;> simp [canConfine_only .., canTurnEnd_only .., setCan_only .., iteU .., apply_ite Prod.snd,
        apply_ite Prod.fst])

theorem canRequest_only (s : State) (n : Nat) : Only.can (canRequest s n) s := by
  simp only [canRequest, Only.can]
  all_goals simp [setCan_only .., iteU .., apply_ite Prod.snd, apply_ite Prod.fst]

theorem canJoin_only (s : State) (n : Nat) : Only.fltRecrCan (canJoin s n) s := by
  simp only [canJoin, Only.fltRecrCan]
  all_goals simp [canCauses_only .., setCan_only .., iteU .., apply_ite Prod.snd, apply_ite Prod.fst]

theorem xtSwitch_only (s : State) : Only.raise (xtSwitch s) s := by
  simp only [xtSwitch, Only.raise]
  all_goals simp [causeOn_only .., iteU .., apply_ite Prod.snd, apply_ite Prod.fst]

theorem releaseFaults_only (s : State) (xtal : Bool) : Only.raise (releaseFaults s xtal) s := by
  simp only [releaseFaults, Only.raise]
  all_goals simp [raiseU_only .., xtSwitch_only .., iteU .., apply_ite Prod.snd, apply_ite Prod.fst]

theorem sessionCut_only (s : State) (cut : Option (Nat × Nat)) : Only.recr (sessionCut s cut) s := by
  simp only [sessionCut, Only.recr]
  all_goals ((repeat' split) <;> simp [addRecord_only .., iteU .., apply_ite Prod.snd, apply_ite Prod.fst])

theorem speedMargin_only (s : State) : Only.raisePwr (speedMargin s) s := by
  simp only [speedMargin, Only.raisePwr]
  all_goals simp [causeOff_only .., causeOn_only .., iteU .., apply_ite Prod.snd, apply_ite Prod.fst]

theorem strapCheck_only (s : State) (levels : List Bool) (i : Nat) : Only.strapsRecrEngSw (strapCheck s levels i) s := by
  simp only [strapCheck, Only.strapsRecrEngSw]
  all_goals simp [addRecord_only .., present_only .., iteU .., apply_ite Prod.snd, apply_ite Prod.fst]

theorem strapChecks_only (s : State) (levels : List Bool) (x0 : List Nat) : Only.strapsRecrEngSw (strapChecks s levels x0) s
    := by
  induction x0 generalizing s levels with
  | nil => simp [strapChecks, Only.strapsRecrEngSw]
  | cons y ys ih =>
    simp only [Only.strapsRecrEngSw, strapChecks] at ih ⊢
    simp [ih, strapCheck_only .., iteU .., apply_ite Prod.snd, apply_ite Prod.fst]

theorem canSettings_only (s : State) (n : Nat) : Only.can (canSettings s n) s := by
  simp only [canSettings, Only.can]
  all_goals first
    | (simp [canConfigure_only .., iteU .., apply_ite Prod.snd, apply_ite Prod.fst]; done)
    | ((repeat' split) <;> simp [canConfigure_only .., iteU .., apply_ite Prod.snd, apply_ite Prod.fst])

theorem islConfigure_only (s : State) (i : Nat) : Only.pwrNvmRecrPrfSpnIslFeCan (islConfigure s i) s := by
  simp only [islConfigure, Only.pwrNvmRecrPrfSpnIslFeCan]
  all_goals simp [canSettings_only .., clearFreezes_only .., setIsl_only .., iteU .., apply_ite Prod.snd, apply_ite Prod.fst]

theorem islEmpty_only (s : State) (i : Nat) : Only.isl (islEmpty s i) s := by
  simp only [islEmpty, Only.isl]
  all_goals simp [iteU .., apply_ite Prod.snd, apply_ite Prod.fst]

theorem islUnit_only (s : State) (i : Nat) : Only.pwrNvmRecrPrfPltSpnIslFeMnsStbFanHtdCanSvc (islUnit s i) s := by
  simp only [islUnit, Only.pwrNvmRecrPrfPltSpnIslFeMnsStbFanHtdCanSvc]
  all_goals simp [canFlush_only .., islEmpty_only .., pfwRefresh_only .., iteU .., apply_ite Prod.snd, apply_ite Prod.fst]

theorem islStop_only (s : State) (i : Nat) : Only.raisePwrNvmPrfPltFeMnsStbFanHtdCanSvc (islStop s i) s := by
  simp only [islStop, Only.raisePwrNvmPrfPltFeMnsStbFanHtdCanSvc]
  all_goals simp [islUnit_only .., raiseU_only .., setIsl_only .., iteU .., apply_ite Prod.snd, apply_ite Prod.fst]

theorem islBaud_only (s : State) (i : Nat) : Only.svc (islBaud s i) s := by
  simp only [islBaud, Only.svc]
  all_goals simp [iteU .., apply_ite Prod.snd, apply_ite Prod.fst]

theorem islFlush_only (s : State) (i : Nat) : Only.pwrNvmFltRecrPrfPltEngSpnIslFeMnsStbFanHtdCanSvc (islFlush s i) s := by
  simp only [islFlush, Only.pwrNvmFltRecrPrfPltEngSpnIslFeMnsStbFanHtdCanSvc]
  all_goals simp [addRecord_only .., feRestart_only .., islBaud_only .., islCause_only .., islConfigure_only .., islUnit_only
    .., setIsl_only .., iteU .., apply_ite Prod.snd, apply_ite Prod.fst]

theorem mapComplete_only (s : State) (x0 : List Nat) : Only.pwrNvmRecrPrfSpn (mapComplete s x0) s := by
  induction x0 generalizing s with
  | nil => simp [mapComplete, Only.pwrNvmRecrPrfSpn]
  | cons y ys ih =>
    simp only [Only.pwrNvmRecrPrfSpn, mapComplete] at ih ⊢
    first
      | (simp [ih, storeWord_only .., iteU .., apply_ite Prod.snd, apply_ite Prod.fst]; done)
      | ((repeat' split) <;> simp [ih, storeWord_only .., iteU .., apply_ite Prod.snd, apply_ite Prod.fst])

theorem mapApply_only (s : State) (e : Word) : Only.nvmPrfSpn (mapApply s e) s := by
  simp only [mapApply, Only.nvmPrfSpn]
  all_goals first
    | (simp [iteU .., apply_ite Prod.snd, apply_ite Prod.fst]; done)
    | ((repeat' split) <;> simp [iteU .., apply_ite Prod.snd, apply_ite Prod.fst])

theorem mapApplies_only (s : State) (x0 : List Word) : Only.nvmPrfSpn (mapApplies s x0) s := by
  induction x0 generalizing s with
  | nil => simp [mapApplies, Only.nvmPrfSpn]
  | cons y ys ih =>
    simp only [Only.nvmPrfSpn, mapApplies] at ih ⊢
    simp [ih, mapApply_only .., iteU .., apply_ite Prod.snd, apply_ite Prod.fst]

theorem mapClear_only (s : State) : Only.nvm (mapClear s) s := by
  simp only [mapClear, Only.nvm]
  all_goals simp [iteU .., apply_ite Prod.snd, apply_ite Prod.fst]

theorem mapLoad_only (s : State) : Only.raisePwrNvmPrf (mapLoad s) s := by
  simp only [mapLoad, Only.raisePwrNvmPrf]
  all_goals simp [mapApplies_only .., mapClear_only .., mapComplete_only .., raiseU_only .., wordsFound_only .., iteU ..,
    apply_ite Prod.snd, apply_ite Prod.fst]

theorem spineStatus_only (s : State) : Only.spn (spineStatus s) s := by
  simp only [spineStatus, Only.spn]
  all_goals simp [iteU .., apply_ite Prod.snd, apply_ite Prod.fst]

theorem proofLane_only (s : State) (wher : Nat) : Only.raisePwrNvmPrf (proofLane s wher) s := by
  simp only [proofLane, Only.raisePwrNvmPrf]
  all_goals simp [newDefect_only .., setLink_only .., iteU .., apply_ite Prod.snd, apply_ite Prod.fst]

theorem proofLanes_only (s : State) (x0 : List Nat) : Only.raisePwrNvmPrf (proofLanes s x0) s := by
  induction x0 generalizing s with
  | nil => simp [proofLanes, Only.raisePwrNvmPrf]
  | cons y ys ih =>
    simp only [Only.raisePwrNvmPrf, proofLanes] at ih ⊢
    simp [ih, proofLane_only .., iteU .., apply_ite Prod.snd, apply_ite Prod.fst]

theorem proofKeepers_only (s : State) (x0 : List Nat) : Only.raise (proofKeepers s x0) s := by
  induction x0 generalizing s with
  | nil => simp [proofKeepers, Only.raise]
  | cons y ys ih =>
    simp only [Only.raise, proofKeepers] at ih ⊢
    simp [ih, keeperRetire_only .., iteU .., apply_ite Prod.snd, apply_ite Prod.fst]

theorem proofTile_only (s : State) (p : Nat) : Only.raisePwrNvmPrf (proofTile s p) s := by
  simp only [proofTile, Only.raisePwrNvmPrf]
  all_goals simp [newDefect_only .., setTile_only .., iteU .., apply_ite Prod.snd, apply_ite Prod.fst]

theorem proofTiles_only (s : State) (x0 : List Nat) : Only.raisePwrNvmPrf (proofTiles s x0) s := by
  induction x0 generalizing s with
  | nil => simp [proofTiles, Only.raisePwrNvmPrf]
  | cons y ys ih =>
    simp only [Only.raisePwrNvmPrf, proofTiles] at ih ⊢
    simp [ih, proofTile_only .., iteU .., apply_ite Prod.snd, apply_ite Prod.fst]

theorem proofRow_only (s : State) (x : Nat × Nat) : Only.raisePwrNvmPrf (proofRow s x) s := by
  simp only [proofRow, Only.raisePwrNvmPrf]
  all_goals simp [newDefect_only .., proofTile_only .., setTile_only .., iteU .., apply_ite Prod.snd, apply_ite Prod.fst]

theorem proofRows_only (s : State) (x0 : List (Nat × Nat)) : Only.raisePwrNvmPrf (proofRows s x0) s := by
  induction x0 generalizing s with
  | nil => simp [proofRows, Only.raisePwrNvmPrf]
  | cons y ys ih =>
    simp only [Only.raisePwrNvmPrf, proofRows] at ih ⊢
    simp [ih, proofRow_only .., iteU .., apply_ite Prod.snd, apply_ite Prod.fst]

theorem proofSram_only (s : State) (x : Nat × Nat) : Only.raisePwrNvmPrf (proofSram s x) s := by
  simp only [proofSram, Only.raisePwrNvmPrf]
  all_goals simp [newDefect_only .., iteU .., apply_ite Prod.snd, apply_ite Prod.fst]

theorem proofSrams_only (s : State) (x0 : List (Nat × Nat)) : Only.raisePwrNvmPrf (proofSrams s x0) s := by
  induction x0 generalizing s with
  | nil => simp [proofSrams, Only.raisePwrNvmPrf]
  | cons y ys ih =>
    simp only [Only.raisePwrNvmPrf, proofSrams] at ih ⊢
    simp [ih, proofSram_only .., iteU .., apply_ite Prod.snd, apply_ite Prod.fst]

theorem weakMapped_only (s : State) (b row : Nat) : Only.raisePwrNvmPrf (weakMapped s b row) s := by
  simp only [weakMapped, Only.raisePwrNvmPrf]
  all_goals first
    | (simp [pulse_only .., storeWord_only .., wantRetire_only .., iteU .., apply_ite Prod.snd, apply_ite Prod.fst]; done)
    | ((repeat' split) <;> simp [pulse_only .., storeWord_only .., wantRetire_only .., iteU .., apply_ite Prod.snd, apply_ite
        Prod.fst])

theorem proofWeak_only (s : State) (x : Nat × Nat) : Only.raisePwrNvmPrf (proofWeak s x) s := by
  simp only [proofWeak, Only.raisePwrNvmPrf]
  all_goals ((repeat' split) <;> simp [newDefect_only .., weakMapped_only .., iteU .., apply_ite Prod.snd, apply_ite
    Prod.fst])

theorem proofWeaks_only (s : State) (x0 : List (Nat × Nat)) : Only.raisePwrNvmPrf (proofWeaks s x0) s := by
  induction x0 generalizing s with
  | nil => simp [proofWeaks, Only.raisePwrNvmPrf]
  | cons y ys ih =>
    simp only [Only.raisePwrNvmPrf, proofWeaks] at ih ⊢
    simp [ih, proofWeak_only .., iteU .., apply_ite Prod.snd, apply_ite Prod.fst]

end Sys2Proof.Machine
end

