-- ==== Sys2Proof/Laws/FramesD.lean ====
section
/-! SUPPORT. Frames of the shared operations, part 4 of 4: for each operation the units that it alone may change, in the order of the
Machine files. A later proof cites `<operation>_only` and never unfolds the operation. -/

set_option linter.unusedSimpArgs false
set_option linter.unusedVariables false
set_option maxRecDepth 8000

namespace Sys2Proof.Machine

open Sys2Proof

theorem proofSlices_only (s : State) (x0 : List Nat) : Only.raisePwrNvmPrf (proofSlices s x0) s := by
  induction x0 generalizing s with
  | nil => simp [proofSlices, Only.raisePwrNvmPrf]
  | cons y ys ih =>
    simp only [Only.raisePwrNvmPrf, proofSlices] at ih ⊢
    simp [ih, newDefect_only .., iteU .., apply_ite Prod.snd, apply_ite Prod.fst]

theorem sparesChecks_only (s : State) (x0 : List Nat) : Only.raiseNvm (sparesChecks s x0) s := by
  induction x0 generalizing s with
  | nil => simp [sparesChecks, Only.raiseNvm]
  | cons y ys ih =>
    simp only [Only.raiseNvm, sparesChecks] at ih ⊢
    simp [ih, sparesCheck_only .., iteU .., apply_ite Prod.snd, apply_ite Prod.fst]

theorem proofFaults_only (s : State) : Only.raiseNvm (proofFaults s) s := by
  simp only [proofFaults, Only.raiseNvm]
  all_goals simp [raiseU_only .., sparesChecks_only .., sparesLow_only .., iteU .., apply_ite Prod.snd, apply_ite Prod.fst]

theorem bootService_only (s : State) : Only.recrStart (bootService s) s := by
  simp only [bootService, Only.recrStart]
  all_goals simp [addRecord_only .., iteU .., apply_ite Prod.snd, apply_ite Prod.fst]

theorem moorEnter_only (s : State) (why : Nat) : Only.recrStart (moorEnter s why) s := by
  simp only [moorEnter, Only.recrStart]
  all_goals simp [addRecord_only .., iteU .., apply_ite Prod.snd, apply_ite Prod.fst]

theorem moorIslands_only (s : State) : Only.pwrNvmRecrPrfSpnIslFeCan (moorIslands s) s := by
  simp only [moorIslands, Only.pwrNvmRecrPrfSpnIslFeCan]
  all_goals simp [islConfigure_only .., iteU .., apply_ite Prod.snd, apply_ite Prod.fst]

theorem moor_only (s : State) (why : Nat) : Only.pwrNvmRecrStartPrfSpnIslFeCan (moor s why) s := by
  simp only [moor, Only.pwrNvmRecrStartPrfSpnIslFeCan]
  all_goals simp [moorEnter_only .., moorIslands_only .., iteU .., apply_ite Prod.snd, apply_ite Prod.fst]

theorem runPair_only (s : State) (q : Nat) : Only.start (runPair s q) s := by
  simp only [runPair, Only.start]
  all_goals simp [iteU .., apply_ite Prod.snd, apply_ite Prod.fst]

theorem pairImages_only (s : State) : Only.raise (pairImages s) s := by
  simp only [pairImages, Only.raise]
  all_goals simp [bootService_only .., raiseU_only .., runPair_only .., iteU .., apply_ite Prod.snd, apply_ite Prod.fst]

theorem resumeRetire_only (s : State) (x0 : List Nat) : Only.nvm (resumeRetire s x0) s := by
  induction x0 generalizing s with
  | nil => simp [resumeRetire, Only.nvm]
  | cons y ys ih =>
    simp only [Only.nvm, resumeRetire] at ih ⊢
    first
      | (simp [ih, iteU .., apply_ite Prod.snd, apply_ite Prod.fst]; done)
      | ((repeat' split) <;> simp [ih, iteU .., apply_ite Prod.snd, apply_ite Prod.fst])

theorem resumeScrub_only (s : State) : Only.nvm (resumeScrub s) s := by
  simp only [resumeScrub, Only.nvm]
  all_goals first
    | (simp [iteU .., apply_ite Prod.snd, apply_ite Prod.fst]; done)
    | ((repeat' split) <;> simp [iteU .., apply_ite Prod.snd, apply_ite Prod.fst])

theorem checkWears_only (s : State) (x0 : List (Nat × Nat)) : Only.raiseNvm (checkWears s x0) s := by
  induction x0 generalizing s with
  | nil => simp [checkWears, Only.raiseNvm]
  | cons y ys ih =>
    simp only [Only.raiseNvm, checkWears] at ih ⊢
    simp [ih, checkWear_only .., iteU .., apply_ite Prod.snd, apply_ite Prod.fst]

theorem restartErases_only (s : State) (x0 : List Nat) : Only.pwrNvmRecrPrfSpn (restartErases s x0) s := by
  induction x0 generalizing s with
  | nil => simp [restartErases, Only.pwrNvmRecrPrfSpn]
  | cons y ys ih =>
    simp only [Only.pwrNvmRecrPrfSpn, restartErases] at ih ⊢
    simp [ih, addRecord_only .., requestErase_only .., iteU .., apply_ite Prod.snd, apply_ite Prod.fst]

theorem keeperStart_only (s : State) : Only.raiseFreePwrNvmPrf (keeperStart s) s := by
  simp only [keeperStart, Only.raiseFreePwrNvmPrf]
  all_goals simp [addRecord_only .., calAtStart_only .., checkWears_only .., mapLates_only .., restartErases_only ..,
    resumeRetire_only .., resumeScrub_only .., takeFree_only .., wordsFound_only .., iteU .., apply_ite Prod.snd, apply_ite
    Prod.fst]

theorem loadTiles_only (s : State) (bad : List Nat) : Only.raisePwrNvmPrf (loadTiles s bad) s := by
  simp only [loadTiles, Only.raisePwrNvmPrf]
  all_goals simp [assignTiles_only .., proofTiles_only .., sparesLow_only .., wordsFound_only .., iteU .., apply_ite Prod.snd,
    apply_ite Prod.fst]

theorem plateRefused_only (s : State) (slot step : Nat) : Only.raisePwrNvmPrfPltFeCan (plateRefused s slot step) s := by
  simp only [plateRefused, Only.raisePwrNvmPrfPltFeCan]
  all_goals simp [moor_only .., raiseU_only .., iteU .., apply_ite Prod.snd, apply_ite Prod.fst]

theorem setResult_only (s : State) (slot : Nat) (w : Word) : Only.plt (setResult s slot w) s := by
  simp only [setResult, Only.plt]
  all_goals simp [iteU .., apply_ite Prod.snd, apply_ite Prod.fst]

theorem readPlate_only (s : State) (facts : FlashFacts) : Only.raisePwrNvmPrfPltFeCan (readPlate s facts) s := by
  simp only [readPlate, Only.raisePwrNvmPrfPltFeCan]
  all_goals first
    | (simp [addRecord_only .., plateRefused_only .., setResult_only .., wordsFound_only .., iteU .., apply_ite Prod.snd,
        apply_ite Prod.fst]; done)
    | ((repeat' split) <;> simp [addRecord_only .., plateRefused_only .., setResult_only .., wordsFound_only .., iteU ..,
        apply_ite Prod.snd, apply_ite Prod.fst])

theorem admRefuse_only (s : State) (slot : Nat) (f : AdmFail) : Only.raisePwrNvmPrfPltAdmFeCan (admRefuse s slot f) s := by
  simp only [admRefuse, Only.raisePwrNvmPrfPltAdmFeCan]
  all_goals simp [addRecord_only .., plateRefused_only .., iteU .., apply_ite Prod.snd, apply_ite Prod.fst]

theorem admPass_only (s : State) (p : Plate) (slot : Nat) (r : AdmRun) : Only.prfAdm (admPass s p slot r) s := by
  simp only [admPass, Only.prfAdm]
  all_goals simp [loadTables_only .., iteU .., apply_ite Prod.snd, apply_ite Prod.fst]

theorem loadLayout_only (s : State) (p : Plate) : Only.nvmRecrStb (loadLayout s p) s := by
  simp only [loadLayout, Only.nvmRecrStb]
  all_goals simp [addRecord_only .., iteU .., apply_ite Prod.snd, apply_ite Prod.fst]

theorem mixRecord_only (s : State) (p : Plate) (g : Nat) : Only.recr (mixRecord s p g) s := by
  simp only [mixRecord, Only.recr]
  all_goals first
    | (simp [addRecord_only .., iteU .., apply_ite Prod.snd, apply_ite Prod.fst]; done)
    | ((repeat' split) <;> simp [addRecord_only .., iteU .., apply_ite Prod.snd, apply_ite Prod.fst])

theorem mixRecords_only (s : State) (p : Plate) (x0 : List Nat) : Only.recr (mixRecords s p x0) s := by
  induction x0 generalizing s p with
  | nil => simp [mixRecords, Only.recr]
  | cons y ys ih =>
    simp only [Only.recr, mixRecords] at ih ⊢
    simp [ih, mixRecord_only .., iteU .., apply_ite Prod.snd, apply_ite Prod.fst]

theorem loadFix_only (s : State) (x0 : List FanCfg) : Only.fan (loadFix s x0) s := by
  induction x0 generalizing s with
  | nil => simp [loadFix, Only.fan]
  | cons y ys ih =>
    simp only [Only.fan, loadFix] at ih ⊢
    simp [ih, setFan_only .., iteU .., apply_ite Prod.snd, apply_ite Prod.fst]

theorem admComplete_only (s : State) (p : Plate) (slot : Nat) : Only.raisePwrNvmPltStbFan (admComplete s p slot) s := by
  simp only [admComplete, Only.raisePwrNvmPltStbFan]
  all_goals simp [addRecord_only .., loadFix_only .., loadLayout_only .., mixRecords_only .., wordsFound_only .., iteU ..,
    apply_ite Prod.snd, apply_ite Prod.fst]

theorem unloadPlate_only (s : State) : Only.pwrNvmFltPltStbFan (unloadPlate s) s := by
  simp only [unloadPlate, Only.pwrNvmFltPltStbFan]
  all_goals simp [iteU .., apply_ite Prod.snd, apply_ite Prod.fst]

theorem heard_only (s : State) : Only.svc (heard s) s := by
  simp only [heard, Only.svc]
  all_goals simp [iteU .., apply_ite Prod.snd, apply_ite Prod.fst]

theorem resend_only (s : State) : Only.svc (resend s) s := by
  simp only [resend, Only.svc]
  all_goals ((repeat' split) <;> simp [svcSend_only .., iteU .., apply_ite Prod.snd, apply_ite Prod.fst])

theorem dropStage_only (s : State) : Only.svc (dropStage s) s := by
  simp only [dropStage, Only.svc]
  all_goals simp [iteU .., apply_ite Prod.snd, apply_ite Prod.fst]

theorem answerSt_only (st : Nat) (s : State) : Only.none ((answerSt st s).2) s := by
  simp only [answerSt, Only.none]
  all_goals simp [iteU .., apply_ite Prod.snd, apply_ite Prod.fst]

theorem countFrame_only (s : State) : Only.svc (countFrame s) s := by
  simp only [countFrame, Only.svc]
  all_goals simp [iteU .., apply_ite Prod.snd, apply_ite Prod.fst]

theorem svcEvent_only (s : State) (code : Nat) (a b : Word) : Only.recr (svcEvent s code a b) s := by
  simp only [svcEvent, Only.recr]
  all_goals simp [addRecord_only .., iteU .., apply_ite Prod.snd, apply_ite Prod.fst]

theorem unforce_only (s : State) (n : Nat) : Only.recrEngSvc (unforce s n) s := by
  simp only [unforce, Only.recrEngSvc]
  all_goals simp [svcEvent_only .., iteU .., apply_ite Prod.snd, apply_ite Prod.fst]

theorem unforces_only (s : State) (x0 : List Nat) : Only.recrEngSvc (unforces s x0) s := by
  induction x0 generalizing s with
  | nil => simp [unforces, Only.recrEngSvc]
  | cons y ys ih =>
    simp only [Only.recrEngSvc, unforces] at ih ⊢
    simp [ih, unforce_only .., iteU .., apply_ite Prod.snd, apply_ite Prod.fst]

theorem endOverrides_only (s : State) : Only.recrSvc (endOverrides s) s := by
  simp only [endOverrides, Only.recrSvc]
  all_goals simp [svcEvent_only .., iteU .., apply_ite Prod.snd, apply_ite Prod.fst]

theorem sessRelease_only (s : State) : Only.recrPltEngStbSvc (sessRelease s) s := by
  simp only [sessRelease, Only.recrPltEngStbSvc]
  all_goals simp [dropStage_only .., endOverrides_only .., imgAbandon_only .., imgAnswer_only .., pltAbandon_only ..,
    pltAnswer_only .., sessionFreeze_only .., unforces_only .., iteU .., apply_ite Prod.snd, apply_ite Prod.fst]

theorem endSession_only (s : State) (reason : Nat) : Only.recrPltEngStbSvc (endSession s reason) s := by
  simp only [endSession, Only.recrPltEngStbSvc]
  all_goals first
    | (simp [sessRelease_only .., svcEvent_only .., iteU .., apply_ite Prod.snd, apply_ite Prod.fst]; done)
    | ((repeat' split) <;> simp [sessRelease_only .., svcEvent_only .., iteU .., apply_ite Prod.snd, apply_ite Prod.fst])

theorem setAuth_only (s : State) (k v : Nat) : Only.pwrNvmRecrPrfSpnSvc (setAuth s k v) s := by
  simp only [setAuth, Only.pwrNvmRecrPrfSpnSvc]
  all_goals simp [storeWord_only .., iteU .., apply_ite Prod.snd, apply_ite Prod.fst]

theorem authFail_only (s : State) (role : Nat) : Only.raisePwrNvmPrfSvc (authFail s role) s := by
  simp only [authFail, Only.raisePwrNvmPrfSvc]
  all_goals simp [causeOn_only .., setAuth_only .., svcEvent_only .., iteU .., apply_ite Prod.snd, apply_ite Prod.fst]

theorem openSession_only (s : State) (role gen : Nat) : Only.pwrNvmRecrPrfPltEngSpnStbSvc (openSession s role gen) s := by
  simp only [openSession, Only.pwrNvmRecrPrfPltEngSpnStbSvc]
  all_goals simp [endSession_only .., setAuth_only .., svcEvent_only .., iteU .., apply_ite Prod.snd, apply_ite Prod.fst]

theorem authCmd_only (s : State) (role : Nat) (tag : List Byte) : Only.raisePwrNvmPrfPltStbSvc ((authCmd s role tag).2) s :=
    by
  simp only [authCmd, Only.raisePwrNvmPrfPltStbSvc]
  all_goals first
    | (simp [answerSt_only .., authFail_only .., energyRefused_only .., openSession_only .., readPin_only .., wordsFound_only
        .., iteU .., apply_ite Prod.snd, apply_ite Prod.fst]; done)
    | ((repeat' split) <;> simp [answerSt_only .., authFail_only .., energyRefused_only .., openSession_only .., readPin_only
        .., wordsFound_only .., iteU .., apply_ite Prod.snd, apply_ite Prod.fst])

theorem recReply_only (s : State) (ls : List Nat) : Only.raiseNvm ((recReply s ls).2) s := by
  simp only [recReply, Only.raiseNvm]
  all_goals simp [entryFaultsAll_only .., iteU .., apply_ite Prod.snd, apply_ite Prod.fst]

theorem imgFinish_only (s : State) (seq : Nat) : Only.recrSvc (imgFinish s seq) s := by
  simp only [imgFinish, Only.recrSvc]
  all_goals simp [addRecord_only .., svcReply_only .., iteU .., apply_ite Prod.snd, apply_ite Prod.fst]

theorem addEvents_only (s : State) (x0 : List (Nat × Nat × Word × Word)) : Only.recr (addEvents s x0) s := by
  induction x0 generalizing s with
  | nil => simp [addEvents, Only.recr]
  | cons y ys ih =>
    simp only [Only.recr, addEvents] at ih ⊢
    simp [ih, addRecord_only .., iteU .., apply_ite Prod.snd, apply_ite Prod.fst]

theorem svcFinish_only (s : State) (w : SvcWait) : Only.nvmRecrSvc (svcFinish s w) s := by
  simp only [svcFinish, Only.nvmRecrSvc]
  all_goals simp [addEvents_only .., imgFinish_only .., svcReply_only .., iteU .., apply_ite Prod.snd, apply_ite Prod.fst]

theorem svcStores_only (s : State) : Only.raisePwrNvmPrfCanSvc (svcStores s) s := by
  simp only [svcStores, Only.raisePwrNvmPrfCanSvc]
  all_goals ((repeat' split) <;> simp [clearsServe_only .., readsRun_only .., recReply_only .., svcFinish_only ..,
    svcReply_only .., iteU .., apply_ite Prod.snd, apply_ite Prod.fst])

theorem svcStart_only (s : State) (t : Store) : Only.pwrNvmRecrPrfSpn ((svcStart s t).2) s := by
  simp only [svcStart, Only.pwrNvmRecrPrfSpn]
  all_goals simp [startStore_only .., iteU .., apply_ite Prod.snd, apply_ite Prod.fst]

theorem storeFirst_only (s : State) (t : Store) (w : SvcWait) : Only.pwrNvmRecrPrfSpnSvc ((storeFirst s t w).2) s := by
  simp only [storeFirst, Only.pwrNvmRecrPrfSpnSvc]
  all_goals simp [answerSt_only .., energyRefused_only .., svcStart_only .., iteU .., apply_ite Prod.snd, apply_ite Prod.fst]

theorem railOn_only (s : State) (n : Nat) (param : Word) (unit : Nat) : Only.raise (railOn s n param unit) s := by
  simp only [railOn, Only.raise]
  all_goals simp [causeOff_only .., raise_only .., iteU .., apply_ite Prod.snd, apply_ite Prod.fst]

theorem fetchUncorr_only (s : State) (src : Nat) (param : Word) : Only.raiseNvm (fetchUncorr s src param) s := by
  simp only [fetchUncorr, Only.raiseNvm]
  all_goals simp [wantRetire_only .., iteU .., apply_ite Prod.snd, apply_ite Prod.fst]

theorem lineBreak_only (s : State) (src : Nat) : Only.raise (lineBreak s src) s := by
  simp only [lineBreak, Only.raise]
  all_goals simp [raiseNow_only .., raiseU_only .., iteU .., apply_ite Prod.snd, apply_ite Prod.fst]

theorem unitRecovers_only (s : State) (n : Nat) : Only.pwrIslFe (unitRecovers s n) s := by
  simp only [unitRecovers, Only.pwrIslFe]
  all_goals ((repeat' split) <;> simp [calsSpoil_only .., keepFlags_only .., iteU .., apply_ite Prod.snd, apply_ite Prod.fst])

theorem lineMended_only (s : State) (n : Nat) : Only.fltRecr (lineMended s n) s := by
  simp only [lineMended, Only.fltRecr]
  all_goals simp [causeOff_only .., iteU .., apply_ite Prod.snd, apply_ite Prod.fst]

theorem injMended_only (s : State) (n : Nat) : Only.fltRecr (injMended s n) s := by
  simp only [injMended, Only.fltRecr]
  all_goals simp [causeOffNow_only .., lineMended_only .., iteU .., apply_ite Prod.snd, apply_ite Prod.fst]

theorem injFeed_only (s : State) (n : Nat) : Only.raise (injFeed s n) s := by
  simp only [injFeed, Only.raise]
  all_goals simp [causeOffNow_only .., lineBreak_only .., raiseNow_only .., iteU .., apply_ite Prod.snd, apply_ite Prod.fst]

theorem injRelease_only (s : State) : Only.raise (injRelease s) s := by
  simp only [injRelease, Only.raise]
  all_goals ((repeat' split) <;> simp [causeOff_only .., raise_only .., iteU .., apply_ite Prod.snd, apply_ite Prod.fst])

theorem injWrite_only (s : State) (w : Word) : Only.raise (injWrite s w) s := by
  simp only [injWrite, Only.raise]
  all_goals simp [injFeed_only .., injRelease_only .., iteU .., apply_ite Prod.snd, apply_ite Prod.fst]

theorem wdogExpires_only (s : State) : Only.flt (wdogExpires s) s := by
  simp only [wdogExpires, Only.flt]
  all_goals simp [iteU .., apply_ite Prod.snd, apply_ite Prod.fst]

theorem hungEnds_only (s : State) : Only.settleFreeRstStrapsPwrNvmPrfPltAdmMnsCalCanSynSvc (hungEnds s) s := by
  simp only [hungEnds, Only.settleFreeRstStrapsPwrNvmPrfPltAdmMnsCalCanSynSvc]
  all_goals simp [chipReset_only .., raiseFatal_only .., iteU .., apply_ite Prod.snd, apply_ite Prod.fst]

theorem queueTake_only (s : State) (k : Nat) : Only.isl (queueTake s k) s := by
  simp only [queueTake, Only.isl]
  all_goals simp [iteU .., apply_ite Prod.snd, apply_ite Prod.fst]

theorem queuePut_only (s : State) (i n depth : Nat) (fabric : Bool) (w : Word) : Only.raise (queuePut s i n depth fabric w) s
    := by
  simp only [queuePut, Only.raise]
  all_goals simp [islOverflow_only .., iteU .., apply_ite Prod.snd, apply_ite Prod.fst]

theorem probeIsl_only (s : State) (i : Nat) : Only.raisePwrNvmPrfPltFeMnsStbFanHtdCanSvc (probeIsl s i) s := by
  simp only [probeIsl, Only.raisePwrNvmPrfPltFeMnsStbFanHtdCanSvc]
  all_goals simp [islStop_only .., iteU .., apply_ite Prod.snd, apply_ite Prod.fst]

theorem probeIsls_only (s : State) (x0 : List Nat) : Only.raisePwrNvmPrfPltFeMnsStbFanHtdCanSvc (probeIsls s x0) s := by
  induction x0 generalizing s with
  | nil => simp [probeIsls, Only.raisePwrNvmPrfPltFeMnsStbFanHtdCanSvc]
  | cons y ys ih =>
    simp only [Only.raisePwrNvmPrfPltFeMnsStbFanHtdCanSvc, probeIsls] at ih ⊢
    simp [ih, probeIsl_only .., iteU .., apply_ite Prod.snd, apply_ite Prod.fst]

theorem canOffs_only (s : State) (x0 : List Nat) : Only.spnCan (canOffs s x0) s := by
  induction x0 generalizing s with
  | nil => simp [canOffs, Only.spnCan]
  | cons y ys ih =>
    simp only [Only.spnCan, canOffs] at ih ⊢
    simp [ih, canOffRc_only .., iteU .., apply_ite Prod.snd, apply_ite Prod.fst]

theorem turnTorn_only (s : State) (b : Nat) : Only.freePwrNvmRecr (turnTorn s b) s := by
  simp only [turnTorn, Only.freePwrNvmRecr]
  all_goals ((repeat' split) <;> simp [dropHand_only .., enqueue_only .., markW0_only .., tearWord_only .., iteU .., apply_ite
    Prod.snd, apply_ite Prod.fst])

theorem setWrite_only (s : State) (w : PltWrite) : Only.plt (setWrite s w) s := by
  simp only [setWrite, Only.plt]
  all_goals simp [iteU .., apply_ite Prod.snd, apply_ite Prod.fst]

theorem sectorErase_only (s : State) (k : Nat) : Only.plt (sectorErase s k) s := by
  simp only [sectorErase, Only.plt]
  all_goals simp [setWrite_only .., iteU .., apply_ite Prod.snd, apply_ite Prod.fst]

theorem nextPage_only (s : State) : Only.plt (nextPage s) s := by
  simp only [nextPage, Only.plt]
  all_goals ((repeat' split) <;> simp [setWrite_only .., iteU .., apply_ite Prod.snd, apply_ite Prod.fst])

theorem flashFree_only (s : State) (a : Nat) (x0 : Nat) : Only.freePlt (flashFree s a x0) s := by
  induction x0 generalizing s a with
  | zero => simp [flashFree, Only.freePlt]
  | succ y ih =>
    simp only [Only.freePlt] at ih ⊢
    simp [flashFree, ih, takeFree_only ..]

theorem plateBegin_only (slot length : Nat) (s : State) : Only.pltSvc ((plateBegin slot length s).2) s := by
  simp only [plateBegin, Only.pltSvc]
  all_goals simp [answerSt_only .., pltAbandon_only .., pltAnswer_only .., sectorErase_only .., setWrite_only .., iteU ..,
    apply_ite Prod.snd, apply_ite Prod.fst]

theorem plateData_only (seq off : Nat) (bs : List Byte) (s : State) : Only.plt ((plateData seq off bs s).2) s := by
  simp only [plateData, Only.plt]
  all_goals simp [answerSt_only .., nextPage_only .., setWrite_only .., iteU .., apply_ite Prod.snd, apply_ite Prod.fst]

theorem plateEnd_only (seq : Nat) (s : State) : Only.plt ((plateEnd seq s).2) s := by
  simp only [plateEnd, Only.plt]
  all_goals simp [answerSt_only .., nextPage_only .., setWrite_only .., iteU .., apply_ite Prod.snd, apply_ite Prod.fst]

theorem plateVerify_only (s : State) : Only.raiseNvmPltSvc (plateVerify s) s := by
  simp only [plateVerify, Only.raiseNvmPltSvc]
  all_goals simp [addRecord_only .., setWrite_only .., svcReply_only .., wordsFound_only .., iteU .., apply_ite Prod.snd,
    apply_ite Prod.fst]

theorem pageEnd_only (s : State) : Only.raiseNvmPltSvc (pageEnd s) s := by
  simp only [pageEnd, Only.raiseNvmPltSvc]
  all_goals simp [nextPage_only .., plateVerify_only .., pltAnswer_only .., setWrite_only .., iteU .., apply_ite Prod.snd,
    apply_ite Prod.fst]

theorem gatePass_only (s : State) : Only.pwrNvmRecrStartPrfSpn (gatePass s) s := by
  simp only [gatePass, Only.pwrNvmRecrStartPrfSpn]
  all_goals simp [addRecord_only .., storeAuth_only .., storeWord_only .., iteU .., apply_ite Prod.snd, apply_ite Prod.fst]

theorem proofFabric_only (s : State) (lanes keepers : List Nat) : Only.settleFreeRstStrapsPwrNvmPrfPltAdmMnsCalCanSynSvc
    (proofFabric s lanes keepers) s := by
  simp only [proofFabric, Only.settleFreeRstStrapsPwrNvmPrfPltAdmMnsCalCanSynSvc]
  all_goals simp [keeperSplit_only .., proofKeepers_only .., proofLanes_only .., proofTiles_only .., raiseU_only ..,
    spineStatus_only .., iteU .., apply_ite Prod.snd, apply_ite Prod.fst]

theorem proofUnits_only (s : State) (tiles : List Nat) (rows sram weak : List (Nat × Nat)) (slices : List SliceRef) :
    Only.raisePwrNvmPrf (proofUnits s tiles rows sram weak slices) s := by
  simp only [proofUnits, Only.raisePwrNvmPrf]
  all_goals simp [proofRows_only .., proofSlices_only .., proofSrams_only .., proofTiles_only .., proofWeaks_only .., iteU ..,
    apply_ite Prod.snd, apply_ite Prod.fst]

theorem proofEnd_only (s : State) (ms : Nat) : Only.raiseNvmPrf (proofEnd s ms) s := by
  simp only [proofEnd, Only.raiseNvmPrf]
  all_goals simp [addRecord_only .., assignTiles_only .., proofFaults_only .., iteU .., apply_ite Prod.snd, apply_ite
    Prod.fst]

theorem admitStep_only (s : State) (p : Plate) (ms : Nat) (full : Bool) : Only.raisePwrNvmPrfPltAdmFeStbFanCan (admitStep s p
    ms full) s := by
  simp only [admitStep, Only.raisePwrNvmPrfPltAdmFeStbFanCan]
  all_goals ((repeat' split) <;> simp [admComplete_only .., admPass_only .., admRefuse_only .., iteU .., apply_ite Prod.snd,
    apply_ite Prod.fst])

theorem islConfigures_only (s : State) (x0 : List Nat) : Only.pwrNvmRecrPrfSpnIslFeCan (islConfigures s x0) s := by
  induction x0 generalizing s with
  | nil => simp [islConfigures, Only.pwrNvmRecrPrfSpnIslFeCan]
  | cons y ys ih =>
    simp only [Only.pwrNvmRecrPrfSpnIslFeCan, islConfigures] at ih ⊢
    simp [ih, islConfigure_only .., iteU .., apply_ite Prod.snd, apply_ite Prod.fst]

theorem nodesLose_only (s : State) (x0 : List NodeCfg) : Only.raiseCanSyn (nodesLose s x0) s := by
  induction x0 generalizing s with
  | nil => simp [nodesLose, Only.raiseCanSyn]
  | cons y ys ih =>
    simp only [Only.raiseCanSyn, nodesLose] at ih ⊢
    simp [ih, nodeLose_only .., iteU .., apply_ite Prod.snd, apply_ite Prod.fst]

theorem w1cClear_only (s : State) (a : Nat) (w : Word) : Only.strapsPwrNvmEngSpnIslSvc (w1cClear s a w) s := by
  simp only [w1cClear, Only.strapsPwrNvmEngSpnIslSvc]
  all_goals simp [setIsl_only .., iteU .., apply_ite Prod.snd, apply_ite Prod.fst]

theorem canRecover_only (s : State) (n : Nat) : Only.can ((canRecover s n).2) s := by
  simp only [canRecover, Only.can]
  all_goals simp [canRequest_only .., iteU .., apply_ite Prod.snd, apply_ite Prod.fst]

theorem forceVal_only (s : State) (n : Nat) (w : Word) : Only.recrEngSwSvc ((forceVal s n w).2) s := by
  simp only [forceVal, Only.recrEngSwSvc]
  all_goals simp [svcEvent_only .., iteU .., apply_ite Prod.snd, apply_ite Prod.fst]

theorem forceEnd_only (s : State) (n : Nat) : Only.recrEngSvc ((forceEnd s n).2) s := by
  simp only [forceEnd, Only.recrEngSvc]
  all_goals simp [unforce_only .., iteU .., apply_ite Prod.snd, apply_ite Prod.fst]

theorem arbCtl_only (s : State) (n : Nat) (b : Bool) : Only.pwrNvmRecrPrfSpnFe (arbCtl s n b) s := by
  simp only [arbCtl, Only.pwrNvmRecrPrfSpnFe]
  all_goals simp [clearFreeze_only .., setFreeze_only .., iteU .., apply_ite Prod.snd, apply_ite Prod.fst]

theorem stbFreeze_only (s : State) (b : Bool) : Only.recrStb (stbFreeze s b) s := by
  simp only [stbFreeze, Only.recrStb]
  all_goals simp [sessionFreeze_only .., iteU .., apply_ite Prod.snd, apply_ite Prod.fst]

theorem injectCmd_only (s : State) (w : Word) : Only.raise ((injectCmd s w).2) s := by
  simp only [injectCmd, Only.raise]
  all_goals simp [injWrite_only .., iteU .., apply_ite Prod.snd, apply_ite Prod.fst]

theorem fanFix_only (s : State) (n : Nat) (w : Word) : Only.fan ((fanFix s n w).2) s := by
  simp only [fanFix, Only.fan]
  all_goals simp [setFan_only .., iteU .., apply_ite Prod.snd, apply_ite Prod.fst]

theorem canCmd_only (s : State) (x : Option Nat) (w : Word) : Only.can ((canCmd s x w).2) s := by
  simp only [canCmd, Only.can]
  all_goals ((repeat' split) <;> simp [canRecover_only .., iteU .., apply_ite Prod.snd, apply_ite Prod.fst])

theorem regEffect_only (s : State) (a : Nat) (w : Word) : Only.raiseStrapsPwrNvmPrfFeStbFanMotCanSvc ((regEffect s a w).2) s
    := by
  simp only [regEffect, Only.raiseStrapsPwrNvmPrfFeStbFanMotCanSvc]
  all_goals simp [ackCmd_only .., arbCtl_only .., canCmd_only .., fanFix_only .., fogAckCmd_only .., forceEnd_only ..,
    forceVal_only .., injectCmd_only .., motClearCmd_only .., requestFlush_only .., stbFreeze_only .., w1cClear_only .., iteU
    .., apply_ite Prod.snd, apply_ite Prod.fst]

theorem onceRefused_only (s : State) (first : Nat) (locs : List Nat) (ws : List Word) : Only.recrSvc (onceRefused s first locs
    ws) s := by
  simp only [onceRefused, Only.recrSvc]
  all_goals simp [svcEvent_only .., iteU .., apply_ite Prod.snd, apply_ite Prod.fst]

theorem onceCommit_only (s : State) (o : Owner) (first : Nat) (locs : List Nat) (ws : List Word) (ev : Nat × Nat × Word ×
    Word) : Only.pwrNvmRecrPrfSpnSvc ((onceCommit s o first locs ws ev).2) s := by
  simp only [onceCommit, Only.pwrNvmRecrPrfSpnSvc]
  all_goals first
    | (simp [energyRefused_only .., onceRefused_only .., svcStart_only .., iteU .., apply_ite Prod.snd, apply_ite Prod.fst];
        done)
    | ((repeat' split) <;> simp [energyRefused_only .., onceRefused_only .., svcStart_only .., iteU .., apply_ite Prod.snd,
        apply_ite Prod.fst])

theorem keyCommit_only (s : State) (first : Nat) (ws : List Word) : Only.pwrNvmRecrPrfSpnSvc ((keyCommit s first ws).2) s :=
    by
  simp only [keyCommit, Only.pwrNvmRecrPrfSpnSvc]
  all_goals simp [onceCommit_only .., iteU .., apply_ite Prod.snd, apply_ite Prod.fst]

theorem groupCommit_only (s : State) (first : Nat) (ws : List Word) : Only.pwrNvmFltRecrPrfSpnCalSvc ((groupCommit s first
    ws).2) s := by
  simp only [groupCommit, Only.pwrNvmFltRecrPrfSpnCalSvc]
  all_goals simp [calCommit_only .., keyCommit_only .., onceCommit_only .., iteU .., apply_ite Prod.snd, apply_ite Prod.fst]

theorem groupWrite_only (s : State) (a first n : Nat) (w : Word) : Only.pwrNvmFltRecrPrfSpnCalSvc ((groupWrite s a first n
    w).2) s := by
  simp only [groupWrite, Only.pwrNvmFltRecrPrfSpnCalSvc]
  all_goals first
    | (simp [dropStage_only .., groupCommit_only .., iteU .., apply_ite Prod.snd, apply_ite Prod.fst]; done)
    | ((repeat' split) <;> simp [dropStage_only .., groupCommit_only .., iteU .., apply_ite Prod.snd, apply_ite Prod.fst])

theorem lockRefused_only (s : State) (a : Nat) (w : Word) : Only.recrSvc (lockRefused s a w) s := by
  simp only [lockRefused, Only.recrSvc]
  all_goals simp [svcEvent_only .., iteU .., apply_ite Prod.snd, apply_ite Prod.fst]

theorem wordWrite_only (s : State) (a mask : Nat) (w : Word) : Only.raiseStrapsPwrNvmPrfFeStbFanMotCalCanSvc ((wordWrite s a
    mask w).2) s := by
  simp only [wordWrite, Only.raiseStrapsPwrNvmPrfFeStbFanMotCalCanSvc]
  all_goals first
    | (simp [groupWrite_only .., lockRefused_only .., regEffect_only .., iteU .., apply_ite Prod.snd, apply_ite Prod.fst];
        done)
    | ((repeat' split) <;> simp [groupWrite_only .., lockRefused_only .., regEffect_only .., iteU .., apply_ite Prod.snd,
        apply_ite Prod.fst])

theorem writeWords_only (s : State) (a mask : Nat) (staged : Bool) (x : WriteRun) (x0 : List Word) :
    Only.raiseStrapsPwrNvmPrfFeStbFanMotCalCanSvc ((writeWords s a mask staged x x0).2.2) s := by
  induction x0 generalizing s a mask staged x with
  | nil => simp [writeWords, Only.raiseStrapsPwrNvmPrfFeStbFanMotCalCanSvc]
  | cons y ys ih =>
    simp only [Only.raiseStrapsPwrNvmPrfFeStbFanMotCalCanSvc, writeWords] at ih ⊢
    simp [ih, dropStage_only .., wordWrite_only .., iteU .., apply_ite Prod.snd, apply_ite Prod.fst]

theorem writeBody_only (seq a mask : Nat) (ws : List Word) (s : State) : Only.raiseStrapsPwrNvmPrfFeStbFanMotCalCanSvc
    ((writeBody seq a mask ws s).2) s := by
  simp only [writeBody, Only.raiseStrapsPwrNvmPrfFeStbFanMotCalCanSvc]
  all_goals simp [writeWords_only .., iteU .., apply_ite Prod.snd, apply_ite Prod.fst]

theorem readWord_only (s : State) (a : Nat) : Only.raiseFreeNvmCal ((readWord s a).2) s := by
  simp only [readWord, Only.raiseFreeNvmCal]
  all_goals simp [wordFound_only .., iteU .., apply_ite Prod.snd, apply_ite Prod.fst]

theorem readWords_only (s : State) (a : Nat) (x0 : Nat) : Only.raiseFreeNvmCal ((readWords s a x0).2) s := by
  induction x0 generalizing s a with
  | zero => simp [readWords, Only.raiseFreeNvmCal]
  | succ y ih =>
    simp only [Only.raiseFreeNvmCal] at ih ⊢
    simp [readWords, ih, readWord_only ..]

theorem readBody_only (a n : Nat) (wasPoisoned : Bool) (s : State) : Only.raiseFreeNvmCalSvc ((readBody a n wasPoisoned s).2)
    s := by
  simp only [readBody, Only.raiseFreeNvmCalSvc]
  all_goals simp [answerSt_only .., dropStage_only .., readWords_only .., iteU .., apply_ite Prod.snd, apply_ite Prod.fst]

theorem drawNonce_only (s : State) : Only.free ((drawNonce s).2) s := by
  simp only [drawNonce, Only.free]
  all_goals simp [iteU .., apply_ite Prod.snd, apply_ite Prod.fst]

theorem helloCmd_only (s : State) : Only.freeSvc ((helloCmd s).2) s := by
  simp only [helloCmd, Only.freeSvc]
  all_goals simp [drawNonce_only .., iteU .., apply_ite Prod.snd, apply_ite Prod.fst]

theorem baudCmd_only (rate : Nat) (s : State) : Only.svc ((baudCmd rate s).2) s := by
  simp only [baudCmd, Only.svc]
  all_goals simp [answerSt_only .., iteU .., apply_ite Prod.snd, apply_ite Prod.fst]

theorem recServe_only (seq start : Nat) (down : Bool) (count : Nat) (s : State) :
    Only.raisePwrNvmPrfSvc (recServe seq start down count s).2 s := by
  simp only [recServe]
  split
  case _ t hr =>
    have h := recReads_only _ _ _ hr
    simp only [Only.raisePwrNvmPrfSvc] at h ⊢
    simp [h, recReply_only ..]
  case _ => simp [Only.raisePwrNvmPrfSvc, askReads_only ..]

theorem recReadCmd_only (seq start dir count flush : Nat) (s : State) : Only.raisePwrNvmPrfSvc ((recReadCmd seq start dir
    count flush s).2) s := by
  simp only [recReadCmd, Only.raisePwrNvmPrfSvc]
  all_goals simp [answerSt_only .., recServe_only .., requestFlush_only .., iteU .., apply_ite Prod.snd, apply_ite Prod.fst]

theorem recClearCmd_only (seq : Nat) (guard : List Byte) (s : State) : Only.pwrNvmRecrPrfSpnCanSvc ((recClearCmd seq guard
    s).2) s := by
  simp only [recClearCmd, Only.pwrNvmRecrPrfSpnCanSvc]
  all_goals simp [answerSt_only .., recClear_only .., iteU .., apply_ite Prod.snd, apply_ite Prod.fst]

theorem overrideSet_only (kind ch : Nat) (w : Word) (s : State) : Only.recrSvc ((overrideSet kind ch w s).2) s := by
  simp only [overrideSet, Only.recrSvc]
  all_goals first
    | (simp [answerSt_only .., svcEvent_only .., iteU .., apply_ite Prod.snd, apply_ite Prod.fst]; done)
    | ((repeat' split) <;> simp [answerSt_only .., svcEvent_only .., iteU .., apply_ite Prod.snd, apply_ite Prod.fst])

theorem overrideRelease_only (kind ch op : Nat) (s : State) : Only.recrSvc ((overrideRelease kind ch op s).2) s := by
  simp only [overrideRelease, Only.recrSvc]
  all_goals simp [answerSt_only .., svcEvent_only .., iteU .., apply_ite Prod.snd, apply_ite Prod.fst]

theorem restartCmd_only (s : State) : Only.recrSvc ((restartCmd s).2) s := by
  simp only [restartCmd, Only.recrSvc]
  all_goals simp [answerSt_only .., requestFlush_only .., iteU .., apply_ite Prod.snd, apply_ite Prod.fst]

theorem imageBegin_only (slot : Nat) (engine : Bool) (off : Nat) (ws : List Word) (s : State) : Only.pwrNvmRecrPrfSpnSvc
    ((imageBegin slot engine off ws s).2) s := by
  simp only [imageBegin, Only.pwrNvmRecrPrfSpnSvc]
  all_goals simp [answerSt_only .., energyRefused_only .., requestErase_only .., iteU .., apply_ite Prod.snd, apply_ite
    Prod.fst]

theorem imageData_only (seq slot : Nat) (engine : Bool) (off : Nat) (ws : List Word) (s : State) : Only.pwrNvmRecrPrfSpnSvc
    ((imageData seq slot engine off ws s).2) s := by
  simp only [imageData, Only.pwrNvmRecrPrfSpnSvc]
  all_goals simp [answerSt_only .., storeFirst_only .., iteU .., apply_ite Prod.snd, apply_ite Prod.fst]

theorem imageFinal_only (seq slot : Nat) (engine : Bool) (off : Nat) (ws : List Word) (s : State) : Only.pwrNvmRecrPrfSpnSvc
    ((imageFinal seq slot engine off ws s).2) s := by
  simp only [imageFinal, Only.pwrNvmRecrPrfSpnSvc]
  all_goals simp [answerSt_only .., storeFirst_only .., iteU .., apply_ite Prod.snd, apply_ite Prod.fst]

theorem imageActivate_only (seq pair : Nat) (s : State) : Only.pwrNvmRecrPrfSpnSvc ((imageActivate seq pair s).2) s := by
  simp only [imageActivate, Only.pwrNvmRecrPrfSpnSvc]
  all_goals simp [answerSt_only .., storeFirst_only .., iteU .., apply_ite Prod.snd, apply_ite Prod.fst]

theorem stallEnd_only (s : State) (n : Nat) (held : Option Cross) : Only.raisePwrNvmPrfAdm (stallEnd s n held) s := by
  simp only [stallEnd, Only.raisePwrNvmPrfAdm]
  all_goals ((repeat' split) <;> simp [endPacket_only .., modArb_only .., iteU .., apply_ite Prod.snd, apply_ite Prod.fst])

theorem arbMove_only (s : State) (n : Nat) (f : Arb → Arb) : Only.raisePwrNvmPrfCanSvc (arbMove s n f) s := by
  simp only [arbMove, Only.raisePwrNvmPrfCanSvc]
  all_goals simp [arbMoved_only .., modArb_only .., svcStores_only .., iteU .., apply_ite Prod.snd, apply_ite Prod.fst]

theorem rxForeign_only (s : State) (n id : Nat) : Only.raiseCanSyn (rxForeign s n id) s := by
  simp only [rxForeign, Only.raiseCanSyn]
  all_goals simp [nodeForeign_only .., iteU .., apply_ite Prod.snd, apply_ite Prod.fst]

theorem rxShort_only (s : State) (n : Nat) : Only.can (rxShort s n) s := by
  simp only [rxShort, Only.can]
  all_goals simp [setCan_only .., iteU .., apply_ite Prod.snd, apply_ite Prod.fst]

theorem rxDiscard_only (s : State) (n : Nat) : Only.can (rxDiscard s n) s := by
  simp only [rxDiscard, Only.can]
  all_goals simp [setCan_only .., iteU .., apply_ite Prod.snd, apply_ite Prod.fst]

theorem rxQueue_only (s : State) (n : Nat) (f : CanFrame) (esi : Bool) (k : Nat) : Only.can (rxQueue s n f esi k) s := by
  simp only [rxQueue, Only.can]
  all_goals simp [setCan_only .., iteU .., apply_ite Prod.snd, apply_ite Prod.fst]

theorem rxScreen_only (s : State) (n : Nat) (f : CanFrame) (esi : Bool) (k : Nat) : Only.raiseCanSyn (rxScreen s n f esi k) s
    := by
  simp only [rxScreen, Only.raiseCanSyn]
  all_goals first
    | (simp [addRecord_only .., rxDiscard_only .., rxForeign_only .., rxQueue_only .., rxShort_only .., iteU .., apply_ite
        Prod.snd, apply_ite Prod.fst]; done)
    | ((repeat' split) <;> simp [addRecord_only .., rxDiscard_only .., rxForeign_only .., rxQueue_only .., rxShort_only ..,
        iteU .., apply_ite Prod.snd, apply_ite Prod.fst])

theorem rxEnter_only (s : State) (n : Nat) (f : CanFrame) (esi : Bool) (k : Nat) : Only.raiseCanSyn (rxEnter s n f esi k) s :=
    by
  simp only [rxEnter, Only.raiseCanSyn]
  all_goals simp [islOverflow_only .., rxScreen_only .., setCan_only .., iteU .., apply_ite Prod.snd, apply_ite Prod.fst]

theorem rxFrame_only (s : State) (n : Nat) (f : CanFrame) (esi rtr : Bool) : Only.raiseCanSyn (rxFrame s n f esi rtr) s := by
  simp only [rxFrame, Only.raiseCanSyn]
  all_goals first
    | (simp [rxEnter_only .., setCan_only .., iteU .., apply_ite Prod.snd, apply_ite Prod.fst]; done)
    | ((repeat' split) <;> simp [rxEnter_only .., setCan_only .., iteU .., apply_ite Prod.snd, apply_ite Prod.fst])

theorem identAsk_only (s : State) (bus node : Nat) : Only.can (identAsk s bus node) s := by
  simp only [identAsk, Only.can]
  all_goals simp [synSend_only .., iteU .., apply_ite Prod.snd, apply_ite Prod.fst]

theorem identAsks_only (s : State) (node : Nat) (x0 : List Nat) : Only.can (identAsks s node x0) s := by
  induction x0 generalizing s node with
  | nil => simp [identAsks, Only.can]
  | cons y ys ih =>
    simp only [Only.can, identAsks] at ih ⊢
    simp [ih, identAsk_only .., iteU .., apply_ite Prod.snd, apply_ite Prod.fst]

theorem nodePresent_only (s : State) (bus node : Nat) : Only.fltRecrCanSyn (nodePresent s bus node) s := by
  simp only [nodePresent, Only.fltRecrCanSyn]
  all_goals simp [addRecord_only .., nodeCauses_only .., sendNow_only .., setNode_only .., iteU .., apply_ite Prod.snd,
    apply_ite Prod.fst]

theorem repeatCmd_only (s : State) (r : RemoteCfg) : Only.canSyn (repeatCmd s r) s := by
  simp only [repeatCmd, Only.canSyn]
  all_goals ((repeat' split) <;> simp [sendCmd_only .., iteU .., apply_ite Prod.snd, apply_ite Prod.fst])

theorem repeatCmds_only (s : State) (x0 : List RemoteCfg) : Only.canSyn (repeatCmds s x0) s := by
  induction x0 generalizing s with
  | nil => simp [repeatCmds, Only.canSyn]
  | cons y ys ih =>
    simp only [Only.canSyn, repeatCmds] at ih ⊢
    simp [ih, repeatCmd_only .., iteU .., apply_ite Prod.snd, apply_ite Prod.fst]

theorem statusMotor_only (s : State) (ch : Nat) (v : Word) (fb : Bool) : Only.fltRecrMot (statusMotor s ch v fb) s := by
  simp only [statusMotor, Only.fltRecrMot]
  all_goals simp [fbAgree_only .., setMot_only .., iteU .., apply_ite Prod.snd, apply_ite Prod.fst]

theorem statusGateBit_only (s : State) (ch src : Nat) (was now : Bool) : Only.raiseGat (statusGateBit s ch src was now) s :=
    by
  simp only [statusGateBit, Only.raiseGat]
  all_goals simp [causeDrop_only .., raiseU_only .., iteU .., apply_ite Prod.snd, apply_ite Prod.fst]

theorem statusGate_only (s : State) (ch flags : Nat) : Only.raiseGat (statusGate s ch flags) s := by
  simp only [statusGate, Only.raiseGat]
  all_goals simp [setGat_only .., statusGateBit_only .., iteU .., apply_ite Prod.snd, apply_ite Prod.fst]

theorem channelStatus_only (s : State) (bus : Nat) (f : CanFrame) : Only.raiseMotGatHtd (channelStatus s bus f) s := by
  simp only [channelStatus, Only.raiseMotGatHtd]
  all_goals first
    | (simp [setPermit_only .., statusGate_only .., statusMotor_only .., iteU .., apply_ite Prod.snd, apply_ite Prod.fst];
        done)
    | ((repeat' split) <;> simp [setPermit_only .., statusGate_only .., statusMotor_only .., iteU .., apply_ite Prod.snd,
        apply_ite Prod.fst])

theorem subFeed_only (s : State) (f : CanFrame) (x0 : List Nat) : Only.eng (subFeed s f x0) s := by
  induction x0 generalizing s f with
  | nil => simp [subFeed, Only.eng]
  | cons y ys ih =>
    simp only [Only.eng, subFeed] at ih ⊢
    simp [ih, iteU .., apply_ite Prod.snd, apply_ite Prod.fst]

theorem subFeeds_only (s : State) (bus : Nat) (f : CanFrame) : Only.eng (subFeeds s bus f) s := by
  simp only [subFeeds, Only.eng]
  all_goals simp [subFeed_only .., iteU .., apply_ite Prod.snd, apply_ite Prod.fst]

theorem valueFrame_only (s : State) (bus : Nat) (f : CanFrame) : Only.engSw (valueFrame s bus f) s := by
  simp only [valueFrame, Only.engSw]
  all_goals first
    | (simp [putVal_only .., iteU .., apply_ite Prod.snd, apply_ite Prod.fst]; done)
    | ((repeat' split) <;> simp [putVal_only .., iteU .., apply_ite Prod.snd, apply_ite Prod.fst])

theorem valueGroup_only (s : State) (g : Nat) : Only.can (valueGroup s g) s := by
  simp only [valueGroup, Only.can]
  all_goals simp [hostSendV_only .., iteU .., apply_ite Prod.snd, apply_ite Prod.fst]

theorem recRead_only (s : State) (f : CanFrame) : Only.recrCanSyn (recRead s f) s := by
  simp only [recRead, Only.recrCanSyn]
  all_goals simp [recResult_only .., requestFlush_only .., iteU .., apply_ite Prod.snd, apply_ite Prod.fst]

theorem corrections_only (s : State) (p : Nat) (x0 : Nat) : Only.prf ((corrections s p x0).2) s := by
  induction x0 generalizing s p with
  | zero => simp [corrections, Only.prf]
  | succ y ih =>
    simp only [Only.prf, corrections] at ih ⊢
    simp [ih, setTile_only .., iteU .., apply_ite Prod.snd, apply_ite Prod.fst]

theorem tileEntry_only (s : State) (t f : Nat) : Only.raiseNvmStbCan (tileEntry s t f) s := by
  simp only [tileEntry, Only.raiseNvmStbCan]
  all_goals first
    | (simp [publishFrame_only .., runEntry_only .., iteU .., apply_ite Prod.snd, apply_ite Prod.fst]; done)
    | ((repeat' split) <;> simp [publishFrame_only .., runEntry_only .., iteU .., apply_ite Prod.snd, apply_ite Prod.fst])

theorem vote_only (s : State) (port : Nat) (late : Bool) (copies : List (Nat × Word)) :
    Only.settleFreeRstStrapsPwrNvmPrfPltAdmMnsCalCanSynSvc (vote s port late copies) s := by
  simp only [vote, Only.settleFreeRstStrapsPwrNvmPrfPltAdmMnsCalCanSynSvc]
  all_goals first
    | (simp [keeperSplit_only .., miscompare_only .., iteU .., apply_ite Prod.snd, apply_ite Prod.fst]; done)
    | ((repeat' split) <;> simp [keeperSplit_only .., miscompare_only .., iteU .., apply_ite Prod.snd, apply_ite Prod.fst])

theorem sramAsks_only (s : State) (bad : List Nat) (x0 : List Nat) : Only.prfSpn (sramAsks s bad x0) s := by
  induction x0 generalizing s bad with
  | nil => simp [sramAsks, Only.prfSpn]
  | cons y ys ih =>
    simp only [Only.prfSpn, sramAsks] at ih ⊢
    simp [ih, modArb_only .., iteU .., apply_ite Prod.snd, apply_ite Prod.fst]

theorem State.withFetchWord_only (s : State) (nbits w : Nat) : Only.pending (State.withFetchWord s nbits w) s := by
  simp only [State.withFetchWord, Only.pending]
  all_goals ((repeat' split) <;> simp [iteU .., apply_ite Prod.snd, apply_ite Prod.fst])

end Sys2Proof.Machine
end

