-- ==== Sys2Proof/Laws/Faults.lean ====
section
/-! SUPPORT. Fault sources: what a raise, a cause and a pulse do to the source they name, and that they leave every other source alone. -/

set_option linter.unusedSimpArgs false
set_option linter.unusedVariables false
set_option maxRecDepth 4000

namespace Sys2Proof.Machine

open Sys2Proof

theorem getSrc_setSrc_same (f : Flt) (n : Nat) (x : Src) : getSrc (setSrc f n x) n = x := by
  simp only [getSrc, setSrc, tget_tset_same]

theorem getSrc_setSrc_other (f : Flt) (n m : Nat) (x : Src) (h : m ≠ n) : getSrc (setSrc f n x) m = getSrc f m := by
  simp only [getSrc, setSrc]
  exact tget_tset_other _ _ _ h

/-- The instance of a source is the same in both. -/
abbrev SameRaise (x y : Src) : Prop :=
  x.uncleared = y.uncleared ∧ x.acked = y.acked ∧ x.cause = y.cause ∧ x.param = y.param ∧ x.unit = y.unit ∧ x.broken = y.broken

/-- The instance of source n, every other source and the injection are the same in both. -/
abbrev SrcKept (f g : Flt) (n : Nat) : Prop :=
  SameRaise (getSrc f n) (getSrc g n) ∧ (∀ m, m ≠ n → getSrc f m = getSrc g m) ∧ f.injEnable = g.injEnable ∧ f.injSrc = g.injSrc

theorem SrcKept.of_eq {f g : Flt} (n : Nat) (h : f.src = g.src) (e : f.injEnable = g.injEnable) (i : f.injSrc = g.injSrc) :
    SrcKept f g n := by
  have k : ∀ m, getSrc f m = getSrc g m := by intro m; simp only [getSrc, h]
  exact ⟨by simp only [SameRaise, k, and_self], fun m _ => k m, e, i⟩

theorem SrcKept.trans {f g h : Flt} {n : Nat} (a : SrcKept f g n) (b : SrcKept g h n) : SrcKept f h n :=
  ⟨by simp only [SameRaise] at a b ⊢; simp only [a.1, b.1, and_self], fun m q => (a.2.1 m q).trans (b.2.1 m q), a.2.2.1.trans b.2.2.1, a.2.2.2.trans b.2.2.2⟩

theorem SrcKept.ite {c : Prop} [Decidable c] {s t : State} {g : Flt} {n : Nat} (a : SrcKept s.flt g n) (b : SrcKept t.flt g n) :
    SrcKept (if c then s else t).flt g n := by
  split
  · exact a
  · exact b

theorem plantResponse_src (s : State) (n : Nat) : SrcKept (plantResponse s n).flt s.flt n := by
  unfold plantResponse
  refine .ite (.of_eq n rfl rfl rfl) (.ite ?_ (.of_eq n ?_ ?_ ?_))
  · refine ⟨?_, fun m h => getSrc_setSrc_other _ _ _ _ h, rfl, rfl⟩
    simp only [SameRaise, getSrc_setSrc_same, and_self]
  all_goals simp only [faultStopSects_only ..]

theorem blockReset_src (s : State) (n : Nat) (p : Word) : SrcKept (blockReset s n p).flt s.flt n := by
  refine .of_eq n ?_ ?_ ?_ <;> simp only [blockReset_only ..]

theorem fatalLatch_src (s : State) (n : Nat) (p : Word) : SrcKept (fatalLatch s n p).flt s.flt n := by
  unfold fatalLatch
  exact .ite (.of_eq n rfl rfl rfl) (.ite (.of_eq n rfl rfl rfl) (.of_eq n rfl rfl rfl))

theorem reactTo_src (s : State) (n : Nat) (p : Word) (c : FClass) : SrcKept (reactTo s n p c).flt s.flt n := by
  have id : ∀ t : State, SrcKept t.flt t.flt n := fun t => .of_eq n rfl rfl rfl
  have h1 : ∀ t : State, SrcKept (if c == .advisory then t else startFlush t).flt t.flt n := fun t => .ite (id t) (.of_eq n rfl rfl rfl)
  have h2 : ∀ (t : State) (b : Bool), SrcKept (if b then blockReset t n p else t).flt t.flt n := fun t _ => .ite (blockReset_src t n p) (id t)
  have h3 : ∀ (t : State) (b : Bool), SrcKept (if b then plantResponse t n else t).flt t.flt n := fun t _ => .ite (plantResponse_src t n) (id t)
  have h4 : ∀ (t : State) (b : Bool), SrcKept
      (if b then startFlush { t with flt := { t.flt with resetAt := some t.now, resetFor := n, resetOk := false } } else t).flt t.flt n :=
    fun t _ => .ite (.of_eq n rfl rfl rfl) (id t)
  have h5 : ∀ (t : State), SrcKept (if c == .fatal then fatalLatch t n p else t).flt t.flt n := fun t => .ite (fatalLatch_src t n p) (id t)
  unfold reactTo
  exact (h5 _).trans ((h4 _ _).trans ((h3 _ _).trans ((h2 _ _).trans (h1 s))))

/-- What a raise leaves: the source is uncleared with its cause, and no other source changes. It is an instance with the parameter
and unit given, except where the source stands acknowledged with its cause present (R350, R374). -/
theorem raiseNow_src (s : State) (n : Nat) (p : Word) (k : Nat) :
    (getSrc (raiseNow s n p k).flt n).uncleared = true ∧ (getSrc (raiseNow s n p k).flt n).cause = true ∧
    (getSrc (raiseNow s n p k).flt n).broken = (getSrc s.flt n).broken ∧
    (((getSrc s.flt n).acked && (getSrc s.flt n).uncleared && (getSrc s.flt n).cause) = false →
      (getSrc (raiseNow s n p k).flt n).acked = false ∧ (getSrc (raiseNow s n p k).flt n).param = p ∧
        (getSrc (raiseNow s n p k).flt n).unit = k) ∧
    (∀ m, m ≠ n → getSrc (raiseNow s n p k).flt m = getSrc s.flt m) ∧
    (raiseNow s n p k).flt.injEnable = s.flt.injEnable ∧ (raiseNow s n p k).flt.injSrc = s.flt.injSrc := by
  have y : ∀ f e m, getSrc (histPush f e) m = getSrc f m := fun f e m => rfl
  simp only [raiseNow]
  split
  · rename_i c
    simp only [Bool.and_eq_true, Bool.not_eq_true'] at c
    simp only [mirror_only .., getSrc_setSrc_same, c.1, c.2]
    exact ⟨trivial, trivial, trivial, fun _ => ⟨trivial, trivial, trivial⟩, fun m h => getSrc_setSrc_other _ _ _ _ h, rfl, rfl⟩
  · split
    · rename_i a c
      simp only [Bool.and_eq_true, Bool.not_eq_true'] at a c
      have q : (getSrc s.flt n).acked = true := by
        cases e : (getSrc s.flt n).acked
        · exact absurd ⟨c.1, e⟩ a
        · rfl
      simp only [getSrc_setSrc_same, c.1, c.2, q]
      exact ⟨trivial, trivial, trivial, by simp, fun m h => getSrc_setSrc_other _ _ _ _ h, rfl, rfl⟩
    · split
      · simp only [mirror_only .., y, getSrc_setSrc_same, raisedSrc]
        exact ⟨trivial, trivial, trivial, fun _ => ⟨trivial, trivial, trivial⟩, fun m h => getSrc_setSrc_other _ _ _ _ h, rfl, rfl⟩
      · have z := fun (x : State) (c : FClass) => reactTo_src x n p c
        simp only [SrcKept, SameRaise] at z
        simp only [z, mirror_only .., y, getSrc_setSrc_same, raisedSrc]
        refine ⟨trivial, trivial, trivial, fun _ => ⟨trivial, trivial, trivial⟩, fun m h => ?_, rfl, rfl⟩
        rw [(z _ _).2.1 m h]
        simp only [mirror_only .., y]
        exact getSrc_setSrc_other _ _ _ _ h

theorem raise_src (s : State) (n : Nat) (p : Word) (k : Nat) (i : injected s.flt n = false) :
    (getSrc (raise s n p k).flt n).uncleared = true ∧ (getSrc (raise s n p k).flt n).cause = true ∧
    (getSrc (raise s n p k).flt n).broken = (getSrc s.flt n).broken ∧
    (((getSrc s.flt n).acked && (getSrc s.flt n).uncleared && (getSrc s.flt n).cause) = false →
      (getSrc (raise s n p k).flt n).acked = false ∧ (getSrc (raise s n p k).flt n).param = p ∧
        (getSrc (raise s n p k).flt n).unit = k) ∧
    (∀ m, m ≠ n → getSrc (raise s n p k).flt m = getSrc s.flt m) ∧
    (raise s n p k).flt.injEnable = s.flt.injEnable ∧ (raise s n p k).flt.injSrc = s.flt.injSrc := by
  simp only [raise, i, Bool.false_eq_true, if_false]
  exact raiseNow_src s n p k

theorem causeOn_src (s : State) (n : Nat) (p : Word) (i : injected s.flt n = false) :
    (getSrc (causeOn s n p).flt n).cause = true := by
  simp only [causeOn]
  split
  · rename_i c; simp at c; exact c.1
  · exact (raise_src s n p _ i).2.1

theorem raiseU_src (s : State) (n : Nat) (p : Word) (i : injected s.flt n = false) :
    (getSrc (raiseU s n p).flt n).uncleared = true ∧ (getSrc (raiseU s n p).flt n).cause = true :=
  ⟨(raise_src s n p _ i).1, (raise_src s n p _ i).2.1⟩

theorem tryClear_unacked (s : State) (n m : Nat) (h : (getSrc s.flt m).acked = false) :
    getSrc (tryClear s n).flt m = getSrc s.flt m := by
  simp only [tryClear]; split
  · rename_i c
    by_cases e : m = n
    · subst e; simp [h] at c
    · simp only [mirror_only ..]; exact getSrc_setSrc_other _ _ _ _ e
  · rfl

theorem raise_injected (s : State) (n m : Nat) (p : Word) (k : Nat) : injected (raise s n p k).flt m = injected s.flt m := by
  simp only [raise]
  split
  · rfl
  · have h := raiseNow_src s n p k
    simp only [injected, h]

theorem causeOffNow_src (s : State) (n : Nat) (h : (getSrc s.flt n).acked = false) :
    (getSrc (causeOffNow s n).flt n).uncleared = (getSrc s.flt n).uncleared ∧
    (getSrc (causeOffNow s n).flt n).acked = (getSrc s.flt n).acked ∧
    (getSrc (causeOffNow s n).flt n).param = (getSrc s.flt n).param := by
  simp only [causeOffNow]
  by_cases c : (getSrc s.flt n).cause = true <;> by_cases b : (getSrc s.flt n).broken = true <;>
    simp [c, b, getSrc_setSrc_same, tryClear_unacked, h]

theorem pulse_src (s : State) (n : Nat) (p : Word) (i : injected s.flt n = false)
    (h : ((getSrc s.flt n).acked && (getSrc s.flt n).uncleared && (getSrc s.flt n).cause) = false) :
    (getSrc (pulse s n p).flt n).uncleared = true ∧ (getSrc (pulse s n p).flt n).acked = false ∧
    (getSrc (pulse s n p).flt n).param = p := by
  have z := raise_src s n p (srcRow n).unit i
  have a := z.2.2.2.1 h
  have c := causeOffNow_src (raise s n p (srcRow n).unit) n a.1
  simp only [pulse, causeOff, raiseU, raise_injected, i, Bool.false_eq_true, if_false, c]
  exact ⟨z.1, a.1, a.2.1⟩

end Sys2Proof.Machine
end

