-- ==== Sys2Proof/Laws/Memory.lean ====
section
/-! SUPPORT. The memories: every operation that touches the array or the plate flash keeps their canonical form (`<operation>_wf`), and
those that do not touch them leave them as they are (`<operation>_mem`). -/

set_option linter.unusedSimpArgs false
set_option linter.unusedVariables false
set_option maxRecDepth 8000

namespace Sys2Proof.Machine

open Sys2Proof

/-- The cells of the array, those that stand by for redirected rows, the redirection and the flash are the same in both states. -/
abbrev MemSame (t s : State) : Prop :=
  (t.nvm.cells = s.nvm.cells ∧ t.nvm.spareCells = s.nvm.spareCells ∧ t.nvm.oldCells = s.nvm.oldCells ∧
      t.nvm.redirect = s.nvm.redirect) ∧
    t.plt.flash = s.plt.flash

/-- The memories are in canonical form. -/
abbrev MemOk (s : State) : Prop := ArrayOk s.nvm ∧ tabWf 0xFF#8 s.plt.flash = true

/-- The cells of the array, those of the spare rows, those that redirected rows hold themselves and the redirection are the same. -/
abbrev CellsSame (m n : Nvm) : Prop :=
  m.cells = n.cells ∧ m.spareCells = n.spareCells ∧ m.oldCells = n.oldCells ∧ m.redirect = n.redirect

theorem setBank_keep (n : Nvm) (b : Nat) (x : Bank) : CellsSame (setBank n b x) n := by
  unfold setBank; split <;> exact ⟨rfl, rfl, rfl, rfl⟩

theorem keepDip_keep (s : State) (ch : Nat) (w : Word) : CellsSame (keepDip s ch w) s.nvm := by
  unfold keepDip; (repeat' split) <;> exact ⟨rfl, rfl, rfl, rfl⟩

theorem wearAdd_keep (n : Nvm) (row k : Nat) : CellsSame (wearAdd n row k) n := ⟨rfl, rfl, rfl, rfl⟩

theorem flushCount_keep (n : Nvm) (row : Nat) : CellsSame (flushCount n row) n := by
  unfold flushCount; split <;> exact ⟨rfl, rfl, rfl, rfl⟩

theorem countStore_keep (n : Nvm) (t : Store) (l old : Nat) : CellsSame (countStore n t l old) n := by
  unfold countStore
  split
  · exact flushCount_keep ..
  · (repeat' split) <;> exact ⟨rfl, rfl, rfl, rfl⟩

theorem retireLog_keep (n : Nvm) (l : Nat) : CellsSame (retireLog n l) n := by
  unfold retireLog; (repeat' split) <;> exact ⟨rfl, rfl, rfl, rfl⟩

theorem setScrubAt_keep (n : Nvm) (k : Nat) : CellsSame (setScrubAt n k) n := ⟨rfl, rfl, rfl, rfl⟩

theorem takeSlot_keep (n : Nvm) : CellsSame (takeSlot n) n := ⟨rfl, rfl, rfl, rfl⟩

theorem takeSpare_keep (n : Nvm) (b k : Nat) : CellsSame (takeSpare n b k) n := setBank_keep ..

theorem mapNvm_keep (n : Nvm) (e : Word) : CellsSame (mapNvm n e) n := by
  
  simp only [mapNvm, CellsSame]
  split <;> simp only [setBank_keep .., and_self]

theorem journalFrom_keep (n : Nvm) : CellsSame (journalFrom n) n := by
  unfold journalFrom; (repeat' split) <;> exact ⟨rfl, rfl, rfl, rfl⟩

theorem journalSpares_keep (n : Nvm) (ks : List Nat) : CellsSame (journalSpares n ks) n := by
  induction ks generalizing n with
  | nil => exact ⟨rfl, rfl, rfl, rfl⟩
  | cons k ks ih =>
    simp only [journalSpares]
    (repeat' split) <;> simp [CellsSame, ih, takeSpare_keep ..]

theorem pauseErases_keep (n : Nvm) (b : Bool) : CellsSame (pauseErases n b) n := ⟨rfl, rfl, rfl, rfl⟩

theorem nvPut_spare (n : Nvm) (l : Nat) (w : Word) : (nvPut n l w).spareCells = n.spareCells := rfl

theorem nvErase_spare (n : Nvm) (b row : Nat) : (nvErase n b row).spareCells = n.spareCells := rfl

theorem nvPut_old (n : Nvm) (l : Nat) (w : Word) : (nvPut n l w).oldCells = n.oldCells := rfl

theorem nvErase_old (n : Nvm) (b row : Nat) : (nvErase n b row).oldCells = n.oldCells := rfl

theorem nvPut_redirect (n : Nvm) (l : Nat) (w : Word) : (nvPut n l w).redirect = n.redirect := rfl

theorem nvErase_redirect (n : Nvm) (b row : Nat) : (nvErase n b row).redirect = n.redirect := rfl

theorem putCopy_redirect (n : Nvm) (l : Nat) : (putCopy n l).redirect = n.redirect := by unfold putCopy; split <;> rfl

theorem putCopy_cells (n : Nvm) (l : Nat) : (putCopy n l).cells = n.cells := by unfold putCopy; split <;> rfl

theorem putCopy_old (n : Nvm) (l : Nat) : (putCopy n l).oldCells = n.oldCells := by unfold putCopy; split <;> rfl

theorem tearWord_wf (s : State) (x : Nat × Word) (h : MemOk s) : MemOk (tearWord s x) := by
  simp only [tearWord, MemOk, ArrayOk] at h ⊢
  all_goals ((repeat' split) <;> simp [takeFree_only .., tabWf_tset, iteU .., apply_ite Prod.snd, apply_ite Prod.fst, h,
    MemOk, ArrayOk])

theorem tearWords_wf (s : State) (x0 : List (Nat × Word)) (h : MemOk s) : MemOk (tearWords s x0) := by
  induction x0 generalizing s with
  | nil => simp [tearWords, MemOk, ArrayOk, h]
  | cons y ys ih =>
    simp only [MemOk, ArrayOk, tearWords] at ih h ⊢
    simp [ih, tearWord_wf, iteU .., apply_ite Prod.snd, apply_ite Prod.fst, h, MemOk, ArrayOk]

theorem chipReset_wf (s : State) (code : Nat) (h : MemOk s) : MemOk (chipReset s code) := by
  have h2 := tearWords_wf _ (turnsInHand s) h
  have h3 := tearWords_wf _ (cellsErasing s.nvm) h2
  exact ⟨bootNvm_wf _ h3.1, flashKept_wf _ h3.2⟩

theorem latchReset_wf (was : Bool) (s : State) (h : MemOk s) : MemOk (latchReset was s) := by
  simp only [latchReset, MemOk, ArrayOk] at h ⊢
  all_goals ((repeat' split) <;> simp [chipReset_wf, iteU .., apply_ite Prod.snd, apply_ite Prod.fst, h, MemOk, ArrayOk])

theorem raiseFatal_wf (s : State) (n : Nat) (param : Word) (h : MemOk s) : MemOk (raiseFatal s n param) := by
  simp only [raiseFatal, MemOk, ArrayOk] at h ⊢
  all_goals simp [latchReset_wf, raiseU_only .., iteU .., apply_ite Prod.snd, apply_ite Prod.fst, h, MemOk, ArrayOk]

theorem refuseTurn_mem (s : State) (b : Nat) (t : Store) : MemSame (refuseTurn s b t) s := by
  simp only [refuseTurn, MemSame]
  all_goals ((repeat' split) <;> simp [energyRefused_only .., enqueue_only .., iteU .., apply_ite Prod.snd, apply_ite
    Prod.fst])

theorem startTurn_mem (s : State) (b : Nat) (t : Store) (rest : List Store) : MemSame (startTurn s b t rest) s := by
  simp only [startTurn, MemSame]
  all_goals ((repeat' split) <;> simp [mapPlace_only .., readPin_only .., refillQueue_only .., refuseTurn_mem ..,
    setBank_keep, iteU .., apply_ite Prod.snd, apply_ite Prod.fst])

/-- A relation of memories kept by every step of a fold is kept by the fold. -/
theorem foldl_mem {α : Type} (f : State → α → State) (h : ∀ s a, MemSame (f s a) s) (l : List α) (s : State) :
    MemSame (l.foldl f s) s :=
  foldl_rel MemSame (fun _ => ⟨⟨rfl, rfl, rfl, rfl⟩, rfl⟩)
    (fun _ _ _ p q => ⟨⟨p.1.1.trans q.1.1, p.1.2.1.trans q.1.2.1, p.1.2.2.1.trans q.1.2.2.1, p.1.2.2.2.trans q.1.2.2.2⟩,
      p.2.trans q.2⟩) f h l s

theorem bankServe_mem (b k : Nat) (s : State) : MemSame (bankServe b k s) s := by
  induction k generalizing s with
  | zero => simp [bankServe, MemSame]
  | succ k ih =>
    simp only [MemSame, bankServe] at ih ⊢
    (repeat' split) <;> simp [ih, startTurn_mem .., bankRequest_only .., modArb_only .., bankDrop_only ..]

theorem bankAsk_mem (s : State) (b : Nat) : MemSame (bankAsk s b) s := by
  simp only [bankAsk, MemSame]
  all_goals simp [bankRequest_only .., bankServe_mem .., iteU .., apply_ite Prod.snd, apply_ite Prod.fst]

theorem dropHand_mem (s : State) (b : Nat) : MemSame (dropHand s b) s := by
  simp only [dropHand, MemSame]
  all_goals simp [setBank_keep, iteU .., apply_ite Prod.snd, apply_ite Prod.fst]

theorem bankRelease_mem (s : State) (b : Nat) : MemSame (bankRelease s b) s := by
  simp only [bankRelease, MemSame]
  all_goals simp [bankAsk_mem .., modArb_only .., iteU .., apply_ite Prod.snd, apply_ite Prod.fst]

theorem arbMoved_mem (s : State) (n : Nat) : MemSame (arbMoved s n) s := by
  simp only [arbMoved, MemSame]
  all_goals ((repeat' split) <;> simp [bankAsk_mem .., iteU .., apply_ite Prod.snd, apply_ite Prod.fst])

theorem startStore_mem (s : State) (t : Store) : MemSame (startStore s t) s := by
  simp only [startStore, MemSame]
  all_goals simp [bankAsk_mem .., setBank_keep, iteU .., apply_ite Prod.snd, apply_ite Prod.fst]

theorem requestStore_mem (s : State) (t : Store) : MemSame (requestStore s t) s := by
  simp only [requestStore, MemSame]
  all_goals ((repeat' split) <;> simp [startStore_mem .., iteU .., apply_ite Prod.snd, apply_ite Prod.fst])

theorem storeWord_mem (s : State) (o : Owner) (l : Nat) (w : Word) : MemSame (storeWord s o l w) s := by
  simp only [storeWord, MemSame]
  all_goals simp [requestStore_mem .., iteU .., apply_ite Prod.snd, apply_ite Prod.fst]

theorem storeWords_mem (s : State) (o : Owner) (x0 : List (Nat × Word)) : MemSame (storeWords s o x0) s := by
  induction x0 generalizing s o with
  | nil => simp [storeWords, MemSame]
  | cons y ys ih =>
    simp only [MemSame, storeWords] at ih ⊢
    simp [ih, storeWord_mem .., iteU .., apply_ite Prod.snd, apply_ite Prod.fst]

theorem requestErase_mem (s : State) (bank row : Nat) (o : Owner) : MemSame (requestErase s bank row o) s := by
  simp only [requestErase, MemSame]
  all_goals ((repeat' split) <;> simp [requestStore_mem .., setBank_keep, iteU .., apply_ite Prod.snd, apply_ite Prod.fst])

theorem nextErase_mem (s : State) (bank : Nat) : MemSame (nextErase s bank) s := by
  simp only [nextErase, MemSame]
  all_goals ((repeat' split) <;> simp [requestErase_mem .., setBank_keep, iteU .., apply_ite Prod.snd, apply_ite Prod.fst])

theorem wantRetire_mem (s : State) (bank row : Nat) : MemSame (wantRetire s bank row) s := by
  simp only [wantRetire, MemSame]
  all_goals ((repeat' split) <;> simp [raiseU_only .., iteU .., apply_ite Prod.snd, apply_ite Prod.fst])

theorem checkWear_mem (s : State) (bank row : Nat) : MemSame (checkWear s bank row) s := by
  simp only [checkWear, MemSame]
  all_goals ((repeat' split) <;> simp [pulse_only .., wantRetire_mem .., iteU .., apply_ite Prod.snd, apply_ite Prod.fst])

theorem uncorrFound_mem (s : State) (l : Nat) : MemSame (uncorrFound s l) s := by
  simp only [uncorrFound, MemSame]
  all_goals simp [pulse_only .., wantRetire_mem .., setBank_keep, iteU .., apply_ite Prod.snd, apply_ite Prod.fst]

theorem correctedFound_mem (s : State) (l : Nat) : MemSame (correctedFound s l) s := by
  simp only [correctedFound, MemSame]
  all_goals simp [setBank_keep, iteU .., apply_ite Prod.snd, apply_ite Prod.fst]

theorem wordFound_mem (s : State) (l : Nat) : MemSame (wordFound s l) s := by
  simp only [wordFound, MemSame]
  all_goals ((repeat' split) <;> simp [correctedFound_mem .., uncorrFound_mem .., iteU .., apply_ite Prod.snd, apply_ite
    Prod.fst])

theorem wordsFound_mem (s : State) (x0 : List Nat) : MemSame (wordsFound s x0) s := by
  induction x0 generalizing s with
  | nil => simp [wordsFound, MemSame]
  | cons y ys ih =>
    simp only [MemSame, wordsFound] at ih ⊢
    simp [ih, wordFound_mem .., iteU .., apply_ite Prod.snd, apply_ite Prod.fst]

theorem mapStoreAs_mem (s : State) (o : Owner) (e : Word) : MemSame (mapStoreAs s o e) s := by
  simp only [mapStoreAs, MemSame]
  all_goals ((repeat' split) <;> simp [requestStore_mem .., iteU .., apply_ite Prod.snd, apply_ite Prod.fst])

theorem mapStore_mem (s : State) (e : Word) : MemSame (mapStore s e) s := by
  simp only [mapStore, MemSame]
  all_goals ((repeat' split) <;> simp [mapStoreAs_mem .., iteU .., apply_ite Prod.snd, apply_ite Prod.fst])

theorem mapLates_mem (s : State) (x0 : List Word) : MemSame (mapLates s x0) s := by
  induction x0 generalizing s with
  | nil => simp [mapLates, MemSame]
  | cons y ys ih =>
    simp only [MemSame, mapLates] at ih ⊢
    simp [ih, mapStoreAs_mem .., iteU .., apply_ite Prod.snd, apply_ite Prod.fst]

theorem newDefect_mem (s : State) (e : Word) : MemSame (newDefect s e) s := by
  simp only [newDefect, MemSame]
  all_goals simp [mapStore_mem .., pulse_only .., iteU .., apply_ite Prod.snd, apply_ite Prod.fst]

theorem pltAbandon_mem (s : State) (fail : Nat) : MemSame (pltAbandon s fail) s := by
  simp only [pltAbandon, MemSame]
  all_goals ((repeat' split) <;> simp [iteU .., apply_ite Prod.snd, apply_ite Prod.fst])

theorem pltAnswer_mem (s : State) (st : Nat) : MemSame (pltAnswer s st) s := by
  simp only [pltAnswer, MemSame]
  all_goals ((repeat' split) <;> simp [svcReply_only .., iteU .., apply_ite Prod.snd, apply_ite Prod.fst])

theorem pfwCut_mem (s : State) : MemSame (pfwCut s) s := by
  simp only [pfwCut, MemSame]
  all_goals simp [imgAbandon_only .., imgAnswer_only .., pltAbandon_mem .., pltAnswer_mem .., iteU .., apply_ite Prod.snd,
    apply_ite Prod.fst]

theorem entryFaults_mem (s : State) (loc : Nat) : MemSame (entryFaults s loc) s := by
  simp only [entryFaults, MemSame]
  all_goals ((repeat' split) <;> simp [wordsFound_mem .., iteU .., apply_ite Prod.snd, apply_ite Prod.fst])

theorem entryFaultsAll_mem (s : State) (x0 : List Nat) : MemSame (entryFaultsAll s x0) s := by
  induction x0 generalizing s with
  | nil => simp [entryFaultsAll, MemSame]
  | cons y ys ih =>
    simp only [MemSame, entryFaultsAll] at ih ⊢
    simp [ih, entryFaults_mem .., iteU .., apply_ite Prod.snd, apply_ite Prod.fst]

theorem eraseAhead_mem (s : State) (row : Nat) : MemSame (eraseAhead s row) s := by
  simp only [eraseAhead, MemSame]
  all_goals simp [requestErase_mem .., iteU .., apply_ite Prod.snd, apply_ite Prod.fst]

theorem aheadCheck_mem (s : State) : MemSame (aheadCheck s) s := by
  simp only [aheadCheck, MemSame]
  all_goals ((repeat' split) <;> simp [addRecord_only .., eraseAhead_mem .., iteU .., apply_ite Prod.snd, apply_ite Prod.fst])

theorem eraseNext_mem (s : State) : MemSame (eraseNext s) s := by
  simp only [eraseNext, MemSame]
  all_goals simp [eraseAhead_mem .., iteU .., apply_ite Prod.snd, apply_ite Prod.fst]

theorem skipRow_mem (s : State) (r : Nat) : MemSame (skipRow s r) s := by
  simp only [skipRow, MemSame]
  all_goals simp [eraseAhead_mem .., iteU .., apply_ite Prod.snd, apply_ite Prod.fst]

theorem beginChunk_mem (s : State) (t : Store) (xs : List Record) (header : Option (Nat × Word)) : MemSame (beginChunk s t xs
    header) s := by
  simp only [beginChunk, MemSame]
  all_goals simp [startStore_mem .., iteU .., apply_ite Prod.snd, apply_ite Prod.fst]

theorem takeChunk_mem (s : State) (t : Store) : MemSame (takeChunk s t) s := by
  simp only [takeChunk, MemSame]
  all_goals ((repeat' split) <;> simp [beginChunk_mem .., dropNotice_only .., eraseNext_mem .., iteU .., apply_ite Prod.snd,
    apply_ite Prod.fst])

theorem tryChunk_mem (s : State) (t : Store) : MemSame (tryChunk s t) s := by
  simp only [tryChunk, MemSame]
  all_goals ((repeat' split) <;> simp [aheadCheck_mem .., chunkRefused_only .., readPin_only .., takeChunk_mem .., iteU ..,
    apply_ite Prod.snd, apply_ite Prod.fst])

theorem fatalConfirm_wf (s : State) (h : MemOk s) : MemOk (fatalConfirm s) := by
  simp only [fatalConfirm, MemOk, ArrayOk] at h ⊢
  all_goals ((repeat' split) <;> simp [chipReset_wf, iteU .., apply_ite Prod.snd, apply_ite Prod.fst, h, MemOk, ArrayOk])

theorem pfwTurns_mem (s : State) (x0 : List Nat) : MemSame (pfwTurns s x0) s := by
  induction x0 generalizing s with
  | nil => simp [pfwTurns, MemSame]
  | cons y ys ih =>
    simp only [MemSame, pfwTurns] at ih ⊢
    simp [ih, bankDrop_only .., setBank_keep, iteU .., apply_ite Prod.snd, apply_ite Prod.fst]

theorem pfwStart_mem (s : State) : MemSame (pfwStart s) s := by
  simp only [pfwStart, MemSame]
  all_goals simp [addRecord_only .., clearsCut_only .., pfwCut_mem .., pfwTurns_mem .., readPin_only .., refillQueue_only ..,
    startFlush_only .., pauseErases_keep, iteU .., apply_ite Prod.snd, apply_ite Prod.fst]

theorem resumeErases_mem (s : State) (x0 : List Nat) : MemSame (resumeErases s x0) s := by
  induction x0 generalizing s with
  | nil => simp [resumeErases, MemSame]
  | cons y ys ih =>
    simp only [MemSame, resumeErases] at ih ⊢
    (repeat' split) <;> simp [ih, bankAsk_mem .., requestStore_mem .., iteU .., apply_ite Prod.snd, apply_ite Prod.fst]

theorem pfwEnd_mem (s : State) : MemSame (pfwEnd s) s := by
  simp only [pfwEnd, MemSame]
  all_goals simp [addRecord_only .., resumeErases_mem .., pauseErases_keep, iteU .., apply_ite Prod.snd, apply_ite Prod.fst]

theorem pfwRefresh_mem (s : State) : MemSame (pfwRefresh s) s := by
  simp only [pfwRefresh, MemSame]
  all_goals ((repeat' split) <;> simp [pfwEnd_mem .., pfwStart_mem .., iteU .., apply_ite Prod.snd, apply_ite Prod.fst])

theorem mainsPfw_mem (s : State) (c : IslandsCfg) (rms : List Int) : MemSame (mainsPfw s c rms) s := by
  simp only [mainsPfw, MemSame]
  all_goals simp [pfwRefresh_mem .., iteU .., apply_ite Prod.snd, apply_ite Prod.fst]

theorem calEntry_mem (s : State) (w : Word) : MemSame (calEntry s w) s := by
  simp only [calEntry, MemSame]
  all_goals simp [iteU .., apply_ite Prod.snd, apply_ite Prod.fst]

theorem retireSlice_mem (s : State) (n : Nat) : MemSame (retireSlice s n) s := by
  simp only [retireSlice, MemSame]
  all_goals ((repeat' split) <;> simp [mapStore_mem .., openSlices_only .., raiseU_only .., rerunDue_only .., setList_only ..,
    setSlice_only .., iteU .., apply_ite Prod.snd, apply_ite Prod.fst])

theorem calApply_mem (s : State) (n kind : Nat) (offs gains : List Int) : MemSame (calApply s n kind offs gains) s := by
  simp only [calApply, MemSame]
  all_goals simp [calEntry_mem .., setSlice_only .., iteU .., apply_ite Prod.snd, apply_ite Prod.fst]

theorem publishInst_mem (s : State) (tile f : Nat) (c : InstCfg) (r : BRes) : MemSame (publishInst s tile f c r) s := by
  simp only [publishInst, MemSame]
  all_goals ((repeat' split) <;> simp [delivers_only .., publishAlarm_only .., publishPub_only .., publishSfrz_only .., iteU
    .., apply_ite Prod.snd, apply_ite Prod.fst])

theorem publishAll_mem (s : State) (tile f : Nat) (x0 : List (Nat × BRes)) : MemSame (publishAll s tile f x0) s := by
  induction x0 generalizing s tile f with
  | nil => simp [publishAll, MemSame]
  | cons y ys ih =>
    simp only [MemSame, publishAll] at ih ⊢
    (repeat' split) <;> simp [ih, publishInst_mem .., iteU .., apply_ite Prod.snd, apply_ite Prod.fst]

theorem publishFrame_mem (s : State) (tile f : Nat) : MemSame (publishFrame s tile f) s := by
  simp only [publishFrame, MemSame]
  all_goals simp [publishAll_mem .., setLt_only .., iteU .., apply_ite Prod.snd, apply_ite Prod.fst]

theorem retireSpare_mem (s : State) (p : Nat) : MemSame (retireSpare s p) s := by
  simp only [retireSpare, MemSame]
  all_goals simp [assignTiles_only .., newDefect_mem .., rerunDue_only .., setTile_only .., iteU .., apply_ite Prod.snd,
    apply_ite Prod.fst]

theorem migrate_mem (s : State) (t p minor g : Nat) : MemSame (migrate s t p minor g) s := by
  simp only [migrate, MemSame]
  all_goals ((repeat' split) <;> simp [mapStore_mem .., migEnds_only .., migNote_only .., raiseU_only .., setLt_only .., iteU
    .., apply_ite Prod.snd, apply_ite Prod.fst])

theorem tableFail_mem (s : State) (t p : Nat) : MemSame (tableFail s t p) s := by
  simp only [tableFail, MemSame]
  all_goals ((repeat' split) <;> simp [barFrame_only .., migrate_mem .., setTile_only .., withhold_only .., iteU .., apply_ite
    Prod.snd, apply_ite Prod.fst])

theorem tileFail_mem (s : State) (t : Nat) : MemSame (tileFail s t) s := by
  simp only [tileFail, MemSame]
  all_goals ((repeat' split) <;> simp [retireSpare_mem .., setTile_only .., tableFail_mem .., withhold_only .., iteU ..,
    apply_ite Prod.snd, apply_ite Prod.fst])

theorem lateFails_mem (s : State) (x0 : List Nat) : MemSame (lateFails s x0) s := by
  induction x0 generalizing s with
  | nil => simp [lateFails, MemSame]
  | cons y ys ih =>
    simp only [MemSame, lateFails] at ih ⊢
    (repeat' split) <;> simp [ih, tableFail_mem .., iteU .., apply_ite Prod.snd, apply_ite Prod.fst]

theorem loadFail_mem (s : State) (l : MigLoad) : MemSame (loadFail s l) s := by
  simp only [loadFail, MemSame]
  all_goals simp [barFrame_only .., mapStore_mem .., migrate_mem .., setTile_only .., iteU .., apply_ite Prod.snd, apply_ite
    Prod.fst]

theorem loadEnd_mem (s : State) (x : MigLoad) : MemSame (loadEnd s x) s := by
  simp only [loadEnd, MemSame]
  all_goals simp [loadTable_only .., mapStore_mem .., migEnds_only .., migNote_only .., pulse_only .., setTile_only ..,
    sparesLow_only .., withhold_only .., iteU .., apply_ite Prod.snd, apply_ite Prod.fst]

theorem keeperSplit_wf (s : State) (h : MemOk s) : MemOk (keeperSplit s) := by
  simp only [keeperSplit, MemOk, ArrayOk] at h ⊢
  all_goals simp [raiseFatal_wf, iteU .., apply_ite Prod.snd, apply_ite Prod.fst, h, MemOk, ArrayOk]

theorem clearFreeze_mem (s : State) (n : Nat) : MemSame (clearFreeze s n) s := by
  simp only [clearFreeze, MemSame]
  all_goals ((repeat' split) <;> simp [arbMoved_mem .., canFresh_only .., modArb_only .., setList_only .., iteU .., apply_ite
    Prod.snd, apply_ite Prod.fst])

theorem clearFreezes_mem (s : State) (x0 : List Nat) : MemSame (clearFreezes s x0) s := by
  induction x0 generalizing s with
  | nil => simp [clearFreezes, MemSame]
  | cons y ys ih =>
    simp only [MemSame, clearFreezes] at ih ⊢
    simp [ih, clearFreeze_mem .., iteU .., apply_ite Prod.snd, apply_ite Prod.fst]

theorem portTileFail_mem (s : State) (port : Nat) : MemSame (portTileFail s port) s := by
  simp only [portTileFail, MemSame]
  all_goals ((repeat' split) <;> simp [loadFail_mem .., retireSpare_mem .., tileFail_mem .., iteU .., apply_ite Prod.snd,
    apply_ite Prod.fst])

theorem poisoned_mem (s : State) (src dst : Nat) : MemSame (poisoned s src dst) s := by
  simp only [poisoned, MemSame]
  all_goals ((repeat' split) <;> simp [portTileFail_mem .., pulse_only .., iteU .., apply_ite Prod.snd, apply_ite Prod.fst])

theorem arrive_mem (s : State) (c : Cross) : MemSame (arrive s c) s := by
  simp only [arrive, MemSame]
  all_goals ((repeat' split) <;> simp [poisoned_mem .., iteU .., apply_ite Prod.snd, apply_ite Prod.fst])

theorem crossWord_mem (s : State) (d : Nat) (c : Cross) (wrong : Bool) : MemSame (crossWord s d c wrong) s := by
  simp only [crossWord, MemSame]
  all_goals ((repeat' split) <;> simp [arrive_mem .., leaveLink_only .., setCross_only .., iteU .., apply_ite Prod.snd,
    apply_ite Prod.fst])

theorem endPacket_mem (s : State) (c : Cross) : MemSame (endPacket s c) s := by
  simp only [endPacket, MemSame]
  all_goals simp [leaveLinks_only .., passLinks_only .., poisoned_mem .., iteU .., apply_ite Prod.snd, apply_ite Prod.fst]

theorem sramEntry_mem (s : State) (row : Nat) : MemSame (sramEntry s row) s := by
  simp only [sramEntry, MemSame]
  all_goals ((repeat' split) <;> simp [mapStore_mem .., iteU .., apply_ite Prod.snd, apply_ite Prod.fst])

theorem sramEntries_mem (s : State) (x0 : List Nat) : MemSame (sramEntries s x0) s := by
  induction x0 generalizing s with
  | nil => simp [sramEntries, MemSame]
  | cons y ys ih =>
    simp only [MemSame, sramEntries] at ih ⊢
    simp [ih, sramEntry_mem .., iteU .., apply_ite Prod.snd, apply_ite Prod.fst]

theorem sramEnd_mem (s : State) (b : Nat) : MemSame (sramEnd s b) s := by
  simp only [sramEnd, MemSame]
  all_goals simp [sramEntries_mem .., iteU .., apply_ite Prod.snd, apply_ite Prod.fst]

theorem swapLane_mem (s : State) (d lane : Nat) : MemSame (swapLane s d lane) s := by
  simp only [swapLane, MemSame]
  all_goals simp [addRecord_only .., clearFreezes_mem .., mapStore_mem .., setLink_only .., iteU .., apply_ite Prod.snd,
    apply_ite Prod.fst]

theorem storeRest_mem (s : State) (t : Store) : MemSame (storeRest s t) s := by
  simp only [storeRest, MemSame]
  all_goals ((repeat' split) <;> simp [setBank_keep, iteU .., apply_ite Prod.snd, apply_ite Prod.fst])

theorem secondStore_mem (s : State) (b : Nat) (t : Store) : MemSame (secondStore s b t) s := by
  simp only [secondStore, MemSame]
  all_goals simp [setBank_keep, iteU .., apply_ite Prod.snd, apply_ite Prod.fst]

theorem dropRewrites_mem (s : State) (l : Nat) : MemSame (dropRewrites s l) s := by
  simp only [dropRewrites, MemSame]
  all_goals simp [setBank_keep, iteU .., apply_ite Prod.snd, apply_ite Prod.fst]

theorem programWord_wf (s : State) (t : Store) (x : Nat × Word) (differs : Bool) (h : MemOk s) : MemOk (programWord s t x
    differs) := by
  simp only [programWord, MemOk, ArrayOk] at h ⊢
  all_goals ((repeat' split) <;> simp [dropRewrites_mem .., markW0_only .., tearWord_wf, retireLog_keep, nvPut_wf, putCopy_wf,
    nvPut_spare, nvPut_old, nvPut_redirect, putCopy_cells, putCopy_old, putCopy_redirect, iteU .., apply_ite Prod.snd,
    apply_ite Prod.fst, h, MemOk, ArrayOk])

theorem wordTurn_wf (s : State) (b : Nat) (t : Store) (x : Nat × Word) (o : WordOut) (h : MemOk s) :
    MemOk (wordTurn s b t x o) := by
  unfold wordTurn
  cases o <;> (repeat' split) <;>
    simp_all [MemOk, ArrayOk, dropHand_mem .., onceWritten_only .., programWord_wf, secondStore_mem .., storeRest_mem .., countStore_keep ..]

theorem imageErased_mem (s : State) (slot row : Nat) : MemSame (imageErased s slot row) s := by
  simp only [imageErased, MemSame]
  all_goals ((repeat' split) <;> simp [requestErase_mem .., storeWord_mem .., iteU .., apply_ite Prod.snd, apply_ite
    Prod.fst])

theorem eraseDone_wf (s : State) (b : Nat) (e : EraseSeq) (h : MemOk s) : MemOk (eraseDone s b e) := by
  simp only [eraseDone, MemOk, ArrayOk] at h ⊢
  all_goals ((repeat' split) <;> simp [imageErased_mem .., setBank_keep, nvErase_wf, nvErase_spare, nvErase_old,
    nvErase_redirect, iteU .., apply_ite Prod.snd, apply_ite Prod.fst, h, MemOk, ArrayOk])

theorem eraseSkipped_mem (s : State) (row : Nat) (o : Owner) : MemSame (eraseSkipped s row o) s := by
  simp only [eraseSkipped, MemSame]
  all_goals ((repeat' split) <;> simp [imageErased_mem .., skipRow_mem .., iteU .., apply_ite Prod.snd, apply_ite Prod.fst])

theorem eraseFailed_mem (s : State) (b : Nat) (e : EraseSeq) : MemSame (eraseFailed s b e) s := by
  simp only [eraseFailed, MemSame]
  all_goals ((repeat' split) <;> simp [eraseSkipped_mem .., requestErase_mem .., wantRetire_mem .., setBank_keep, iteU ..,
    apply_ite Prod.snd, apply_ite Prod.fst])

theorem sparesGone_mem (s : State) (b row : Nat) : MemSame (sparesGone s b row) s := by
  simp only [sparesGone, MemSame]
  all_goals ((repeat' split) <;> simp [eraseSkipped_mem .., nextErase_mem .., raiseU_only .., setBank_keep, iteU .., apply_ite
    Prod.snd, apply_ite Prod.fst])

theorem pulseEnd_wf (s : State) (b : Nat) (e : EraseSeq) (blank : Bool) (h : MemOk s) : MemOk (pulseEnd s b e blank) := by
  simp only [pulseEnd, MemOk, ArrayOk] at h ⊢
  all_goals ((repeat' split) <;> simp [bankRelease_mem .., checkWear_mem .., dropHand_mem .., eraseDone_wf, eraseFailed_mem
    .., nextErase_mem .., requestStore_mem .., setBank_keep, iteU .., apply_ite Prod.snd, apply_ite Prod.fst, h, MemOk,
    ArrayOk])

theorem degrade_wf (s : State) (x : Nat × Bool) (h : MemOk s) : MemOk (degrade s x) := by
  simp only [degrade, MemOk, ArrayOk] at h ⊢
  all_goals ((repeat' split) <;> simp [takeFree_only .., tabWf_tset, iteU .., apply_ite Prod.snd, apply_ite Prod.fst, h,
    MemOk, ArrayOk])

theorem degrades_wf (s : State) (x0 : List (Nat × Bool)) (h : MemOk s) : MemOk (degrades s x0) := by
  induction x0 generalizing s with
  | nil => simp [degrades, MemOk, ArrayOk, h]
  | cons y ys ih =>
    simp only [MemOk, ArrayOk, degrades] at ih h ⊢
    simp [ih, degrade_wf, iteU .., apply_ite Prod.snd, apply_ite Prod.fst, h, MemOk, ArrayOk]

theorem scrubWord_mem (s : State) (l : Nat) : MemSame (scrubWord s l) s := by
  simp only [scrubWord, MemSame]
  all_goals ((repeat' split) <;> simp [correctedFound_mem .., storeWord_mem .., uncorrFound_mem .., wantRetire_mem .., iteU
    .., apply_ite Prod.snd, apply_ite Prod.fst])

theorem scrubWords_mem (s : State) (x0 : List Nat) : MemSame (scrubWords s x0) s := by
  induction x0 generalizing s with
  | nil => simp [scrubWords, MemSame]
  | cons y ys ih =>
    simp only [MemSame, scrubWords] at ih ⊢
    simp [ih, scrubWord_mem .., iteU .., apply_ite Prod.snd, apply_ite Prod.fst]

theorem scrubPacket_mem (s : State) (b : Nat) : MemSame (scrubPacket s b) s := by
  simp only [scrubPacket, MemSame]
  all_goals ((repeat' split) <;> simp [scrubWords_mem .., setBank_keep, iteU .., apply_ite Prod.snd, apply_ite Prod.fst])

theorem scrubProgress_mem (k : Nat) (s : State) : MemSame (scrubProgress k s) s := by
  induction k generalizing s with
  | zero => simp [scrubProgress, MemSame]
  | succ k ih =>
    simp only [MemSame, scrubProgress] at ih ⊢
    (repeat' split) <;> simp [ih, storeWord_mem ..]

theorem scrubPassEnd_mem (s : State) : MemSame (scrubPassEnd s) s := by
  simp only [scrubPassEnd, MemSame]
  all_goals ((repeat' split) <;> simp [causeOff_only .., setScrubAt_keep, iteU .., apply_ite Prod.snd, apply_ite Prod.fst])

theorem readEnd_mem (s : State) (b : Nat) (t : Store) : MemSame (readEnd s b t) s := by
  simp only [readEnd, MemSame]
  all_goals ((repeat' split) <;> simp [bankRelease_mem .., dropHand_mem .., scrubPacket_mem .., scrubPassEnd_mem ..,
    scrubProgress_mem .., iteU .., apply_ite Prod.snd, apply_ite Prod.fst])

theorem readsRun_mem (b : Nat) (o : Owner) (k : Nat) (s : State) : MemSame (readsRun b o k s) s := by
  induction k generalizing s with
  | zero => simp [readsRun, MemSame]
  | succ k ih =>
    simp only [MemSame, readsRun] at ih ⊢
    (repeat' split) <;> simp [ih, readEnd_mem ..]

theorem askReads_mem (s : State) (b : Nat) (o : Owner) (k : Nat) : MemSame (askReads s b o k) s := by
  simp only [askReads, MemSame]
  all_goals simp [bankAsk_mem .., setBank_keep, iteU .., apply_ite Prod.snd, apply_ite Prod.fst]

theorem recReads_mem (s t : State) (n : Nat) (h : recReads s n = some t) : MemSame t s := by
  simp only [recReads] at h
  split at h
  · cases h
  · cases h
    simp [MemSame, readsRun_mem .., askReads_mem ..]

theorem scrubBank_mem (s : State) (b : Nat) : MemSame (scrubBank s b) s := by
  simp only [scrubBank, MemSame]
  all_goals simp [askReads_mem .., readsRun_mem .., iteU .., apply_ite Prod.snd, apply_ite Prod.fst]

theorem scrubBanks_mem (s : State) (x0 : List Nat) : MemSame (scrubBanks s x0) s := by
  induction x0 generalizing s with
  | nil => simp [scrubBanks, MemSame]
  | cons y ys ih =>
    simp only [MemSame, scrubBanks] at ih ⊢
    simp [ih, scrubBank_mem .., iteU .., apply_ite Prod.snd, apply_ite Prod.fst]

theorem sparesCheck_mem (s : State) (b : Nat) : MemSame (sparesCheck s b) s := by
  simp only [sparesCheck, MemSame]
  all_goals ((repeat' split) <;> simp [raiseU_only .., sparesLow_only .., setBank_keep, iteU .., apply_ite Prod.snd, apply_ite
    Prod.fst])

theorem setRetire_mem (s : State) (r : Option Retire) : MemSame (setRetire s r) s := by
  simp only [setRetire, MemSame]
  all_goals simp [iteU .., apply_ite Prod.snd, apply_ite Prod.fst]

theorem wearReset_mem (s : State) (row : Nat) : MemSame (wearReset s row) s := by
  simp only [wearReset, MemSame]
  all_goals simp [setBank_keep, iteU .., apply_ite Prod.snd, apply_ite Prod.fst]

theorem redirectRow_wf (s : State) (r : Retire) (h : MemOk s) : MemOk (redirectRow s r) := by
  simp only [redirectRow, MemOk, ArrayOk] at h ⊢
  all_goals ((repeat' split) <;> simp [clearFreeze_mem .., mapRestored_only .., setRetire_mem .., wearReset_mem ..,
    redirectCells_wf, tabWf_tset, iteU .., apply_ite Prod.snd, apply_ite Prod.fst, h, MemOk, ArrayOk])

theorem askCopy_mem (s : State) (l : Nat) : MemSame (askCopy s l) s := by
  simp only [askCopy, MemSame]
  all_goals simp [requestStore_mem .., iteU .., apply_ite Prod.snd, apply_ite Prod.fst]

theorem retireAsk_mem (s : State) (r : Retire) : MemSame (retireAsk s r) s := by
  simp only [retireAsk, MemSame]
  all_goals ((repeat' split) <;> simp [askCopy_mem .., askReads_mem .., clearFreeze_mem .., mapStoreAs_mem .., setFreeze_only
    .., setRetire_mem .., storeWord_mem .., iteU .., apply_ite Prod.snd, apply_ite Prod.fst])

theorem retireDone_mem (s : State) (r : Retire) : MemSame (retireDone s r) s := by
  simp only [retireDone, MemSame]
  all_goals simp [addRecord_only .., nextErase_mem .., setRetire_mem .., sparesCheck_mem .., iteU .., apply_ite Prod.snd,
    apply_ite Prod.fst]

theorem retireStored_wf (s : State) (o : Owner) (l : Nat) (h : MemOk s) : MemOk (retireStored s o l) := by
  simp only [retireStored, MemOk, ArrayOk] at h ⊢
  all_goals ((repeat' split) <;> simp [redirectRow_wf, retireAsk_mem .., retireDone_mem .., setRetire_mem .., iteU ..,
    apply_ite Prod.snd, apply_ite Prod.fst, h, MemOk, ArrayOk])

theorem retireSpareBad_mem (s : State) (r : Retire) : MemSame (retireSpareBad s r) s := by
  simp only [retireSpareBad, MemSame]
  all_goals ((repeat' split) <;> simp [mapStore_mem .., setRetire_mem .., sparesGone_mem .., takeSlot_keep, takeSpare_keep,
    iteU .., apply_ite Prod.snd, apply_ite Prod.fst])

theorem retireStep_mem (s : State) (r : Retire) (differs : Bool) : MemSame (retireStep s r differs) s := by
  simp only [retireStep, MemSame]
  all_goals ((repeat' split) <;> simp [readsRun_mem .., retireAsk_mem .., retireSpareBad_mem .., setRetire_mem .., iteU ..,
    apply_ite Prod.snd, apply_ite Prod.fst])

theorem retireNext_mem (s : State) : MemSame (retireNext s) s := by
  simp only [retireNext, MemSame]
  all_goals ((repeat' split) <;> simp [setRetire_mem .., sparesGone_mem .., takeSlot_keep, takeSpare_keep, iteU .., apply_ite
    Prod.snd, apply_ite Prod.fst])

theorem ownerDone_wf (s : State) (t : Store) (x : Nat × Word) (h : MemOk s) : MemOk (ownerDone s t x) := by
  simp only [ownerDone, MemOk, ArrayOk] at h ⊢
  all_goals ((repeat' split) <;> simp [recStored_only .., retireStored_wf, iteU .., apply_ite Prod.snd, apply_ite Prod.fst, h,
    MemOk, ArrayOk])

theorem wordEnd_wf (s : State) (b : Nat) (t : Store) (x : Nat × Word) (differs : Bool) (h : MemOk s) : MemOk (wordEnd s b t x
    differs) := by
  simp only [wordEnd, MemOk, ArrayOk] at h ⊢
  all_goals ((repeat' split) <;> simp [bankAsk_mem .., bankRelease_mem .., checkWear_mem .., chunkOver_only .., ownerDone_wf,
    wantRetire_mem .., wordTurn_wf, iteU .., apply_ite Prod.snd, apply_ite Prod.fst, h, MemOk, ArrayOk])

theorem chunkRun_wf (k : Nat) (s : State) (h : MemOk s) : MemOk (chunkRun k s) := by
  induction k generalizing s with
  | zero => exact h
  | succ k ih =>
    simp only [chunkRun]
    (repeat' split) <;> first | exact h | exact ih _ (wordEnd_wf _ _ _ _ _ h)

theorem startClear_mem (s : State) (port : Word) : MemSame ((startClear s port).2) s := by
  simp only [startClear, MemSame]
  all_goals ((repeat' split) <;> simp [beginChunk_mem .., eraseNext_mem .., iteU .., apply_ite Prod.snd, apply_ite Prod.fst])

theorem clearServe_mem (k : Nat) (s : State) : MemSame (clearServe k s) s := by
  induction k generalizing s with
  | zero => simp [clearServe, MemSame]
  | succ k ih =>
    simp only [MemSame, clearServe] at ih ⊢
    (repeat' split) <;>
      simp [ih, aheadCheck_mem .., clearAnswer_only .., energyRefused_only .., readPin_only .., startClear_mem ..]

theorem clearsServe_mem (s : State) : MemSame (clearsServe s) s := by
  simp only [clearsServe, MemSame]
  all_goals simp [clearServe_mem .., iteU .., apply_ite Prod.snd, apply_ite Prod.fst]

theorem recClear_mem (s : State) (c : ClearReq) : MemSame (recClear s c) s := by
  simp only [recClear, MemSame]
  all_goals simp [clearsServe_mem .., iteU .., apply_ite Prod.snd, apply_ite Prod.fst]

theorem wearStore_mem (s : State) (row k : Nat) : MemSame (wearStore s row k) s := by
  simp only [wearStore, MemSame]
  all_goals simp [storeWord_mem .., wearAdd_keep, iteU .., apply_ite Prod.snd, apply_ite Prod.fst]

theorem passRow_mem (s : State) (cs : List (Nat × Nat × Word)) (row : Nat) : MemSame (passRow s cs row) s := by
  have h := fun xs => foldl_mem (fun (t : State) (c : Nat × Nat × Word) => storeWord t (.persistent c.1 c.2.1) (itemLoc c.1) c.2.2)
    (fun u a => storeWord_mem ..) xs s
  simp only [passRow, MemSame] at h ⊢
  split
  · exact ⟨⟨rfl, rfl, rfl, rfl⟩, rfl⟩
  · simp [wearStore_mem .., h]

theorem passRows_mem (s : State) (cs : List (Nat × Nat × Word)) (x0 : List Nat) : MemSame (passRows s cs x0) s := by
  induction x0 generalizing s cs with
  | nil => simp [passRows, MemSame]
  | cons y ys ih =>
    simp only [MemSame, passRows] at ih ⊢
    simp [ih, passRow_mem .., iteU .., apply_ite Prod.snd, apply_ite Prod.fst]

theorem calStores_mem (s : State) (pass : Bool) (x0 : List Word) : MemSame (calStores s pass x0) s := by
  induction x0 generalizing s pass with
  | nil => simp [calStores, MemSame]
  | cons y ys ih =>
    simp only [MemSame, calStores] at ih ⊢
    (repeat' split) <;> simp [ih, storeWord_mem .., wearStore_mem .., wearAdd_keep, iteU .., apply_ite Prod.snd, apply_ite
      Prod.fst]

theorem wearFurther_mem (s : State) (row : Nat) : MemSame (wearFurther s row) s := by
  simp only [wearFurther, MemSame]
  all_goals simp [wearStore_mem .., iteU .., apply_ite Prod.snd, apply_ite Prod.fst]

theorem passLayout_mem (s : State) : MemSame (passLayout s) s := by
  simp only [passLayout, MemSame]
  all_goals ((repeat' split) <;> simp [storeWord_mem .., wearStore_mem .., iteU .., apply_ite Prod.snd, apply_ite Prod.fst])

theorem persistentPass_mem (s : State) : MemSame (persistentPass s) s := by
  have h := fun xs s => foldl_mem wearFurther (fun u a => wearFurther_mem u a) xs s
  simp only [persistentPass, MemSame] at h ⊢
  simp [h, calStores_mem .., passLayout_mem .., passRows_mem ..]

theorem flushWord_mem (s : State) (o : Owner) (l : Nat) (w : Word) : MemSame (flushWord s o l w) s := by
  simp only [flushWord, MemSame]
  all_goals simp [requestStore_mem .., iteU .., apply_ite Prod.snd, apply_ite Prod.fst]

theorem flushItems_mem (s : State) (x0 : List (Nat × Nat × Word)) : MemSame (flushItems s x0) s := by
  induction x0 generalizing s with
  | nil => simp [flushItems, MemSame]
  | cons y ys ih =>
    simp only [MemSame, flushItems] at ih ⊢
    simp [ih, flushWord_mem .., iteU .., apply_ite Prod.snd, apply_ite Prod.fst]

theorem storeAuth_mem (s : State) (flush : Bool) (x0 : List (Nat × Option Word)) : MemSame (storeAuth s flush x0) s := by
  induction x0 generalizing s flush with
  | nil => simp [storeAuth, MemSame]
  | cons y ys ih =>
    simp only [MemSame, storeAuth] at ih ⊢
    (repeat' split) <;> simp [ih, flushWord_mem .., storeWord_mem .., iteU .., apply_ite Prod.snd, apply_ite Prod.fst]

theorem flushChunks_mem (s : State) : MemSame (flushChunks s) s := by
  simp only [flushChunks, MemSame]
  all_goals ((repeat' split) <;> simp [aheadCheck_mem .., startFlush_only .., iteU .., apply_ite Prod.snd, apply_ite
    Prod.fst])

theorem flushBegin_mem (s : State) (k : Nat) : MemSame (flushBegin s k) s := by
  simp only [flushBegin, MemSame]
  all_goals ((repeat' split) <;> simp [calStores_mem .., flushChunks_mem .., flushItems_mem .., storeAuth_mem ..,
    storeWord_mem .., iteU .., apply_ite Prod.snd, apply_ite Prod.fst])

theorem flushStep_mem (s : State) : MemSame (flushStep s) s := by
  simp only [flushStep, MemSame]
  all_goals ((repeat' split) <;> simp [flushBegin_mem .., iteU .., apply_ite Prod.snd, apply_ite Prod.fst])

theorem retryStore_mem (s : State) (t : Store) : MemSame (retryStore s t) s := by
  simp only [retryStore, MemSame]
  all_goals ((repeat' split) <;> simp [energyRefused_only .., queueGone_only .., refillQueue_only .., startStore_mem ..,
    tryChunk_mem .., iteU .., apply_ite Prod.snd, apply_ite Prod.fst])

theorem xferLoad_mem (s : State) (n : Nat) : MemSame (xferLoad s n) s := by
  simp only [xferLoad]
  repeat' split
  case _ => simp [MemSame]
  case _ => simp [MemSame]
  case _ => simp [MemSame]
  case _ => simp [MemSame]
  case _ hr =>
    have h := recReads_mem _ _ _ hr
    simp only [MemSame] at h ⊢
    simp [h, entryFaultsAll_mem .., setCan_only ..]

theorem loadReady_mem (s : State) (n : Nat) : MemSame (loadReady s n) s := by
  simp only [loadReady, MemSame]
  all_goals simp [canPump_only .., xferLoad_mem .., iteU .., apply_ite Prod.snd, apply_ite Prod.fst]

theorem islConfigure_mem (s : State) (i : Nat) : MemSame (islConfigure s i) s := by
  simp only [islConfigure, MemSame]
  all_goals simp [canSettings_only .., clearFreezes_mem .., setIsl_only .., iteU .., apply_ite Prod.snd, apply_ite Prod.fst]

theorem islUnit_mem (s : State) (i : Nat) : MemSame (islUnit s i) s := by
  simp only [islUnit, MemSame]
  all_goals ((repeat' split) <;> simp [canFlush_only .., islEmpty_only .., pfwRefresh_mem .., iteU .., apply_ite Prod.snd,
    apply_ite Prod.fst])

theorem islStop_mem (s : State) (i : Nat) : MemSame (islStop s i) s := by
  simp only [islStop, MemSame]
  all_goals simp [islUnit_mem .., raiseU_only .., setIsl_only .., iteU .., apply_ite Prod.snd, apply_ite Prod.fst]

theorem islFlush_mem (s : State) (i : Nat) : MemSame (islFlush s i) s := by
  simp only [islFlush, MemSame]
  all_goals ((repeat' split) <;> simp [addRecord_only .., feRestart_only .., islBaud_only .., islCause_only ..,
    islConfigure_mem .., islUnit_mem .., setIsl_only .., iteU .., apply_ite Prod.snd, apply_ite Prod.fst])

theorem mapComplete_mem (s : State) (x0 : List Nat) : MemSame (mapComplete s x0) s := by
  induction x0 generalizing s with
  | nil => simp [mapComplete, MemSame]
  | cons y ys ih =>
    simp only [MemSame, mapComplete] at ih ⊢
    (repeat' split) <;> simp [ih, storeWord_mem .., iteU .., apply_ite Prod.snd, apply_ite Prod.fst]

theorem mapApply_mem (s : State) (e : Word) : MemSame (mapApply s e) s := by
  simp only [mapApply, MemSame]
  all_goals ((repeat' split) <;> simp [mapNvm_keep, iteU .., apply_ite Prod.snd, apply_ite Prod.fst])

theorem mapApplies_mem (s : State) (x0 : List Word) : MemSame (mapApplies s x0) s := by
  induction x0 generalizing s with
  | nil => simp [mapApplies, MemSame]
  | cons y ys ih =>
    simp only [MemSame, mapApplies] at ih ⊢
    simp [ih, mapApply_mem .., iteU .., apply_ite Prod.snd, apply_ite Prod.fst]

theorem mapClear_mem (s : State) : MemSame (mapClear s) s := by
  simp only [mapClear, MemSame]
  all_goals simp [iteU .., apply_ite Prod.snd, apply_ite Prod.fst]

theorem mapLoad_wf (s : State) (h : MemOk s) : MemOk (mapLoad s) := by
  simp only [mapLoad, MemOk, ArrayOk] at h ⊢
  all_goals ((repeat' split) <;> simp [mapApplies_mem .., mapClear_mem .., mapComplete_mem .., raiseU_only .., wordsFound_mem
    .., journalSpares_keep, redirectTo_wf, iteU .., apply_ite Prod.snd, apply_ite Prod.fst, h, MemOk, ArrayOk])

theorem proofLane_mem (s : State) (wher : Nat) : MemSame (proofLane s wher) s := by
  simp only [proofLane, MemSame]
  all_goals ((repeat' split) <;> simp [newDefect_mem .., setLink_only .., iteU .., apply_ite Prod.snd, apply_ite Prod.fst])

theorem proofLanes_mem (s : State) (x0 : List Nat) : MemSame (proofLanes s x0) s := by
  induction x0 generalizing s with
  | nil => simp [proofLanes, MemSame]
  | cons y ys ih =>
    simp only [MemSame, proofLanes] at ih ⊢
    simp [ih, proofLane_mem .., iteU .., apply_ite Prod.snd, apply_ite Prod.fst]

theorem proofTile_mem (s : State) (p : Nat) : MemSame (proofTile s p) s := by
  simp only [proofTile, MemSame]
  all_goals ((repeat' split) <;> simp [newDefect_mem .., setTile_only .., iteU .., apply_ite Prod.snd, apply_ite Prod.fst])

theorem proofTiles_mem (s : State) (x0 : List Nat) : MemSame (proofTiles s x0) s := by
  induction x0 generalizing s with
  | nil => simp [proofTiles, MemSame]
  | cons y ys ih =>
    simp only [MemSame, proofTiles] at ih ⊢
    simp [ih, proofTile_mem .., iteU .., apply_ite Prod.snd, apply_ite Prod.fst]

theorem proofRow_mem (s : State) (x : Nat × Nat) : MemSame (proofRow s x) s := by
  simp only [proofRow, MemSame]
  all_goals ((repeat' split) <;> simp [newDefect_mem .., proofTile_mem .., setTile_only .., iteU .., apply_ite Prod.snd,
    apply_ite Prod.fst])

theorem proofRows_mem (s : State) (x0 : List (Nat × Nat)) : MemSame (proofRows s x0) s := by
  induction x0 generalizing s with
  | nil => simp [proofRows, MemSame]
  | cons y ys ih =>
    simp only [MemSame, proofRows] at ih ⊢
    simp [ih, proofRow_mem .., iteU .., apply_ite Prod.snd, apply_ite Prod.fst]

theorem proofSram_mem (s : State) (x : Nat × Nat) : MemSame (proofSram s x) s := by
  simp only [proofSram, MemSame]
  all_goals ((repeat' split) <;> simp [newDefect_mem .., iteU .., apply_ite Prod.snd, apply_ite Prod.fst])

theorem proofSrams_mem (s : State) (x0 : List (Nat × Nat)) : MemSame (proofSrams s x0) s := by
  induction x0 generalizing s with
  | nil => simp [proofSrams, MemSame]
  | cons y ys ih =>
    simp only [MemSame, proofSrams] at ih ⊢
    simp [ih, proofSram_mem .., iteU .., apply_ite Prod.snd, apply_ite Prod.fst]

theorem weakMapped_mem (s : State) (b row : Nat) : MemSame (weakMapped s b row) s := by
  simp only [weakMapped, MemSame]
  all_goals ((repeat' split) <;> simp [pulse_only .., storeWord_mem .., wantRetire_mem .., takeSlot_keep, takeSpare_keep, iteU
    .., apply_ite Prod.snd, apply_ite Prod.fst])

theorem proofWeak_mem (s : State) (x : Nat × Nat) : MemSame (proofWeak s x) s := by
  simp only [proofWeak, MemSame]
  all_goals ((repeat' split) <;> simp [newDefect_mem .., weakMapped_mem .., takeSpare_keep, iteU .., apply_ite Prod.snd,
    apply_ite Prod.fst])

theorem proofWeaks_mem (s : State) (x0 : List (Nat × Nat)) : MemSame (proofWeaks s x0) s := by
  induction x0 generalizing s with
  | nil => simp [proofWeaks, MemSame]
  | cons y ys ih =>
    simp only [MemSame, proofWeaks] at ih ⊢
    simp [ih, proofWeak_mem .., iteU .., apply_ite Prod.snd, apply_ite Prod.fst]

theorem proofSlices_mem (s : State) (x0 : List Nat) : MemSame (proofSlices s x0) s := by
  induction x0 generalizing s with
  | nil => simp [proofSlices, MemSame]
  | cons y ys ih =>
    simp only [MemSame, proofSlices] at ih ⊢
    (repeat' split) <;> simp [ih, newDefect_mem .., iteU .., apply_ite Prod.snd, apply_ite Prod.fst]

theorem sparesChecks_mem (s : State) (x0 : List Nat) : MemSame (sparesChecks s x0) s := by
  induction x0 generalizing s with
  | nil => simp [sparesChecks, MemSame]
  | cons y ys ih =>
    simp only [MemSame, sparesChecks] at ih ⊢
    simp [ih, sparesCheck_mem .., iteU .., apply_ite Prod.snd, apply_ite Prod.fst]

theorem proofFaults_mem (s : State) : MemSame (proofFaults s) s := by
  simp only [proofFaults, MemSame]
  all_goals simp [raiseU_only .., sparesChecks_mem .., sparesLow_only .., iteU .., apply_ite Prod.snd, apply_ite Prod.fst]

theorem moorIslands_mem (s : State) : MemSame (moorIslands s) s := by
  simp only [moorIslands, MemSame]
  all_goals ((repeat' split) <;> simp [islConfigure_mem .., iteU .., apply_ite Prod.snd, apply_ite Prod.fst])

theorem moor_mem (s : State) (why : Nat) : MemSame (moor s why) s := by
  simp only [moor, MemSame]
  all_goals simp [moorEnter_only .., moorIslands_mem .., iteU .., apply_ite Prod.snd, apply_ite Prod.fst]

theorem resumeRetire_mem (s : State) (x0 : List Nat) : MemSame (resumeRetire s x0) s := by
  induction x0 generalizing s with
  | nil => simp [resumeRetire, MemSame]
  | cons y ys ih =>
    simp only [MemSame, resumeRetire] at ih ⊢
    (repeat' split) <;> simp [ih, takeSpare_keep, iteU .., apply_ite Prod.snd, apply_ite Prod.fst]

theorem resumeScrub_mem (s : State) : MemSame (resumeScrub s) s := by
  simp only [resumeScrub, MemSame]
  all_goals ((repeat' split) <;> simp [setScrubAt_keep, iteU .., apply_ite Prod.snd, apply_ite Prod.fst])

theorem checkWears_mem (s : State) (x0 : List (Nat × Nat)) : MemSame (checkWears s x0) s := by
  induction x0 generalizing s with
  | nil => simp [checkWears, MemSame]
  | cons y ys ih =>
    simp only [MemSame, checkWears] at ih ⊢
    simp [ih, checkWear_mem .., iteU .., apply_ite Prod.snd, apply_ite Prod.fst]

theorem restartErases_mem (s : State) (x0 : List Nat) : MemSame (restartErases s x0) s := by
  induction x0 generalizing s with
  | nil => simp [restartErases, MemSame]
  | cons y ys ih =>
    simp only [MemSame, restartErases] at ih ⊢
    (repeat' split) <;> simp [ih, addRecord_only .., requestErase_mem .., iteU .., apply_ite Prod.snd, apply_ite Prod.fst]

theorem keeperStart_mem (s : State) : MemSame (keeperStart s) s := by
  simp only [keeperStart, MemSame]
  all_goals simp [addRecord_only .., calAtStart_only .., checkWears_mem .., mapLates_mem .., restartErases_mem ..,
    resumeRetire_mem .., resumeScrub_mem .., takeFree_only .., wordsFound_mem .., iteU .., apply_ite Prod.snd, apply_ite
    Prod.fst]

theorem loadTiles_mem (s : State) (bad : List Nat) : MemSame (loadTiles s bad) s := by
  simp only [loadTiles, MemSame]
  all_goals ((repeat' split) <;> simp [assignTiles_only .., proofTiles_mem .., sparesLow_only .., wordsFound_mem .., iteU ..,
    apply_ite Prod.snd, apply_ite Prod.fst])

theorem plateRefused_mem (s : State) (slot step : Nat) : MemSame (plateRefused s slot step) s := by
  simp only [plateRefused, MemSame]
  all_goals ((repeat' split) <;> simp [moor_mem .., raiseU_only .., iteU .., apply_ite Prod.snd, apply_ite Prod.fst])

theorem setResult_mem (s : State) (slot : Nat) (w : Word) : MemSame (setResult s slot w) s := by
  simp only [setResult, MemSame]
  all_goals ((repeat' split) <;> simp [iteU .., apply_ite Prod.snd, apply_ite Prod.fst])

theorem readPlate_mem (s : State) (facts : FlashFacts) : MemSame (readPlate s facts) s := by
  simp only [readPlate, MemSame]
  all_goals ((repeat' split) <;> simp [addRecord_only .., plateRefused_mem .., setResult_mem .., wordsFound_mem .., iteU ..,
    apply_ite Prod.snd, apply_ite Prod.fst])

theorem admRefuse_mem (s : State) (slot : Nat) (f : AdmFail) : MemSame (admRefuse s slot f) s := by
  simp only [admRefuse, MemSame]
  all_goals simp [addRecord_only .., plateRefused_mem .., iteU .., apply_ite Prod.snd, apply_ite Prod.fst]

theorem loadLayout_mem (s : State) (p : Plate) : MemSame (loadLayout s p) s := by
  simp only [loadLayout, MemSame]
  all_goals ((repeat' split) <;> simp [addRecord_only .., iteU .., apply_ite Prod.snd, apply_ite Prod.fst])

theorem admComplete_mem (s : State) (p : Plate) (slot : Nat) : MemSame (admComplete s p slot) s := by
  simp only [admComplete, MemSame]
  all_goals simp [addRecord_only .., loadFix_only .., loadLayout_mem .., mixRecords_only .., wordsFound_mem .., iteU ..,
    apply_ite Prod.snd, apply_ite Prod.fst]

theorem unloadPlate_mem (s : State) : MemSame (unloadPlate s) s := by
  simp only [unloadPlate, MemSame]
  all_goals simp [iteU .., apply_ite Prod.snd, apply_ite Prod.fst]

theorem sessRelease_mem (s : State) : MemSame (sessRelease s) s := by
  simp only [sessRelease, MemSame]
  all_goals simp [dropStage_only .., endOverrides_only .., imgAbandon_only .., imgAnswer_only .., pltAbandon_mem ..,
    pltAnswer_mem .., sessionFreeze_only .., unforces_only .., iteU .., apply_ite Prod.snd, apply_ite Prod.fst]

theorem endSession_mem (s : State) (reason : Nat) : MemSame (endSession s reason) s := by
  simp only [endSession, MemSame]
  all_goals ((repeat' split) <;> simp [sessRelease_mem .., svcEvent_only .., iteU .., apply_ite Prod.snd, apply_ite Prod.fst])

theorem setAuth_mem (s : State) (k v : Nat) : MemSame (setAuth s k v) s := by
  simp only [setAuth, MemSame]
  all_goals ((repeat' split) <;> simp [storeWord_mem .., iteU .., apply_ite Prod.snd, apply_ite Prod.fst])

theorem authFail_mem (s : State) (role : Nat) : MemSame (authFail s role) s := by
  simp only [authFail, MemSame]
  all_goals ((repeat' split) <;> simp [causeOn_only .., setAuth_mem .., svcEvent_only .., iteU .., apply_ite Prod.snd,
    apply_ite Prod.fst])

theorem openSession_mem (s : State) (role gen : Nat) : MemSame (openSession s role gen) s := by
  simp only [openSession, MemSame]
  all_goals simp [endSession_mem .., setAuth_mem .., svcEvent_only .., iteU .., apply_ite Prod.snd, apply_ite Prod.fst]

theorem authCmd_mem (s : State) (role : Nat) (tag : List Byte) : MemSame ((authCmd s role tag).2) s := by
  simp only [authCmd, MemSame]
  all_goals ((repeat' split) <;> simp [answerSt_only .., authFail_mem .., energyRefused_only .., openSession_mem ..,
    readPin_only .., wordsFound_mem .., iteU .., apply_ite Prod.snd, apply_ite Prod.fst])

theorem recReply_mem (s : State) (ls : List Nat) : MemSame ((recReply s ls).2) s := by
  simp only [recReply, MemSame]
  all_goals simp [entryFaultsAll_mem .., iteU .., apply_ite Prod.snd, apply_ite Prod.fst]

theorem svcFinish_mem (s : State) (w : SvcWait) : MemSame (svcFinish s w) s := by
  simp only [svcFinish, MemSame]
  all_goals simp [addEvents_only .., imgFinish_only .., svcReply_only .., iteU .., apply_ite Prod.snd, apply_ite Prod.fst]

theorem svcStores_mem (s : State) : MemSame (svcStores s) s := by
  simp only [svcStores, MemSame]
  all_goals ((repeat' split) <;> simp [clearsServe_mem .., readsRun_mem .., recReply_mem .., svcFinish_mem .., svcReply_only
    .., iteU .., apply_ite Prod.snd, apply_ite Prod.fst])

theorem svcStart_mem (s : State) (t : Store) : MemSame ((svcStart s t).2) s := by
  simp only [svcStart, MemSame]
  all_goals ((repeat' split) <;> simp [startStore_mem .., iteU .., apply_ite Prod.snd, apply_ite Prod.fst])

theorem storeFirst_mem (s : State) (t : Store) (w : SvcWait) : MemSame ((storeFirst s t w).2) s := by
  simp only [storeFirst, MemSame]
  all_goals ((repeat' split) <;> simp [answerSt_only .., energyRefused_only .., svcStart_mem .., iteU .., apply_ite Prod.snd,
    apply_ite Prod.fst])

theorem fetchUncorr_mem (s : State) (src : Nat) (param : Word) : MemSame (fetchUncorr s src param) s := by
  simp only [fetchUncorr, MemSame]
  all_goals ((repeat' split) <;> simp [wantRetire_mem .., iteU .., apply_ite Prod.snd, apply_ite Prod.fst])

theorem hungEnds_wf (s : State) (h : MemOk s) : MemOk (hungEnds s) := by
  simp only [hungEnds, MemOk, ArrayOk] at h ⊢
  all_goals ((repeat' split) <;> simp [chipReset_wf, raiseFatal_wf, iteU .., apply_ite Prod.snd, apply_ite Prod.fst, h, MemOk,
    ArrayOk])

theorem probeIsl_mem (s : State) (i : Nat) : MemSame (probeIsl s i) s := by
  simp only [probeIsl, MemSame]
  all_goals ((repeat' split) <;> simp [islStop_mem .., iteU .., apply_ite Prod.snd, apply_ite Prod.fst])

theorem probeIsls_mem (s : State) (x0 : List Nat) : MemSame (probeIsls s x0) s := by
  induction x0 generalizing s with
  | nil => simp [probeIsls, MemSame]
  | cons y ys ih =>
    simp only [MemSame, probeIsls] at ih ⊢
    simp [ih, probeIsl_mem .., iteU .., apply_ite Prod.snd, apply_ite Prod.fst]

theorem turnTorn_wf (s : State) (b : Nat) (h : MemOk s) : MemOk (turnTorn s b) := by
  simp only [turnTorn, MemOk, ArrayOk] at h ⊢
  all_goals ((repeat' split) <;> simp [dropHand_mem .., enqueue_only .., markW0_only .., tearWord_wf, setBank_keep, iteU ..,
    apply_ite Prod.snd, apply_ite Prod.fst, h, MemOk, ArrayOk])

theorem setWrite_mem (s : State) (w : PltWrite) : MemSame (setWrite s w) s := by
  simp only [setWrite, MemSame]
  all_goals simp [iteU .., apply_ite Prod.snd, apply_ite Prod.fst]

theorem sectorErase_mem (s : State) (k : Nat) : MemSame (sectorErase s k) s := by
  simp only [sectorErase, MemSame]
  all_goals simp [setWrite_mem .., iteU .., apply_ite Prod.snd, apply_ite Prod.fst]

theorem nextPage_mem (s : State) : MemSame (nextPage s) s := by
  simp only [nextPage, MemSame]
  all_goals ((repeat' split) <;> simp [setWrite_mem .., iteU .., apply_ite Prod.snd, apply_ite Prod.fst])

theorem flashFree_wf (s : State) (a : Nat) (x0 : Nat) (h : MemOk s) : MemOk (flashFree s a x0) := by
  induction x0 generalizing s a with
  | zero => simp [flashFree, MemOk, ArrayOk, h]
  | succ y ih =>
    simp only [MemOk, ArrayOk, flashFree] at ih h ⊢
    simp [ih, takeFree_only .., tabWf_tset, iteU .., apply_ite Prod.snd, apply_ite Prod.fst, h, MemOk, ArrayOk]

theorem plateBegin_mem (slot length : Nat) (s : State) : MemSame ((plateBegin slot length s).2) s := by
  simp only [plateBegin, MemSame]
  all_goals ((repeat' split) <;> simp [answerSt_only .., pltAbandon_mem .., pltAnswer_mem .., sectorErase_mem .., setWrite_mem
    .., iteU .., apply_ite Prod.snd, apply_ite Prod.fst])

theorem plateData_mem (seq off : Nat) (bs : List Byte) (s : State) : MemSame ((plateData seq off bs s).2) s := by
  simp only [plateData, MemSame]
  all_goals ((repeat' split) <;> simp [answerSt_only .., nextPage_mem .., setWrite_mem .., iteU .., apply_ite Prod.snd,
    apply_ite Prod.fst])

theorem plateEnd_mem (seq : Nat) (s : State) : MemSame ((plateEnd seq s).2) s := by
  simp only [plateEnd, MemSame]
  all_goals ((repeat' split) <;> simp [answerSt_only .., nextPage_mem .., setWrite_mem .., iteU .., apply_ite Prod.snd,
    apply_ite Prod.fst])

theorem plateVerify_mem (s : State) : MemSame (plateVerify s) s := by
  simp only [plateVerify, MemSame]
  all_goals simp [addRecord_only .., setWrite_mem .., svcReply_only .., wordsFound_mem .., iteU .., apply_ite Prod.snd,
    apply_ite Prod.fst]

theorem pageEnd_mem (s : State) : MemSame (pageEnd s) s := by
  simp only [pageEnd, MemSame]
  all_goals ((repeat' split) <;> simp [nextPage_mem .., plateVerify_mem .., pltAnswer_mem .., setWrite_mem .., iteU ..,
    apply_ite Prod.snd, apply_ite Prod.fst])

theorem gatePass_mem (s : State) : MemSame (gatePass s) s := by
  simp only [gatePass, MemSame]
  all_goals simp [addRecord_only .., storeAuth_mem .., storeWord_mem .., iteU .., apply_ite Prod.snd, apply_ite Prod.fst]

theorem proofFabric_wf (s : State) (lanes keepers : List Nat) (h : MemOk s) : MemOk (proofFabric s lanes keepers) := by
  simp only [proofFabric, MemOk, ArrayOk] at h ⊢
  all_goals ((repeat' split) <;> simp [keeperSplit_wf, proofKeepers_only .., proofLanes_mem .., proofTiles_mem .., raiseU_only
    .., spineStatus_only .., iteU .., apply_ite Prod.snd, apply_ite Prod.fst, h, MemOk, ArrayOk])

theorem proofUnits_mem (s : State) (tiles : List Nat) (rows sram weak : List (Nat × Nat)) (slices : List SliceRef) : MemSame
    (proofUnits s tiles rows sram weak slices) s := by
  simp only [proofUnits, MemSame]
  all_goals simp [proofRows_mem .., proofSlices_mem .., proofSrams_mem .., proofTiles_mem .., proofWeaks_mem .., iteU ..,
    apply_ite Prod.snd, apply_ite Prod.fst]

theorem proofEnd_mem (s : State) (ms : Nat) : MemSame (proofEnd s ms) s := by
  simp only [proofEnd, MemSame]
  all_goals simp [addRecord_only .., assignTiles_only .., proofFaults_mem .., iteU .., apply_ite Prod.snd, apply_ite Prod.fst]

theorem admitStep_mem (s : State) (p : Plate) (ms : Nat) (full : Bool) : MemSame (admitStep s p ms full) s := by
  simp only [admitStep, MemSame]
  all_goals ((repeat' split) <;> simp [admComplete_mem .., admPass_only .., admRefuse_mem .., iteU .., apply_ite Prod.snd,
    apply_ite Prod.fst])

theorem islConfigures_mem (s : State) (x0 : List Nat) : MemSame (islConfigures s x0) s := by
  induction x0 generalizing s with
  | nil => simp [islConfigures, MemSame]
  | cons y ys ih =>
    simp only [MemSame, islConfigures] at ih ⊢
    (repeat' split) <;> simp [ih, islConfigure_mem .., iteU .., apply_ite Prod.snd, apply_ite Prod.fst]

theorem w1cClear_mem (s : State) (a : Nat) (w : Word) : MemSame (w1cClear s a w) s := by
  simp only [w1cClear, MemSame]
  all_goals ((repeat' split) <;> simp [setIsl_only .., iteU .., apply_ite Prod.snd, apply_ite Prod.fst])

theorem arbCtl_mem (s : State) (n : Nat) (b : Bool) : MemSame (arbCtl s n b) s := by
  simp only [arbCtl, MemSame]
  all_goals ((repeat' split) <;> simp [clearFreeze_mem .., setFreeze_only .., iteU .., apply_ite Prod.snd, apply_ite
    Prod.fst])

theorem regEffect_mem (s : State) (a : Nat) (w : Word) : MemSame ((regEffect s a w).2) s := by
  simp only [regEffect, MemSame]
  all_goals ((repeat' split) <;> simp [ackCmd_only .., arbCtl_mem .., canCmd_only .., fanFix_only .., fogAckCmd_only ..,
    forceEnd_only .., forceVal_only .., injectCmd_only .., motClearCmd_only .., requestFlush_only .., stbFreeze_only ..,
    w1cClear_mem .., iteU .., apply_ite Prod.snd, apply_ite Prod.fst])

theorem onceCommit_mem (s : State) (o : Owner) (first : Nat) (locs : List Nat) (ws : List Word) (ev : Nat × Nat × Word × Word)
    : MemSame ((onceCommit s o first locs ws ev).2) s := by
  simp only [onceCommit, MemSame]
  all_goals ((repeat' split) <;> simp [energyRefused_only .., onceRefused_only .., svcStart_mem .., iteU .., apply_ite
    Prod.snd, apply_ite Prod.fst])

theorem keyCommit_mem (s : State) (first : Nat) (ws : List Word) : MemSame ((keyCommit s first ws).2) s := by
  simp only [keyCommit, MemSame]
  all_goals ((repeat' split) <;> simp [onceCommit_mem .., iteU .., apply_ite Prod.snd, apply_ite Prod.fst])

theorem groupCommit_mem (s : State) (first : Nat) (ws : List Word) : MemSame ((groupCommit s first ws).2) s := by
  simp only [groupCommit, MemSame]
  all_goals ((repeat' split) <;> simp [calCommit_only .., keyCommit_mem .., onceCommit_mem .., iteU .., apply_ite Prod.snd,
    apply_ite Prod.fst])

theorem groupWrite_mem (s : State) (a first n : Nat) (w : Word) : MemSame ((groupWrite s a first n w).2) s := by
  simp only [groupWrite, MemSame]
  all_goals ((repeat' split) <;> simp [dropStage_only .., groupCommit_mem .., iteU .., apply_ite Prod.snd, apply_ite
    Prod.fst])

theorem wordWrite_mem (s : State) (a mask : Nat) (w : Word) : MemSame ((wordWrite s a mask w).2) s := by
  simp only [wordWrite, MemSame]
  all_goals ((repeat' split) <;> simp [groupWrite_mem .., lockRefused_only .., regEffect_mem .., iteU .., apply_ite Prod.snd,
    apply_ite Prod.fst])

theorem writeWords_mem (s : State) (a mask : Nat) (staged : Bool) (x : WriteRun) (x0 : List Word) : MemSame ((writeWords s a
    mask staged x x0).2.2) s := by
  induction x0 generalizing s a mask staged x with
  | nil => simp [writeWords, MemSame]
  | cons y ys ih =>
    simp only [MemSame, writeWords] at ih ⊢
    (repeat' split) <;> simp [ih, dropStage_only .., wordWrite_mem .., iteU .., apply_ite Prod.snd, apply_ite Prod.fst]

theorem writeBody_mem (seq a mask : Nat) (ws : List Word) (s : State) : MemSame ((writeBody seq a mask ws s).2) s := by
  simp only [writeBody, MemSame]
  all_goals ((repeat' split) <;> simp [writeWords_mem .., iteU .., apply_ite Prod.snd, apply_ite Prod.fst])

theorem readWord_mem (s : State) (a : Nat) : MemSame ((readWord s a).2) s := by
  simp only [readWord, MemSame]
  all_goals ((repeat' split) <;> simp [wordFound_mem .., iteU .., apply_ite Prod.snd, apply_ite Prod.fst])

theorem readWords_mem (s : State) (a : Nat) (x0 : Nat) : MemSame ((readWords s a x0).2) s := by
  induction x0 generalizing s a with
  | zero => simp [readWords, MemSame]
  | succ y ih =>
    simp only [MemSame, readWords] at ih ⊢
    simp [ih, readWord_mem .., iteU .., apply_ite Prod.snd, apply_ite Prod.fst]

theorem readBody_mem (a n : Nat) (wasPoisoned : Bool) (s : State) : MemSame ((readBody a n wasPoisoned s).2) s := by
  simp only [readBody, MemSame]
  all_goals ((repeat' split) <;> simp [answerSt_only .., dropStage_only .., readWords_mem .., iteU .., apply_ite Prod.snd,
    apply_ite Prod.fst])

theorem recServe_mem (seq start : Nat) (down : Bool) (count : Nat) (s : State) :
    MemSame (recServe seq start down count s).2 s := by
  simp only [recServe]
  split
  case _ t hr =>
    have h := recReads_mem _ _ _ hr
    simp only [MemSame] at h ⊢
    simp [h, recReply_mem ..]
  case _ => simp [MemSame, askReads_mem ..]

theorem recReadCmd_mem (seq start dir count flush : Nat) (s : State) : MemSame ((recReadCmd seq start dir count flush s).2) s
    := by
  simp only [recReadCmd, MemSame]
  all_goals ((repeat' split) <;> simp [answerSt_only .., recServe_mem .., requestFlush_only .., iteU .., apply_ite Prod.snd,
    apply_ite Prod.fst])

theorem recClearCmd_mem (seq : Nat) (guard : List Byte) (s : State) : MemSame ((recClearCmd seq guard s).2) s := by
  simp only [recClearCmd, MemSame]
  all_goals ((repeat' split) <;> simp [answerSt_only .., recClear_mem .., iteU .., apply_ite Prod.snd, apply_ite Prod.fst])

theorem imageBegin_mem (slot : Nat) (engine : Bool) (off : Nat) (ws : List Word) (s : State) : MemSame ((imageBegin slot
    engine off ws s).2) s := by
  simp only [imageBegin, MemSame]
  all_goals ((repeat' split) <;> simp [answerSt_only .., energyRefused_only .., requestErase_mem .., iteU .., apply_ite
    Prod.snd, apply_ite Prod.fst])

theorem imageData_mem (seq slot : Nat) (engine : Bool) (off : Nat) (ws : List Word) (s : State) : MemSame ((imageData seq slot
    engine off ws s).2) s := by
  simp only [imageData, MemSame]
  all_goals ((repeat' split) <;> simp [answerSt_only .., storeFirst_mem .., iteU .., apply_ite Prod.snd, apply_ite Prod.fst])

theorem imageFinal_mem (seq slot : Nat) (engine : Bool) (off : Nat) (ws : List Word) (s : State) : MemSame ((imageFinal seq
    slot engine off ws s).2) s := by
  simp only [imageFinal, MemSame]
  all_goals ((repeat' split) <;> simp [answerSt_only .., storeFirst_mem .., iteU .., apply_ite Prod.snd, apply_ite Prod.fst])

theorem imageActivate_mem (seq pair : Nat) (s : State) : MemSame ((imageActivate seq pair s).2) s := by
  simp only [imageActivate, MemSame]
  all_goals ((repeat' split) <;> simp [answerSt_only .., storeFirst_mem .., iteU .., apply_ite Prod.snd, apply_ite Prod.fst])

theorem stallEnd_mem (s : State) (n : Nat) (held : Option Cross) : MemSame (stallEnd s n held) s := by
  simp only [stallEnd, MemSame]
  all_goals ((repeat' split) <;> simp [endPacket_mem .., modArb_only .., iteU .., apply_ite Prod.snd, apply_ite Prod.fst])

theorem arbMove_mem (s : State) (n : Nat) (f : Arb → Arb) : MemSame (arbMove s n f) s := by
  simp only [arbMove, MemSame]
  all_goals simp [arbMoved_mem .., modArb_only .., svcStores_mem .., iteU .., apply_ite Prod.snd, apply_ite Prod.fst]

theorem tileEntry_mem (s : State) (t f : Nat) : MemSame (tileEntry s t f) s := by
  simp only [tileEntry, MemSame]
  all_goals ((repeat' split) <;> simp [publishFrame_mem .., runEntry_only .., iteU .., apply_ite Prod.snd, apply_ite
    Prod.fst])

theorem vote_wf (s : State) (port : Nat) (late : Bool) (copies : List (Nat × Word)) (h : MemOk s) : MemOk (vote s port late
    copies) := by
  simp only [vote, MemOk, ArrayOk] at h ⊢
  all_goals ((repeat' split) <;> simp [keeperSplit_wf, miscompare_only .., iteU .., apply_ite Prod.snd, apply_ite Prod.fst, h,
    MemOk, ArrayOk])

end Sys2Proof.Machine
end

