-- ==== Sys2Proof/Laws/Service.lean ====
section
/-! SUPPORT. The frame around every request of the service port: what a repeat, a refused request and a request that is taken
answer. A later proof cites these and never unfolds `framed`. -/

namespace Sys2Proof.Machine

open Sys2Proof


/-- The state after a repeat: the previous reply again, the session heard. -/
def repeated (s : State) (r : Reply) : State :=
  { s with svc := { s.svc with
    reply := r, answered := min 65535 (s.svc.answered + 1), baudAt := none,
    sess := s.svc.sess.map (fun x => { x with seen := s.now }) } }

theorem isRepeatReq_heard (s : State) (seq cmd : Nat) : isRepeatReq (heard s) seq cmd = isRepeatReq s seq cmd := by
  simp only [isRepeatReq, heard, Option.isSome_map]
  cases s.svc.prev <;> rfl

theorem resend_heard {s : State} {r : Reply} {a : Nat} (h : s.svc.prev = some (r, a)) : resend (heard s) = repeated s r := by
  simp [resend, heard, h, svcSend, repeated, satAdd]

/-- A request that repeats the previous one. -/
theorem framed_repeat {s : State} {r : Reply} {a seq cmd : Nat} {roles : Option (List Nat)} {body : State → Answer}
    (h1 : svcHears s = true) (h2 : isRepeatReq s seq cmd = true) (h3 : s.svc.prev = some (r, a)) :
    framed s seq cmd roles body = .next (settle (repeated s r)) := by
  simp only [framed, h1, isRepeatReq_heard, h2, resend_heard h3, fin, Bool.not_true, Bool.false_eq_true, if_true, if_false]

/-- A request that is taken and whose session and state checks pass runs its body. -/
theorem framed_taken {s : State} {seq cmd : Nat} {roles : Option (List Nat)} {body : State → Answer} (h : Taken s seq cmd)
    (g : gateCmd (asked s cmd) cmd roles = 0) :
    framed s seq cmd roles body = match body (asked s cmd) with
      | (none, t) => .next (settle t)
      | (some bs, t) => .next (settle (svcReply t seq cmd bs)) := by
  obtain ⟨h1, h2, -⟩ := h
  simp only [asked] at g
  simp only [framed, h1, isRepeatReq_heard, h2, g, asked, fin, stOk, bne_self_eq_false, Bool.not_true, Bool.false_eq_true,
    if_false]
  generalize body _ = x
  obtain ⟨_ | _, _⟩ := x <;> rfl

/-- A request that is taken and that a check refuses. -/
theorem framed_refused {s : State} {seq cmd st : Nat} {roles : Option (List Nat)} {body : State → Answer} (h : Taken s seq cmd)
    (g : gateCmd (asked s cmd) cmd roles = st) (n : st ≠ 0) :
    framed s seq cmd roles body =
      .next (settle (svcReply (asked s cmd) seq cmd (stByte st :: if cmd == 0x11 then [0#8, 0#8] else []))) := by
  obtain ⟨h1, h2, -⟩ := h
  simp only [asked] at g
  have e : (st != stOk) = true := by simpa [stOk] using n
  simp only [framed, h1, isRepeatReq_heard, h2, g, e, asked, fin, Bool.not_true, Bool.false_eq_true, if_false, if_true]

/-- The state in which AUTH looks at a tag: the nonce is spent, HOLDUP_SNS is read, and the words of the key have been read. -/
def keyAsked (s : State) (role : Nat) : State :=
  let y := readPin { s with svc := { s.svc with nonce := none } }
  wordsFound y (keyRead y.nvm role)

/-- AUTH with the tag that the role's key gives opens the session. -/
theorem authCmd_opens {s : State} {role g : Nat} {nonce tag : List Byte} (h0 : s.svc.nonce = some nonce) (h1 : lockLeft s = 0)
    (h2 : authEnergy (readPin s) = false) (h3 : role ≤ 2) (h4 : authTag (keyAsked s role) role nonce = some (g, tag)) :
    authCmd s role tag = (some [stByte stOk, BitVec.ofNat 8 g], openSession (keyAsked s role) role g) := by
  have l : lockLeft (readPin { s with svc := { s.svc with nonce := none } }) = 0 := h1
  have e : authEnergy (readPin { s with svc := { s.svc with nonce := none } }) = false := h2
  simp only [keyAsked] at h4
  simp only [authCmd, h0, l, e, h4, keyAsked, Nat.lt_irrefl, Nat.not_lt.mpr h3, gt_iff_lt, Bool.false_eq_true, if_false,
    beq_self_eq_true, if_true]

/-- The session that an AUTH opens. -/
theorem openSession_sess (s : State) (role g : Nat) : (openSession s role g).svc.sess = some ⟨role, g, s.now⟩ := by
  simp only [openSession, svcEvent, addRecord_only .., setAuth_only .., endSession_only ..]

/-- An AUTH that is taken, with the tag that the key gives, opens a session. -/
theorem auth_opens {s : State} {seq role g : Nat} {nonce tag : List Byte} (h : Taken s seq 0x02)
    (h0 : gateCmd (asked s 0x02) 0x02 none = 0) (h1 : (asked s 0x02).svc.nonce = some nonce) (h2 : lockLeft (asked s 0x02) = 0)
    (h3 : authEnergy (readPin (asked s 0x02)) = false) (h4 : role ≤ 2) (h5 : authTag (keyAsked (asked s 0x02) role) role nonce = some (g, tag)) :
    ∃ t, exec (.auth seq role tag) s = .next t ∧ t.svc.sess = some ⟨role, g, (asked s 0x02).now⟩ := by
  have e := framed_taken (body := fun t => authCmd t role tag) (roles := none) h h0
  rw [authCmd_opens h1 h2 h3 h4 h5] at e
  refine ⟨_, e, ?_⟩
  simp only [settle_only .., svcReply, svcSend, openSession_sess, keyAsked, wordsFound_only .., readPin_only ..]

end Sys2Proof.Machine
end

