-- ==== Sys2Proof/Laws/State.lean ====
section
/-! SUPPORT. One lemma for each unit that an update of a table leaves alone, and the entry read back, so that no later proof
unfolds a record update. -/

namespace Sys2Proof.Machine

open Sys2Proof

/-! setCan. -/

@[simp] theorem setCan_now (s : State) (n : Nat) (x : CanSt) : (setCan s n x).now = s.now := rfl
@[simp] theorem setCan_free (s : State) (n : Nat) (x : CanSt) : (setCan s n x).free = s.free := rfl
@[simp] theorem setCan_rst (s : State) (n : Nat) (x : CanSt) : (setCan s n x).rst = s.rst := rfl
@[simp] theorem setCan_straps (s : State) (n : Nat) (x : CanSt) : (setCan s n x).straps = s.straps := rfl
@[simp] theorem setCan_pwr (s : State) (n : Nat) (x : CanSt) : (setCan s n x).pwr = s.pwr := rfl
@[simp] theorem setCan_nvm (s : State) (n : Nat) (x : CanSt) : (setCan s n x).nvm = s.nvm := rfl
@[simp] theorem setCan_flt (s : State) (n : Nat) (x : CanSt) : (setCan s n x).flt = s.flt := rfl
@[simp] theorem setCan_recr (s : State) (n : Nat) (x : CanSt) : (setCan s n x).recr = s.recr := rfl
@[simp] theorem setCan_start (s : State) (n : Nat) (x : CanSt) : (setCan s n x).start = s.start := rfl
@[simp] theorem setCan_prf (s : State) (n : Nat) (x : CanSt) : (setCan s n x).prf = s.prf := rfl
@[simp] theorem setCan_plt (s : State) (n : Nat) (x : CanSt) : (setCan s n x).plt = s.plt := rfl
@[simp] theorem setCan_adm (s : State) (n : Nat) (x : CanSt) : (setCan s n x).adm = s.adm := rfl
@[simp] theorem setCan_eng (s : State) (n : Nat) (x : CanSt) : (setCan s n x).eng = s.eng := rfl
@[simp] theorem setCan_spn (s : State) (n : Nat) (x : CanSt) : (setCan s n x).spn = s.spn := rfl
@[simp] theorem setCan_isl (s : State) (n : Nat) (x : CanSt) : (setCan s n x).isl = s.isl := rfl
@[simp] theorem setCan_fe (s : State) (n : Nat) (x : CanSt) : (setCan s n x).fe = s.fe := rfl
@[simp] theorem setCan_sw (s : State) (n : Nat) (x : CanSt) : (setCan s n x).sw = s.sw := rfl
@[simp] theorem setCan_mns (s : State) (n : Nat) (x : CanSt) : (setCan s n x).mns = s.mns := rfl
@[simp] theorem setCan_stb (s : State) (n : Nat) (x : CanSt) : (setCan s n x).stb = s.stb := rfl
@[simp] theorem setCan_fan (s : State) (n : Nat) (x : CanSt) : (setCan s n x).fan = s.fan := rfl
@[simp] theorem setCan_mot (s : State) (n : Nat) (x : CanSt) : (setCan s n x).mot = s.mot := rfl
@[simp] theorem setCan_gat (s : State) (n : Nat) (x : CanSt) : (setCan s n x).gat = s.gat := rfl
@[simp] theorem setCan_htd (s : State) (n : Nat) (x : CanSt) : (setCan s n x).htd = s.htd := rfl
@[simp] theorem setCan_cal (s : State) (n : Nat) (x : CanSt) : (setCan s n x).cal = s.cal := rfl
@[simp] theorem setCan_syn (s : State) (n : Nat) (x : CanSt) : (setCan s n x).syn = s.syn := rfl
@[simp] theorem setCan_svc (s : State) (n : Nat) (x : CanSt) : (setCan s n x).svc = s.svc := rfl
@[simp] theorem setCan_pending (s : State) (n : Nat) (x : CanSt) : (setCan s n x).pending = s.pending := rfl

@[simp] theorem getCan_setCan_same (s : State) (n : Nat) (x : CanSt) : getCan (setCan s n x) n = x := by
  simp [getCan, setCan]

theorem getCan_setCan_other (s : State) {m n : Nat} (x : CanSt) (h : m ≠ n) : getCan (setCan s n x) m = getCan s m := by
  simp [getCan, setCan, tget_tset_other _ _ _ h]

/-! setFan. -/

@[simp] theorem setFan_now (s : State) (n : Nat) (x : FanSt) : (setFan s n x).now = s.now := rfl
@[simp] theorem setFan_free (s : State) (n : Nat) (x : FanSt) : (setFan s n x).free = s.free := rfl
@[simp] theorem setFan_rst (s : State) (n : Nat) (x : FanSt) : (setFan s n x).rst = s.rst := rfl
@[simp] theorem setFan_straps (s : State) (n : Nat) (x : FanSt) : (setFan s n x).straps = s.straps := rfl
@[simp] theorem setFan_pwr (s : State) (n : Nat) (x : FanSt) : (setFan s n x).pwr = s.pwr := rfl
@[simp] theorem setFan_nvm (s : State) (n : Nat) (x : FanSt) : (setFan s n x).nvm = s.nvm := rfl
@[simp] theorem setFan_flt (s : State) (n : Nat) (x : FanSt) : (setFan s n x).flt = s.flt := rfl
@[simp] theorem setFan_recr (s : State) (n : Nat) (x : FanSt) : (setFan s n x).recr = s.recr := rfl
@[simp] theorem setFan_start (s : State) (n : Nat) (x : FanSt) : (setFan s n x).start = s.start := rfl
@[simp] theorem setFan_prf (s : State) (n : Nat) (x : FanSt) : (setFan s n x).prf = s.prf := rfl
@[simp] theorem setFan_plt (s : State) (n : Nat) (x : FanSt) : (setFan s n x).plt = s.plt := rfl
@[simp] theorem setFan_adm (s : State) (n : Nat) (x : FanSt) : (setFan s n x).adm = s.adm := rfl
@[simp] theorem setFan_eng (s : State) (n : Nat) (x : FanSt) : (setFan s n x).eng = s.eng := rfl
@[simp] theorem setFan_spn (s : State) (n : Nat) (x : FanSt) : (setFan s n x).spn = s.spn := rfl
@[simp] theorem setFan_isl (s : State) (n : Nat) (x : FanSt) : (setFan s n x).isl = s.isl := rfl
@[simp] theorem setFan_fe (s : State) (n : Nat) (x : FanSt) : (setFan s n x).fe = s.fe := rfl
@[simp] theorem setFan_sw (s : State) (n : Nat) (x : FanSt) : (setFan s n x).sw = s.sw := rfl
@[simp] theorem setFan_mns (s : State) (n : Nat) (x : FanSt) : (setFan s n x).mns = s.mns := rfl
@[simp] theorem setFan_stb (s : State) (n : Nat) (x : FanSt) : (setFan s n x).stb = s.stb := rfl
@[simp] theorem setFan_mot (s : State) (n : Nat) (x : FanSt) : (setFan s n x).mot = s.mot := rfl
@[simp] theorem setFan_gat (s : State) (n : Nat) (x : FanSt) : (setFan s n x).gat = s.gat := rfl
@[simp] theorem setFan_htd (s : State) (n : Nat) (x : FanSt) : (setFan s n x).htd = s.htd := rfl
@[simp] theorem setFan_cal (s : State) (n : Nat) (x : FanSt) : (setFan s n x).cal = s.cal := rfl
@[simp] theorem setFan_can (s : State) (n : Nat) (x : FanSt) : (setFan s n x).can = s.can := rfl
@[simp] theorem setFan_syn (s : State) (n : Nat) (x : FanSt) : (setFan s n x).syn = s.syn := rfl
@[simp] theorem setFan_svc (s : State) (n : Nat) (x : FanSt) : (setFan s n x).svc = s.svc := rfl
@[simp] theorem setFan_pending (s : State) (n : Nat) (x : FanSt) : (setFan s n x).pending = s.pending := rfl

@[simp] theorem getFan_setFan_same (s : State) (n : Nat) (x : FanSt) : getFan (setFan s n x) n = x := by
  simp [getFan, setFan]

theorem getFan_setFan_other (s : State) {m n : Nat} (x : FanSt) (h : m ≠ n) : getFan (setFan s n x) m = getFan s m := by
  simp [getFan, setFan, tget_tset_other _ _ _ h]

/-! setMot. -/

@[simp] theorem setMot_now (s : State) (n : Nat) (x : MotSt) : (setMot s n x).now = s.now := rfl
@[simp] theorem setMot_free (s : State) (n : Nat) (x : MotSt) : (setMot s n x).free = s.free := rfl
@[simp] theorem setMot_rst (s : State) (n : Nat) (x : MotSt) : (setMot s n x).rst = s.rst := rfl
@[simp] theorem setMot_straps (s : State) (n : Nat) (x : MotSt) : (setMot s n x).straps = s.straps := rfl
@[simp] theorem setMot_pwr (s : State) (n : Nat) (x : MotSt) : (setMot s n x).pwr = s.pwr := rfl
@[simp] theorem setMot_nvm (s : State) (n : Nat) (x : MotSt) : (setMot s n x).nvm = s.nvm := rfl
@[simp] theorem setMot_flt (s : State) (n : Nat) (x : MotSt) : (setMot s n x).flt = s.flt := rfl
@[simp] theorem setMot_recr (s : State) (n : Nat) (x : MotSt) : (setMot s n x).recr = s.recr := rfl
@[simp] theorem setMot_start (s : State) (n : Nat) (x : MotSt) : (setMot s n x).start = s.start := rfl
@[simp] theorem setMot_prf (s : State) (n : Nat) (x : MotSt) : (setMot s n x).prf = s.prf := rfl
@[simp] theorem setMot_plt (s : State) (n : Nat) (x : MotSt) : (setMot s n x).plt = s.plt := rfl
@[simp] theorem setMot_adm (s : State) (n : Nat) (x : MotSt) : (setMot s n x).adm = s.adm := rfl
@[simp] theorem setMot_eng (s : State) (n : Nat) (x : MotSt) : (setMot s n x).eng = s.eng := rfl
@[simp] theorem setMot_spn (s : State) (n : Nat) (x : MotSt) : (setMot s n x).spn = s.spn := rfl
@[simp] theorem setMot_isl (s : State) (n : Nat) (x : MotSt) : (setMot s n x).isl = s.isl := rfl
@[simp] theorem setMot_fe (s : State) (n : Nat) (x : MotSt) : (setMot s n x).fe = s.fe := rfl
@[simp] theorem setMot_sw (s : State) (n : Nat) (x : MotSt) : (setMot s n x).sw = s.sw := rfl
@[simp] theorem setMot_mns (s : State) (n : Nat) (x : MotSt) : (setMot s n x).mns = s.mns := rfl
@[simp] theorem setMot_stb (s : State) (n : Nat) (x : MotSt) : (setMot s n x).stb = s.stb := rfl
@[simp] theorem setMot_fan (s : State) (n : Nat) (x : MotSt) : (setMot s n x).fan = s.fan := rfl
@[simp] theorem setMot_gat (s : State) (n : Nat) (x : MotSt) : (setMot s n x).gat = s.gat := rfl
@[simp] theorem setMot_htd (s : State) (n : Nat) (x : MotSt) : (setMot s n x).htd = s.htd := rfl
@[simp] theorem setMot_cal (s : State) (n : Nat) (x : MotSt) : (setMot s n x).cal = s.cal := rfl
@[simp] theorem setMot_can (s : State) (n : Nat) (x : MotSt) : (setMot s n x).can = s.can := rfl
@[simp] theorem setMot_syn (s : State) (n : Nat) (x : MotSt) : (setMot s n x).syn = s.syn := rfl
@[simp] theorem setMot_svc (s : State) (n : Nat) (x : MotSt) : (setMot s n x).svc = s.svc := rfl
@[simp] theorem setMot_pending (s : State) (n : Nat) (x : MotSt) : (setMot s n x).pending = s.pending := rfl

@[simp] theorem getMot_setMot_same (s : State) (n : Nat) (x : MotSt) : getMot (setMot s n x) n = x := by
  simp [getMot, setMot]

theorem getMot_setMot_other (s : State) {m n : Nat} (x : MotSt) (h : m ≠ n) : getMot (setMot s n x) m = getMot s m := by
  simp [getMot, setMot, tget_tset_other _ _ _ h]

/-! setGat. -/

@[simp] theorem setGat_now (s : State) (n : Nat) (x : GatSt) : (setGat s n x).now = s.now := rfl
@[simp] theorem setGat_free (s : State) (n : Nat) (x : GatSt) : (setGat s n x).free = s.free := rfl
@[simp] theorem setGat_rst (s : State) (n : Nat) (x : GatSt) : (setGat s n x).rst = s.rst := rfl
@[simp] theorem setGat_straps (s : State) (n : Nat) (x : GatSt) : (setGat s n x).straps = s.straps := rfl
@[simp] theorem setGat_pwr (s : State) (n : Nat) (x : GatSt) : (setGat s n x).pwr = s.pwr := rfl
@[simp] theorem setGat_nvm (s : State) (n : Nat) (x : GatSt) : (setGat s n x).nvm = s.nvm := rfl
@[simp] theorem setGat_flt (s : State) (n : Nat) (x : GatSt) : (setGat s n x).flt = s.flt := rfl
@[simp] theorem setGat_recr (s : State) (n : Nat) (x : GatSt) : (setGat s n x).recr = s.recr := rfl
@[simp] theorem setGat_start (s : State) (n : Nat) (x : GatSt) : (setGat s n x).start = s.start := rfl
@[simp] theorem setGat_prf (s : State) (n : Nat) (x : GatSt) : (setGat s n x).prf = s.prf := rfl
@[simp] theorem setGat_plt (s : State) (n : Nat) (x : GatSt) : (setGat s n x).plt = s.plt := rfl
@[simp] theorem setGat_adm (s : State) (n : Nat) (x : GatSt) : (setGat s n x).adm = s.adm := rfl
@[simp] theorem setGat_eng (s : State) (n : Nat) (x : GatSt) : (setGat s n x).eng = s.eng := rfl
@[simp] theorem setGat_spn (s : State) (n : Nat) (x : GatSt) : (setGat s n x).spn = s.spn := rfl
@[simp] theorem setGat_isl (s : State) (n : Nat) (x : GatSt) : (setGat s n x).isl = s.isl := rfl
@[simp] theorem setGat_fe (s : State) (n : Nat) (x : GatSt) : (setGat s n x).fe = s.fe := rfl
@[simp] theorem setGat_sw (s : State) (n : Nat) (x : GatSt) : (setGat s n x).sw = s.sw := rfl
@[simp] theorem setGat_mns (s : State) (n : Nat) (x : GatSt) : (setGat s n x).mns = s.mns := rfl
@[simp] theorem setGat_stb (s : State) (n : Nat) (x : GatSt) : (setGat s n x).stb = s.stb := rfl
@[simp] theorem setGat_fan (s : State) (n : Nat) (x : GatSt) : (setGat s n x).fan = s.fan := rfl
@[simp] theorem setGat_mot (s : State) (n : Nat) (x : GatSt) : (setGat s n x).mot = s.mot := rfl
@[simp] theorem setGat_htd (s : State) (n : Nat) (x : GatSt) : (setGat s n x).htd = s.htd := rfl
@[simp] theorem setGat_cal (s : State) (n : Nat) (x : GatSt) : (setGat s n x).cal = s.cal := rfl
@[simp] theorem setGat_can (s : State) (n : Nat) (x : GatSt) : (setGat s n x).can = s.can := rfl
@[simp] theorem setGat_syn (s : State) (n : Nat) (x : GatSt) : (setGat s n x).syn = s.syn := rfl
@[simp] theorem setGat_svc (s : State) (n : Nat) (x : GatSt) : (setGat s n x).svc = s.svc := rfl
@[simp] theorem setGat_pending (s : State) (n : Nat) (x : GatSt) : (setGat s n x).pending = s.pending := rfl

@[simp] theorem getGat_setGat_same (s : State) (n : Nat) (x : GatSt) : getGat (setGat s n x) n = x := by
  simp [getGat, setGat]

theorem getGat_setGat_other (s : State) {m n : Nat} (x : GatSt) (h : m ≠ n) : getGat (setGat s n x) m = getGat s m := by
  simp [getGat, setGat, tget_tset_other _ _ _ h]

/-! setHtd. -/

@[simp] theorem setHtd_now (s : State) (n : Nat) (x : HtdSt) : (setHtd s n x).now = s.now := rfl
@[simp] theorem setHtd_free (s : State) (n : Nat) (x : HtdSt) : (setHtd s n x).free = s.free := rfl
@[simp] theorem setHtd_rst (s : State) (n : Nat) (x : HtdSt) : (setHtd s n x).rst = s.rst := rfl
@[simp] theorem setHtd_straps (s : State) (n : Nat) (x : HtdSt) : (setHtd s n x).straps = s.straps := rfl
@[simp] theorem setHtd_pwr (s : State) (n : Nat) (x : HtdSt) : (setHtd s n x).pwr = s.pwr := rfl
@[simp] theorem setHtd_nvm (s : State) (n : Nat) (x : HtdSt) : (setHtd s n x).nvm = s.nvm := rfl
@[simp] theorem setHtd_flt (s : State) (n : Nat) (x : HtdSt) : (setHtd s n x).flt = s.flt := rfl
@[simp] theorem setHtd_recr (s : State) (n : Nat) (x : HtdSt) : (setHtd s n x).recr = s.recr := rfl
@[simp] theorem setHtd_start (s : State) (n : Nat) (x : HtdSt) : (setHtd s n x).start = s.start := rfl
@[simp] theorem setHtd_prf (s : State) (n : Nat) (x : HtdSt) : (setHtd s n x).prf = s.prf := rfl
@[simp] theorem setHtd_plt (s : State) (n : Nat) (x : HtdSt) : (setHtd s n x).plt = s.plt := rfl
@[simp] theorem setHtd_adm (s : State) (n : Nat) (x : HtdSt) : (setHtd s n x).adm = s.adm := rfl
@[simp] theorem setHtd_eng (s : State) (n : Nat) (x : HtdSt) : (setHtd s n x).eng = s.eng := rfl
@[simp] theorem setHtd_spn (s : State) (n : Nat) (x : HtdSt) : (setHtd s n x).spn = s.spn := rfl
@[simp] theorem setHtd_isl (s : State) (n : Nat) (x : HtdSt) : (setHtd s n x).isl = s.isl := rfl
@[simp] theorem setHtd_fe (s : State) (n : Nat) (x : HtdSt) : (setHtd s n x).fe = s.fe := rfl
@[simp] theorem setHtd_sw (s : State) (n : Nat) (x : HtdSt) : (setHtd s n x).sw = s.sw := rfl
@[simp] theorem setHtd_mns (s : State) (n : Nat) (x : HtdSt) : (setHtd s n x).mns = s.mns := rfl
@[simp] theorem setHtd_stb (s : State) (n : Nat) (x : HtdSt) : (setHtd s n x).stb = s.stb := rfl
@[simp] theorem setHtd_fan (s : State) (n : Nat) (x : HtdSt) : (setHtd s n x).fan = s.fan := rfl
@[simp] theorem setHtd_mot (s : State) (n : Nat) (x : HtdSt) : (setHtd s n x).mot = s.mot := rfl
@[simp] theorem setHtd_gat (s : State) (n : Nat) (x : HtdSt) : (setHtd s n x).gat = s.gat := rfl
@[simp] theorem setHtd_cal (s : State) (n : Nat) (x : HtdSt) : (setHtd s n x).cal = s.cal := rfl
@[simp] theorem setHtd_can (s : State) (n : Nat) (x : HtdSt) : (setHtd s n x).can = s.can := rfl
@[simp] theorem setHtd_syn (s : State) (n : Nat) (x : HtdSt) : (setHtd s n x).syn = s.syn := rfl
@[simp] theorem setHtd_svc (s : State) (n : Nat) (x : HtdSt) : (setHtd s n x).svc = s.svc := rfl
@[simp] theorem setHtd_pending (s : State) (n : Nat) (x : HtdSt) : (setHtd s n x).pending = s.pending := rfl

@[simp] theorem getHtd_setHtd_same (s : State) (n : Nat) (x : HtdSt) : getHtd (setHtd s n x) n = x := by
  simp [getHtd, setHtd]

theorem getHtd_setHtd_other (s : State) {m n : Nat} (x : HtdSt) (h : m ≠ n) : getHtd (setHtd s n x) m = getHtd s m := by
  simp [getHtd, setHtd, tget_tset_other _ _ _ h]

/-! setSw. -/

@[simp] theorem setSw_now (s : State) (n : Nat) (x : SwSt) : (setSw s n x).now = s.now := rfl
@[simp] theorem setSw_free (s : State) (n : Nat) (x : SwSt) : (setSw s n x).free = s.free := rfl
@[simp] theorem setSw_rst (s : State) (n : Nat) (x : SwSt) : (setSw s n x).rst = s.rst := rfl
@[simp] theorem setSw_straps (s : State) (n : Nat) (x : SwSt) : (setSw s n x).straps = s.straps := rfl
@[simp] theorem setSw_pwr (s : State) (n : Nat) (x : SwSt) : (setSw s n x).pwr = s.pwr := rfl
@[simp] theorem setSw_nvm (s : State) (n : Nat) (x : SwSt) : (setSw s n x).nvm = s.nvm := rfl
@[simp] theorem setSw_flt (s : State) (n : Nat) (x : SwSt) : (setSw s n x).flt = s.flt := rfl
@[simp] theorem setSw_recr (s : State) (n : Nat) (x : SwSt) : (setSw s n x).recr = s.recr := rfl
@[simp] theorem setSw_start (s : State) (n : Nat) (x : SwSt) : (setSw s n x).start = s.start := rfl
@[simp] theorem setSw_prf (s : State) (n : Nat) (x : SwSt) : (setSw s n x).prf = s.prf := rfl
@[simp] theorem setSw_plt (s : State) (n : Nat) (x : SwSt) : (setSw s n x).plt = s.plt := rfl
@[simp] theorem setSw_adm (s : State) (n : Nat) (x : SwSt) : (setSw s n x).adm = s.adm := rfl
@[simp] theorem setSw_eng (s : State) (n : Nat) (x : SwSt) : (setSw s n x).eng = s.eng := rfl
@[simp] theorem setSw_spn (s : State) (n : Nat) (x : SwSt) : (setSw s n x).spn = s.spn := rfl
@[simp] theorem setSw_isl (s : State) (n : Nat) (x : SwSt) : (setSw s n x).isl = s.isl := rfl
@[simp] theorem setSw_fe (s : State) (n : Nat) (x : SwSt) : (setSw s n x).fe = s.fe := rfl
@[simp] theorem setSw_mns (s : State) (n : Nat) (x : SwSt) : (setSw s n x).mns = s.mns := rfl
@[simp] theorem setSw_stb (s : State) (n : Nat) (x : SwSt) : (setSw s n x).stb = s.stb := rfl
@[simp] theorem setSw_fan (s : State) (n : Nat) (x : SwSt) : (setSw s n x).fan = s.fan := rfl
@[simp] theorem setSw_mot (s : State) (n : Nat) (x : SwSt) : (setSw s n x).mot = s.mot := rfl
@[simp] theorem setSw_gat (s : State) (n : Nat) (x : SwSt) : (setSw s n x).gat = s.gat := rfl
@[simp] theorem setSw_htd (s : State) (n : Nat) (x : SwSt) : (setSw s n x).htd = s.htd := rfl
@[simp] theorem setSw_cal (s : State) (n : Nat) (x : SwSt) : (setSw s n x).cal = s.cal := rfl
@[simp] theorem setSw_can (s : State) (n : Nat) (x : SwSt) : (setSw s n x).can = s.can := rfl
@[simp] theorem setSw_syn (s : State) (n : Nat) (x : SwSt) : (setSw s n x).syn = s.syn := rfl
@[simp] theorem setSw_svc (s : State) (n : Nat) (x : SwSt) : (setSw s n x).svc = s.svc := rfl
@[simp] theorem setSw_pending (s : State) (n : Nat) (x : SwSt) : (setSw s n x).pending = s.pending := rfl

@[simp] theorem getSw_setSw_same (s : State) (n : Nat) (x : SwSt) : getSw (setSw s n x) n = x := by
  simp [getSw, setSw]

theorem getSw_setSw_other (s : State) {m n : Nat} (x : SwSt) (h : m ≠ n) : getSw (setSw s n x) m = getSw s m := by
  simp [getSw, setSw, tget_tset_other _ _ _ h]

/-! setLink. -/

@[simp] theorem setLink_now (s : State) (n : Nat) (x : Link) : (setLink s n x).now = s.now := rfl
@[simp] theorem setLink_free (s : State) (n : Nat) (x : Link) : (setLink s n x).free = s.free := rfl
@[simp] theorem setLink_rst (s : State) (n : Nat) (x : Link) : (setLink s n x).rst = s.rst := rfl
@[simp] theorem setLink_straps (s : State) (n : Nat) (x : Link) : (setLink s n x).straps = s.straps := rfl
@[simp] theorem setLink_pwr (s : State) (n : Nat) (x : Link) : (setLink s n x).pwr = s.pwr := rfl
@[simp] theorem setLink_nvm (s : State) (n : Nat) (x : Link) : (setLink s n x).nvm = s.nvm := rfl
@[simp] theorem setLink_flt (s : State) (n : Nat) (x : Link) : (setLink s n x).flt = s.flt := rfl
@[simp] theorem setLink_recr (s : State) (n : Nat) (x : Link) : (setLink s n x).recr = s.recr := rfl
@[simp] theorem setLink_start (s : State) (n : Nat) (x : Link) : (setLink s n x).start = s.start := rfl
@[simp] theorem setLink_prf (s : State) (n : Nat) (x : Link) : (setLink s n x).prf = s.prf := rfl
@[simp] theorem setLink_plt (s : State) (n : Nat) (x : Link) : (setLink s n x).plt = s.plt := rfl
@[simp] theorem setLink_adm (s : State) (n : Nat) (x : Link) : (setLink s n x).adm = s.adm := rfl
@[simp] theorem setLink_eng (s : State) (n : Nat) (x : Link) : (setLink s n x).eng = s.eng := rfl
@[simp] theorem setLink_isl (s : State) (n : Nat) (x : Link) : (setLink s n x).isl = s.isl := rfl
@[simp] theorem setLink_fe (s : State) (n : Nat) (x : Link) : (setLink s n x).fe = s.fe := rfl
@[simp] theorem setLink_sw (s : State) (n : Nat) (x : Link) : (setLink s n x).sw = s.sw := rfl
@[simp] theorem setLink_mns (s : State) (n : Nat) (x : Link) : (setLink s n x).mns = s.mns := rfl
@[simp] theorem setLink_stb (s : State) (n : Nat) (x : Link) : (setLink s n x).stb = s.stb := rfl
@[simp] theorem setLink_fan (s : State) (n : Nat) (x : Link) : (setLink s n x).fan = s.fan := rfl
@[simp] theorem setLink_mot (s : State) (n : Nat) (x : Link) : (setLink s n x).mot = s.mot := rfl
@[simp] theorem setLink_gat (s : State) (n : Nat) (x : Link) : (setLink s n x).gat = s.gat := rfl
@[simp] theorem setLink_htd (s : State) (n : Nat) (x : Link) : (setLink s n x).htd = s.htd := rfl
@[simp] theorem setLink_cal (s : State) (n : Nat) (x : Link) : (setLink s n x).cal = s.cal := rfl
@[simp] theorem setLink_can (s : State) (n : Nat) (x : Link) : (setLink s n x).can = s.can := rfl
@[simp] theorem setLink_syn (s : State) (n : Nat) (x : Link) : (setLink s n x).syn = s.syn := rfl
@[simp] theorem setLink_svc (s : State) (n : Nat) (x : Link) : (setLink s n x).svc = s.svc := rfl
@[simp] theorem setLink_pending (s : State) (n : Nat) (x : Link) : (setLink s n x).pending = s.pending := rfl

@[simp] theorem getLink_setLink_same (s : State) (n : Nat) (x : Link) : getLink (setLink s n x) n = x := by
  simp [getLink, setLink]

theorem getLink_setLink_other (s : State) {m n : Nat} (x : Link) (h : m ≠ n) : getLink (setLink s n x) m = getLink s m := by
  simp [getLink, setLink, tget_tset_other _ _ _ h]

/-! setArb. -/

@[simp] theorem setArb_now (s : State) (n : Nat) (x : Arb) : (setArb s n x).now = s.now := rfl
@[simp] theorem setArb_free (s : State) (n : Nat) (x : Arb) : (setArb s n x).free = s.free := rfl
@[simp] theorem setArb_rst (s : State) (n : Nat) (x : Arb) : (setArb s n x).rst = s.rst := rfl
@[simp] theorem setArb_straps (s : State) (n : Nat) (x : Arb) : (setArb s n x).straps = s.straps := rfl
@[simp] theorem setArb_pwr (s : State) (n : Nat) (x : Arb) : (setArb s n x).pwr = s.pwr := rfl
@[simp] theorem setArb_nvm (s : State) (n : Nat) (x : Arb) : (setArb s n x).nvm = s.nvm := rfl
@[simp] theorem setArb_flt (s : State) (n : Nat) (x : Arb) : (setArb s n x).flt = s.flt := rfl
@[simp] theorem setArb_recr (s : State) (n : Nat) (x : Arb) : (setArb s n x).recr = s.recr := rfl
@[simp] theorem setArb_start (s : State) (n : Nat) (x : Arb) : (setArb s n x).start = s.start := rfl
@[simp] theorem setArb_prf (s : State) (n : Nat) (x : Arb) : (setArb s n x).prf = s.prf := rfl
@[simp] theorem setArb_plt (s : State) (n : Nat) (x : Arb) : (setArb s n x).plt = s.plt := rfl
@[simp] theorem setArb_adm (s : State) (n : Nat) (x : Arb) : (setArb s n x).adm = s.adm := rfl
@[simp] theorem setArb_eng (s : State) (n : Nat) (x : Arb) : (setArb s n x).eng = s.eng := rfl
@[simp] theorem setArb_isl (s : State) (n : Nat) (x : Arb) : (setArb s n x).isl = s.isl := rfl
@[simp] theorem setArb_fe (s : State) (n : Nat) (x : Arb) : (setArb s n x).fe = s.fe := rfl
@[simp] theorem setArb_sw (s : State) (n : Nat) (x : Arb) : (setArb s n x).sw = s.sw := rfl
@[simp] theorem setArb_mns (s : State) (n : Nat) (x : Arb) : (setArb s n x).mns = s.mns := rfl
@[simp] theorem setArb_stb (s : State) (n : Nat) (x : Arb) : (setArb s n x).stb = s.stb := rfl
@[simp] theorem setArb_fan (s : State) (n : Nat) (x : Arb) : (setArb s n x).fan = s.fan := rfl
@[simp] theorem setArb_mot (s : State) (n : Nat) (x : Arb) : (setArb s n x).mot = s.mot := rfl
@[simp] theorem setArb_gat (s : State) (n : Nat) (x : Arb) : (setArb s n x).gat = s.gat := rfl
@[simp] theorem setArb_htd (s : State) (n : Nat) (x : Arb) : (setArb s n x).htd = s.htd := rfl
@[simp] theorem setArb_cal (s : State) (n : Nat) (x : Arb) : (setArb s n x).cal = s.cal := rfl
@[simp] theorem setArb_can (s : State) (n : Nat) (x : Arb) : (setArb s n x).can = s.can := rfl
@[simp] theorem setArb_syn (s : State) (n : Nat) (x : Arb) : (setArb s n x).syn = s.syn := rfl
@[simp] theorem setArb_svc (s : State) (n : Nat) (x : Arb) : (setArb s n x).svc = s.svc := rfl
@[simp] theorem setArb_pending (s : State) (n : Nat) (x : Arb) : (setArb s n x).pending = s.pending := rfl

@[simp] theorem getArb_setArb_same (s : State) (n : Nat) (x : Arb) : getArb (setArb s n x) n = x := by
  simp [getArb, setArb]

theorem getArb_setArb_other (s : State) {m n : Nat} (x : Arb) (h : m ≠ n) : getArb (setArb s n x) m = getArb s m := by
  simp [getArb, setArb, tget_tset_other _ _ _ h]

/-! setNode. -/

@[simp] theorem setNode_now (s : State) (n : Nat) (x : NodeSt) : (setNode s n x).now = s.now := rfl
@[simp] theorem setNode_free (s : State) (n : Nat) (x : NodeSt) : (setNode s n x).free = s.free := rfl
@[simp] theorem setNode_rst (s : State) (n : Nat) (x : NodeSt) : (setNode s n x).rst = s.rst := rfl
@[simp] theorem setNode_straps (s : State) (n : Nat) (x : NodeSt) : (setNode s n x).straps = s.straps := rfl
@[simp] theorem setNode_pwr (s : State) (n : Nat) (x : NodeSt) : (setNode s n x).pwr = s.pwr := rfl
@[simp] theorem setNode_nvm (s : State) (n : Nat) (x : NodeSt) : (setNode s n x).nvm = s.nvm := rfl
@[simp] theorem setNode_flt (s : State) (n : Nat) (x : NodeSt) : (setNode s n x).flt = s.flt := rfl
@[simp] theorem setNode_recr (s : State) (n : Nat) (x : NodeSt) : (setNode s n x).recr = s.recr := rfl
@[simp] theorem setNode_start (s : State) (n : Nat) (x : NodeSt) : (setNode s n x).start = s.start := rfl
@[simp] theorem setNode_prf (s : State) (n : Nat) (x : NodeSt) : (setNode s n x).prf = s.prf := rfl
@[simp] theorem setNode_plt (s : State) (n : Nat) (x : NodeSt) : (setNode s n x).plt = s.plt := rfl
@[simp] theorem setNode_adm (s : State) (n : Nat) (x : NodeSt) : (setNode s n x).adm = s.adm := rfl
@[simp] theorem setNode_eng (s : State) (n : Nat) (x : NodeSt) : (setNode s n x).eng = s.eng := rfl
@[simp] theorem setNode_spn (s : State) (n : Nat) (x : NodeSt) : (setNode s n x).spn = s.spn := rfl
@[simp] theorem setNode_isl (s : State) (n : Nat) (x : NodeSt) : (setNode s n x).isl = s.isl := rfl
@[simp] theorem setNode_fe (s : State) (n : Nat) (x : NodeSt) : (setNode s n x).fe = s.fe := rfl
@[simp] theorem setNode_sw (s : State) (n : Nat) (x : NodeSt) : (setNode s n x).sw = s.sw := rfl
@[simp] theorem setNode_mns (s : State) (n : Nat) (x : NodeSt) : (setNode s n x).mns = s.mns := rfl
@[simp] theorem setNode_stb (s : State) (n : Nat) (x : NodeSt) : (setNode s n x).stb = s.stb := rfl
@[simp] theorem setNode_fan (s : State) (n : Nat) (x : NodeSt) : (setNode s n x).fan = s.fan := rfl
@[simp] theorem setNode_mot (s : State) (n : Nat) (x : NodeSt) : (setNode s n x).mot = s.mot := rfl
@[simp] theorem setNode_gat (s : State) (n : Nat) (x : NodeSt) : (setNode s n x).gat = s.gat := rfl
@[simp] theorem setNode_htd (s : State) (n : Nat) (x : NodeSt) : (setNode s n x).htd = s.htd := rfl
@[simp] theorem setNode_cal (s : State) (n : Nat) (x : NodeSt) : (setNode s n x).cal = s.cal := rfl
@[simp] theorem setNode_can (s : State) (n : Nat) (x : NodeSt) : (setNode s n x).can = s.can := rfl
@[simp] theorem setNode_svc (s : State) (n : Nat) (x : NodeSt) : (setNode s n x).svc = s.svc := rfl
@[simp] theorem setNode_pending (s : State) (n : Nat) (x : NodeSt) : (setNode s n x).pending = s.pending := rfl

@[simp] theorem getNode_setNode_same (s : State) (n : Nat) (x : NodeSt) : getNode (setNode s n x) n = x := by
  simp [getNode, setNode]

theorem getNode_setNode_other (s : State) {m n : Nat} (x : NodeSt) (h : m ≠ n) : getNode (setNode s n x) m = getNode s m := by
  simp [getNode, setNode, tget_tset_other _ _ _ h]

/-! setTile. -/

@[simp] theorem setTile_now (s : State) (n : Nat) (x : Tile) : (setTile s n x).now = s.now := rfl
@[simp] theorem setTile_free (s : State) (n : Nat) (x : Tile) : (setTile s n x).free = s.free := rfl
@[simp] theorem setTile_rst (s : State) (n : Nat) (x : Tile) : (setTile s n x).rst = s.rst := rfl
@[simp] theorem setTile_straps (s : State) (n : Nat) (x : Tile) : (setTile s n x).straps = s.straps := rfl
@[simp] theorem setTile_pwr (s : State) (n : Nat) (x : Tile) : (setTile s n x).pwr = s.pwr := rfl
@[simp] theorem setTile_nvm (s : State) (n : Nat) (x : Tile) : (setTile s n x).nvm = s.nvm := rfl
@[simp] theorem setTile_flt (s : State) (n : Nat) (x : Tile) : (setTile s n x).flt = s.flt := rfl
@[simp] theorem setTile_recr (s : State) (n : Nat) (x : Tile) : (setTile s n x).recr = s.recr := rfl
@[simp] theorem setTile_start (s : State) (n : Nat) (x : Tile) : (setTile s n x).start = s.start := rfl
@[simp] theorem setTile_plt (s : State) (n : Nat) (x : Tile) : (setTile s n x).plt = s.plt := rfl
@[simp] theorem setTile_adm (s : State) (n : Nat) (x : Tile) : (setTile s n x).adm = s.adm := rfl
@[simp] theorem setTile_eng (s : State) (n : Nat) (x : Tile) : (setTile s n x).eng = s.eng := rfl
@[simp] theorem setTile_spn (s : State) (n : Nat) (x : Tile) : (setTile s n x).spn = s.spn := rfl
@[simp] theorem setTile_isl (s : State) (n : Nat) (x : Tile) : (setTile s n x).isl = s.isl := rfl
@[simp] theorem setTile_fe (s : State) (n : Nat) (x : Tile) : (setTile s n x).fe = s.fe := rfl
@[simp] theorem setTile_sw (s : State) (n : Nat) (x : Tile) : (setTile s n x).sw = s.sw := rfl
@[simp] theorem setTile_mns (s : State) (n : Nat) (x : Tile) : (setTile s n x).mns = s.mns := rfl
@[simp] theorem setTile_stb (s : State) (n : Nat) (x : Tile) : (setTile s n x).stb = s.stb := rfl
@[simp] theorem setTile_fan (s : State) (n : Nat) (x : Tile) : (setTile s n x).fan = s.fan := rfl
@[simp] theorem setTile_mot (s : State) (n : Nat) (x : Tile) : (setTile s n x).mot = s.mot := rfl
@[simp] theorem setTile_gat (s : State) (n : Nat) (x : Tile) : (setTile s n x).gat = s.gat := rfl
@[simp] theorem setTile_htd (s : State) (n : Nat) (x : Tile) : (setTile s n x).htd = s.htd := rfl
@[simp] theorem setTile_cal (s : State) (n : Nat) (x : Tile) : (setTile s n x).cal = s.cal := rfl
@[simp] theorem setTile_can (s : State) (n : Nat) (x : Tile) : (setTile s n x).can = s.can := rfl
@[simp] theorem setTile_syn (s : State) (n : Nat) (x : Tile) : (setTile s n x).syn = s.syn := rfl
@[simp] theorem setTile_svc (s : State) (n : Nat) (x : Tile) : (setTile s n x).svc = s.svc := rfl
@[simp] theorem setTile_pending (s : State) (n : Nat) (x : Tile) : (setTile s n x).pending = s.pending := rfl

@[simp] theorem getTile_setTile_same (s : State) (n : Nat) (x : Tile) : getTile (setTile s n x) n = x := by
  simp [getTile, setTile]

theorem getTile_setTile_other (s : State) {m n : Nat} (x : Tile) (h : m ≠ n) : getTile (setTile s n x) m = getTile s m := by
  simp [getTile, setTile, tget_tset_other _ _ _ h]

/-! setLt. -/

@[simp] theorem setLt_now (s : State) (n : Nat) (x : LTile) : (setLt s n x).now = s.now := rfl
@[simp] theorem setLt_free (s : State) (n : Nat) (x : LTile) : (setLt s n x).free = s.free := rfl
@[simp] theorem setLt_rst (s : State) (n : Nat) (x : LTile) : (setLt s n x).rst = s.rst := rfl
@[simp] theorem setLt_straps (s : State) (n : Nat) (x : LTile) : (setLt s n x).straps = s.straps := rfl
@[simp] theorem setLt_pwr (s : State) (n : Nat) (x : LTile) : (setLt s n x).pwr = s.pwr := rfl
@[simp] theorem setLt_nvm (s : State) (n : Nat) (x : LTile) : (setLt s n x).nvm = s.nvm := rfl
@[simp] theorem setLt_flt (s : State) (n : Nat) (x : LTile) : (setLt s n x).flt = s.flt := rfl
@[simp] theorem setLt_recr (s : State) (n : Nat) (x : LTile) : (setLt s n x).recr = s.recr := rfl
@[simp] theorem setLt_start (s : State) (n : Nat) (x : LTile) : (setLt s n x).start = s.start := rfl
@[simp] theorem setLt_prf (s : State) (n : Nat) (x : LTile) : (setLt s n x).prf = s.prf := rfl
@[simp] theorem setLt_plt (s : State) (n : Nat) (x : LTile) : (setLt s n x).plt = s.plt := rfl
@[simp] theorem setLt_adm (s : State) (n : Nat) (x : LTile) : (setLt s n x).adm = s.adm := rfl
@[simp] theorem setLt_spn (s : State) (n : Nat) (x : LTile) : (setLt s n x).spn = s.spn := rfl
@[simp] theorem setLt_isl (s : State) (n : Nat) (x : LTile) : (setLt s n x).isl = s.isl := rfl
@[simp] theorem setLt_fe (s : State) (n : Nat) (x : LTile) : (setLt s n x).fe = s.fe := rfl
@[simp] theorem setLt_sw (s : State) (n : Nat) (x : LTile) : (setLt s n x).sw = s.sw := rfl
@[simp] theorem setLt_mns (s : State) (n : Nat) (x : LTile) : (setLt s n x).mns = s.mns := rfl
@[simp] theorem setLt_stb (s : State) (n : Nat) (x : LTile) : (setLt s n x).stb = s.stb := rfl
@[simp] theorem setLt_fan (s : State) (n : Nat) (x : LTile) : (setLt s n x).fan = s.fan := rfl
@[simp] theorem setLt_mot (s : State) (n : Nat) (x : LTile) : (setLt s n x).mot = s.mot := rfl
@[simp] theorem setLt_gat (s : State) (n : Nat) (x : LTile) : (setLt s n x).gat = s.gat := rfl
@[simp] theorem setLt_htd (s : State) (n : Nat) (x : LTile) : (setLt s n x).htd = s.htd := rfl
@[simp] theorem setLt_cal (s : State) (n : Nat) (x : LTile) : (setLt s n x).cal = s.cal := rfl
@[simp] theorem setLt_can (s : State) (n : Nat) (x : LTile) : (setLt s n x).can = s.can := rfl
@[simp] theorem setLt_syn (s : State) (n : Nat) (x : LTile) : (setLt s n x).syn = s.syn := rfl
@[simp] theorem setLt_svc (s : State) (n : Nat) (x : LTile) : (setLt s n x).svc = s.svc := rfl
@[simp] theorem setLt_pending (s : State) (n : Nat) (x : LTile) : (setLt s n x).pending = s.pending := rfl

@[simp] theorem getLt_setLt_same (s : State) (n : Nat) (x : LTile) : getLt (setLt s n x) n = x := by
  simp [getLt, setLt]

theorem getLt_setLt_other (s : State) {m n : Nat} (x : LTile) (h : m ≠ n) : getLt (setLt s n x) m = getLt s m := by
  simp [getLt, setLt, tget_tset_other _ _ _ h]

/-! setFev. -/

@[simp] theorem setFev_now (s : State) (n : Nat) (x : FeVal) : (setFev s n x).now = s.now := rfl
@[simp] theorem setFev_free (s : State) (n : Nat) (x : FeVal) : (setFev s n x).free = s.free := rfl
@[simp] theorem setFev_rst (s : State) (n : Nat) (x : FeVal) : (setFev s n x).rst = s.rst := rfl
@[simp] theorem setFev_straps (s : State) (n : Nat) (x : FeVal) : (setFev s n x).straps = s.straps := rfl
@[simp] theorem setFev_pwr (s : State) (n : Nat) (x : FeVal) : (setFev s n x).pwr = s.pwr := rfl
@[simp] theorem setFev_nvm (s : State) (n : Nat) (x : FeVal) : (setFev s n x).nvm = s.nvm := rfl
@[simp] theorem setFev_flt (s : State) (n : Nat) (x : FeVal) : (setFev s n x).flt = s.flt := rfl
@[simp] theorem setFev_recr (s : State) (n : Nat) (x : FeVal) : (setFev s n x).recr = s.recr := rfl
@[simp] theorem setFev_start (s : State) (n : Nat) (x : FeVal) : (setFev s n x).start = s.start := rfl
@[simp] theorem setFev_prf (s : State) (n : Nat) (x : FeVal) : (setFev s n x).prf = s.prf := rfl
@[simp] theorem setFev_plt (s : State) (n : Nat) (x : FeVal) : (setFev s n x).plt = s.plt := rfl
@[simp] theorem setFev_adm (s : State) (n : Nat) (x : FeVal) : (setFev s n x).adm = s.adm := rfl
@[simp] theorem setFev_eng (s : State) (n : Nat) (x : FeVal) : (setFev s n x).eng = s.eng := rfl
@[simp] theorem setFev_spn (s : State) (n : Nat) (x : FeVal) : (setFev s n x).spn = s.spn := rfl
@[simp] theorem setFev_isl (s : State) (n : Nat) (x : FeVal) : (setFev s n x).isl = s.isl := rfl
@[simp] theorem setFev_fe (s : State) (n : Nat) (x : FeVal) : (setFev s n x).fe = s.fe := rfl
@[simp] theorem setFev_mns (s : State) (n : Nat) (x : FeVal) : (setFev s n x).mns = s.mns := rfl
@[simp] theorem setFev_stb (s : State) (n : Nat) (x : FeVal) : (setFev s n x).stb = s.stb := rfl
@[simp] theorem setFev_fan (s : State) (n : Nat) (x : FeVal) : (setFev s n x).fan = s.fan := rfl
@[simp] theorem setFev_mot (s : State) (n : Nat) (x : FeVal) : (setFev s n x).mot = s.mot := rfl
@[simp] theorem setFev_gat (s : State) (n : Nat) (x : FeVal) : (setFev s n x).gat = s.gat := rfl
@[simp] theorem setFev_htd (s : State) (n : Nat) (x : FeVal) : (setFev s n x).htd = s.htd := rfl
@[simp] theorem setFev_cal (s : State) (n : Nat) (x : FeVal) : (setFev s n x).cal = s.cal := rfl
@[simp] theorem setFev_can (s : State) (n : Nat) (x : FeVal) : (setFev s n x).can = s.can := rfl
@[simp] theorem setFev_syn (s : State) (n : Nat) (x : FeVal) : (setFev s n x).syn = s.syn := rfl
@[simp] theorem setFev_svc (s : State) (n : Nat) (x : FeVal) : (setFev s n x).svc = s.svc := rfl
@[simp] theorem setFev_pending (s : State) (n : Nat) (x : FeVal) : (setFev s n x).pending = s.pending := rfl

@[simp] theorem getFev_setFev_same (s : State) (n : Nat) (x : FeVal) : getFev (setFev s n x) n = x := by
  simp [getFev, setFev]

theorem getFev_setFev_other (s : State) {m n : Nat} (x : FeVal) (h : m ≠ n) : getFev (setFev s n x) m = getFev s m := by
  simp [getFev, setFev, tget_tset_other _ _ _ h]

/-! setPair. -/

@[simp] theorem setPair_now (s : State) (n : Nat) (x : PairSt) : (setPair s n x).now = s.now := rfl
@[simp] theorem setPair_free (s : State) (n : Nat) (x : PairSt) : (setPair s n x).free = s.free := rfl
@[simp] theorem setPair_rst (s : State) (n : Nat) (x : PairSt) : (setPair s n x).rst = s.rst := rfl
@[simp] theorem setPair_straps (s : State) (n : Nat) (x : PairSt) : (setPair s n x).straps = s.straps := rfl
@[simp] theorem setPair_pwr (s : State) (n : Nat) (x : PairSt) : (setPair s n x).pwr = s.pwr := rfl
@[simp] theorem setPair_nvm (s : State) (n : Nat) (x : PairSt) : (setPair s n x).nvm = s.nvm := rfl
@[simp] theorem setPair_flt (s : State) (n : Nat) (x : PairSt) : (setPair s n x).flt = s.flt := rfl
@[simp] theorem setPair_recr (s : State) (n : Nat) (x : PairSt) : (setPair s n x).recr = s.recr := rfl
@[simp] theorem setPair_start (s : State) (n : Nat) (x : PairSt) : (setPair s n x).start = s.start := rfl
@[simp] theorem setPair_prf (s : State) (n : Nat) (x : PairSt) : (setPair s n x).prf = s.prf := rfl
@[simp] theorem setPair_plt (s : State) (n : Nat) (x : PairSt) : (setPair s n x).plt = s.plt := rfl
@[simp] theorem setPair_adm (s : State) (n : Nat) (x : PairSt) : (setPair s n x).adm = s.adm := rfl
@[simp] theorem setPair_eng (s : State) (n : Nat) (x : PairSt) : (setPair s n x).eng = s.eng := rfl
@[simp] theorem setPair_spn (s : State) (n : Nat) (x : PairSt) : (setPair s n x).spn = s.spn := rfl
@[simp] theorem setPair_isl (s : State) (n : Nat) (x : PairSt) : (setPair s n x).isl = s.isl := rfl
@[simp] theorem setPair_fe (s : State) (n : Nat) (x : PairSt) : (setPair s n x).fe = s.fe := rfl
@[simp] theorem setPair_mns (s : State) (n : Nat) (x : PairSt) : (setPair s n x).mns = s.mns := rfl
@[simp] theorem setPair_stb (s : State) (n : Nat) (x : PairSt) : (setPair s n x).stb = s.stb := rfl
@[simp] theorem setPair_fan (s : State) (n : Nat) (x : PairSt) : (setPair s n x).fan = s.fan := rfl
@[simp] theorem setPair_mot (s : State) (n : Nat) (x : PairSt) : (setPair s n x).mot = s.mot := rfl
@[simp] theorem setPair_gat (s : State) (n : Nat) (x : PairSt) : (setPair s n x).gat = s.gat := rfl
@[simp] theorem setPair_htd (s : State) (n : Nat) (x : PairSt) : (setPair s n x).htd = s.htd := rfl
@[simp] theorem setPair_cal (s : State) (n : Nat) (x : PairSt) : (setPair s n x).cal = s.cal := rfl
@[simp] theorem setPair_can (s : State) (n : Nat) (x : PairSt) : (setPair s n x).can = s.can := rfl
@[simp] theorem setPair_syn (s : State) (n : Nat) (x : PairSt) : (setPair s n x).syn = s.syn := rfl
@[simp] theorem setPair_svc (s : State) (n : Nat) (x : PairSt) : (setPair s n x).svc = s.svc := rfl
@[simp] theorem setPair_pending (s : State) (n : Nat) (x : PairSt) : (setPair s n x).pending = s.pending := rfl

@[simp] theorem getPair_setPair_same (s : State) (n : Nat) (x : PairSt) : getPair (setPair s n x) n = x := by
  simp [getPair, setPair]

theorem getPair_setPair_other (s : State) {m n : Nat} (x : PairSt) (h : m ≠ n) : getPair (setPair s n x) m = getPair s m := by
  simp [getPair, setPair, tget_tset_other _ _ _ h]

/-! setList. -/

@[simp] theorem setList_now (s : State) (n : Nat) (x : LSeq) : (setList s n x).now = s.now := rfl
@[simp] theorem setList_free (s : State) (n : Nat) (x : LSeq) : (setList s n x).free = s.free := rfl
@[simp] theorem setList_rst (s : State) (n : Nat) (x : LSeq) : (setList s n x).rst = s.rst := rfl
@[simp] theorem setList_straps (s : State) (n : Nat) (x : LSeq) : (setList s n x).straps = s.straps := rfl
@[simp] theorem setList_pwr (s : State) (n : Nat) (x : LSeq) : (setList s n x).pwr = s.pwr := rfl
@[simp] theorem setList_nvm (s : State) (n : Nat) (x : LSeq) : (setList s n x).nvm = s.nvm := rfl
@[simp] theorem setList_flt (s : State) (n : Nat) (x : LSeq) : (setList s n x).flt = s.flt := rfl
@[simp] theorem setList_recr (s : State) (n : Nat) (x : LSeq) : (setList s n x).recr = s.recr := rfl
@[simp] theorem setList_start (s : State) (n : Nat) (x : LSeq) : (setList s n x).start = s.start := rfl
@[simp] theorem setList_prf (s : State) (n : Nat) (x : LSeq) : (setList s n x).prf = s.prf := rfl
@[simp] theorem setList_plt (s : State) (n : Nat) (x : LSeq) : (setList s n x).plt = s.plt := rfl
@[simp] theorem setList_adm (s : State) (n : Nat) (x : LSeq) : (setList s n x).adm = s.adm := rfl
@[simp] theorem setList_eng (s : State) (n : Nat) (x : LSeq) : (setList s n x).eng = s.eng := rfl
@[simp] theorem setList_spn (s : State) (n : Nat) (x : LSeq) : (setList s n x).spn = s.spn := rfl
@[simp] theorem setList_isl (s : State) (n : Nat) (x : LSeq) : (setList s n x).isl = s.isl := rfl
@[simp] theorem setList_sw (s : State) (n : Nat) (x : LSeq) : (setList s n x).sw = s.sw := rfl
@[simp] theorem setList_mns (s : State) (n : Nat) (x : LSeq) : (setList s n x).mns = s.mns := rfl
@[simp] theorem setList_stb (s : State) (n : Nat) (x : LSeq) : (setList s n x).stb = s.stb := rfl
@[simp] theorem setList_fan (s : State) (n : Nat) (x : LSeq) : (setList s n x).fan = s.fan := rfl
@[simp] theorem setList_mot (s : State) (n : Nat) (x : LSeq) : (setList s n x).mot = s.mot := rfl
@[simp] theorem setList_gat (s : State) (n : Nat) (x : LSeq) : (setList s n x).gat = s.gat := rfl
@[simp] theorem setList_htd (s : State) (n : Nat) (x : LSeq) : (setList s n x).htd = s.htd := rfl
@[simp] theorem setList_cal (s : State) (n : Nat) (x : LSeq) : (setList s n x).cal = s.cal := rfl
@[simp] theorem setList_can (s : State) (n : Nat) (x : LSeq) : (setList s n x).can = s.can := rfl
@[simp] theorem setList_syn (s : State) (n : Nat) (x : LSeq) : (setList s n x).syn = s.syn := rfl
@[simp] theorem setList_svc (s : State) (n : Nat) (x : LSeq) : (setList s n x).svc = s.svc := rfl
@[simp] theorem setList_pending (s : State) (n : Nat) (x : LSeq) : (setList s n x).pending = s.pending := rfl

@[simp] theorem getList_setList_same (s : State) (n : Nat) (x : LSeq) : getList (setList s n x) n = x := by
  simp [getList, setList]

theorem getList_setList_other (s : State) {m n : Nat} (x : LSeq) (h : m ≠ n) : getList (setList s n x) m = getList s m := by
  simp [getList, setList, tget_tset_other _ _ _ h]

/-! setSect. -/

@[simp] theorem setSect_now (s : State) (n : Nat) (x : Sect) : (setSect s n x).now = s.now := rfl
@[simp] theorem setSect_free (s : State) (n : Nat) (x : Sect) : (setSect s n x).free = s.free := rfl
@[simp] theorem setSect_rst (s : State) (n : Nat) (x : Sect) : (setSect s n x).rst = s.rst := rfl
@[simp] theorem setSect_straps (s : State) (n : Nat) (x : Sect) : (setSect s n x).straps = s.straps := rfl
@[simp] theorem setSect_pwr (s : State) (n : Nat) (x : Sect) : (setSect s n x).pwr = s.pwr := rfl
@[simp] theorem setSect_nvm (s : State) (n : Nat) (x : Sect) : (setSect s n x).nvm = s.nvm := rfl
@[simp] theorem setSect_flt (s : State) (n : Nat) (x : Sect) : (setSect s n x).flt = s.flt := rfl
@[simp] theorem setSect_recr (s : State) (n : Nat) (x : Sect) : (setSect s n x).recr = s.recr := rfl
@[simp] theorem setSect_prf (s : State) (n : Nat) (x : Sect) : (setSect s n x).prf = s.prf := rfl
@[simp] theorem setSect_plt (s : State) (n : Nat) (x : Sect) : (setSect s n x).plt = s.plt := rfl
@[simp] theorem setSect_adm (s : State) (n : Nat) (x : Sect) : (setSect s n x).adm = s.adm := rfl
@[simp] theorem setSect_eng (s : State) (n : Nat) (x : Sect) : (setSect s n x).eng = s.eng := rfl
@[simp] theorem setSect_spn (s : State) (n : Nat) (x : Sect) : (setSect s n x).spn = s.spn := rfl
@[simp] theorem setSect_isl (s : State) (n : Nat) (x : Sect) : (setSect s n x).isl = s.isl := rfl
@[simp] theorem setSect_fe (s : State) (n : Nat) (x : Sect) : (setSect s n x).fe = s.fe := rfl
@[simp] theorem setSect_sw (s : State) (n : Nat) (x : Sect) : (setSect s n x).sw = s.sw := rfl
@[simp] theorem setSect_mns (s : State) (n : Nat) (x : Sect) : (setSect s n x).mns = s.mns := rfl
@[simp] theorem setSect_stb (s : State) (n : Nat) (x : Sect) : (setSect s n x).stb = s.stb := rfl
@[simp] theorem setSect_fan (s : State) (n : Nat) (x : Sect) : (setSect s n x).fan = s.fan := rfl
@[simp] theorem setSect_mot (s : State) (n : Nat) (x : Sect) : (setSect s n x).mot = s.mot := rfl
@[simp] theorem setSect_gat (s : State) (n : Nat) (x : Sect) : (setSect s n x).gat = s.gat := rfl
@[simp] theorem setSect_htd (s : State) (n : Nat) (x : Sect) : (setSect s n x).htd = s.htd := rfl
@[simp] theorem setSect_cal (s : State) (n : Nat) (x : Sect) : (setSect s n x).cal = s.cal := rfl
@[simp] theorem setSect_can (s : State) (n : Nat) (x : Sect) : (setSect s n x).can = s.can := rfl
@[simp] theorem setSect_syn (s : State) (n : Nat) (x : Sect) : (setSect s n x).syn = s.syn := rfl
@[simp] theorem setSect_svc (s : State) (n : Nat) (x : Sect) : (setSect s n x).svc = s.svc := rfl
@[simp] theorem setSect_pending (s : State) (n : Nat) (x : Sect) : (setSect s n x).pending = s.pending := rfl

@[simp] theorem getSect_setSect_same (s : State) (n : Nat) (x : Sect) : getSect (setSect s n x) n = x := by
  simp [getSect, setSect]

theorem getSect_setSect_other (s : State) {m n : Nat} (x : Sect) (h : m ≠ n) : getSect (setSect s n x) m = getSect s m := by
  simp [getSect, setSect, tget_tset_other _ _ _ h]

/-! setIsl. -/

@[simp] theorem setIsl_now (s : State) (n : Nat) (x : IslSt) : (setIsl s n x).now = s.now := rfl
@[simp] theorem setIsl_free (s : State) (n : Nat) (x : IslSt) : (setIsl s n x).free = s.free := rfl
@[simp] theorem setIsl_rst (s : State) (n : Nat) (x : IslSt) : (setIsl s n x).rst = s.rst := rfl
@[simp] theorem setIsl_straps (s : State) (n : Nat) (x : IslSt) : (setIsl s n x).straps = s.straps := rfl
@[simp] theorem setIsl_pwr (s : State) (n : Nat) (x : IslSt) : (setIsl s n x).pwr = s.pwr := rfl
@[simp] theorem setIsl_nvm (s : State) (n : Nat) (x : IslSt) : (setIsl s n x).nvm = s.nvm := rfl
@[simp] theorem setIsl_flt (s : State) (n : Nat) (x : IslSt) : (setIsl s n x).flt = s.flt := rfl
@[simp] theorem setIsl_recr (s : State) (n : Nat) (x : IslSt) : (setIsl s n x).recr = s.recr := rfl
@[simp] theorem setIsl_start (s : State) (n : Nat) (x : IslSt) : (setIsl s n x).start = s.start := rfl
@[simp] theorem setIsl_prf (s : State) (n : Nat) (x : IslSt) : (setIsl s n x).prf = s.prf := rfl
@[simp] theorem setIsl_plt (s : State) (n : Nat) (x : IslSt) : (setIsl s n x).plt = s.plt := rfl
@[simp] theorem setIsl_adm (s : State) (n : Nat) (x : IslSt) : (setIsl s n x).adm = s.adm := rfl
@[simp] theorem setIsl_eng (s : State) (n : Nat) (x : IslSt) : (setIsl s n x).eng = s.eng := rfl
@[simp] theorem setIsl_spn (s : State) (n : Nat) (x : IslSt) : (setIsl s n x).spn = s.spn := rfl
@[simp] theorem setIsl_fe (s : State) (n : Nat) (x : IslSt) : (setIsl s n x).fe = s.fe := rfl
@[simp] theorem setIsl_sw (s : State) (n : Nat) (x : IslSt) : (setIsl s n x).sw = s.sw := rfl
@[simp] theorem setIsl_mns (s : State) (n : Nat) (x : IslSt) : (setIsl s n x).mns = s.mns := rfl
@[simp] theorem setIsl_stb (s : State) (n : Nat) (x : IslSt) : (setIsl s n x).stb = s.stb := rfl
@[simp] theorem setIsl_fan (s : State) (n : Nat) (x : IslSt) : (setIsl s n x).fan = s.fan := rfl
@[simp] theorem setIsl_mot (s : State) (n : Nat) (x : IslSt) : (setIsl s n x).mot = s.mot := rfl
@[simp] theorem setIsl_gat (s : State) (n : Nat) (x : IslSt) : (setIsl s n x).gat = s.gat := rfl
@[simp] theorem setIsl_htd (s : State) (n : Nat) (x : IslSt) : (setIsl s n x).htd = s.htd := rfl
@[simp] theorem setIsl_cal (s : State) (n : Nat) (x : IslSt) : (setIsl s n x).cal = s.cal := rfl
@[simp] theorem setIsl_can (s : State) (n : Nat) (x : IslSt) : (setIsl s n x).can = s.can := rfl
@[simp] theorem setIsl_syn (s : State) (n : Nat) (x : IslSt) : (setIsl s n x).syn = s.syn := rfl
@[simp] theorem setIsl_svc (s : State) (n : Nat) (x : IslSt) : (setIsl s n x).svc = s.svc := rfl
@[simp] theorem setIsl_pending (s : State) (n : Nat) (x : IslSt) : (setIsl s n x).pending = s.pending := rfl

/-! setSlice. -/

@[simp] theorem setSlice_now (s : State) (n : Nat) (x : SliceSt) : (setSlice s n x).now = s.now := rfl
@[simp] theorem setSlice_free (s : State) (n : Nat) (x : SliceSt) : (setSlice s n x).free = s.free := rfl
@[simp] theorem setSlice_rst (s : State) (n : Nat) (x : SliceSt) : (setSlice s n x).rst = s.rst := rfl
@[simp] theorem setSlice_straps (s : State) (n : Nat) (x : SliceSt) : (setSlice s n x).straps = s.straps := rfl
@[simp] theorem setSlice_pwr (s : State) (n : Nat) (x : SliceSt) : (setSlice s n x).pwr = s.pwr := rfl
@[simp] theorem setSlice_nvm (s : State) (n : Nat) (x : SliceSt) : (setSlice s n x).nvm = s.nvm := rfl
@[simp] theorem setSlice_flt (s : State) (n : Nat) (x : SliceSt) : (setSlice s n x).flt = s.flt := rfl
@[simp] theorem setSlice_recr (s : State) (n : Nat) (x : SliceSt) : (setSlice s n x).recr = s.recr := rfl
@[simp] theorem setSlice_start (s : State) (n : Nat) (x : SliceSt) : (setSlice s n x).start = s.start := rfl
@[simp] theorem setSlice_prf (s : State) (n : Nat) (x : SliceSt) : (setSlice s n x).prf = s.prf := rfl
@[simp] theorem setSlice_plt (s : State) (n : Nat) (x : SliceSt) : (setSlice s n x).plt = s.plt := rfl
@[simp] theorem setSlice_adm (s : State) (n : Nat) (x : SliceSt) : (setSlice s n x).adm = s.adm := rfl
@[simp] theorem setSlice_eng (s : State) (n : Nat) (x : SliceSt) : (setSlice s n x).eng = s.eng := rfl
@[simp] theorem setSlice_spn (s : State) (n : Nat) (x : SliceSt) : (setSlice s n x).spn = s.spn := rfl
@[simp] theorem setSlice_isl (s : State) (n : Nat) (x : SliceSt) : (setSlice s n x).isl = s.isl := rfl
@[simp] theorem setSlice_sw (s : State) (n : Nat) (x : SliceSt) : (setSlice s n x).sw = s.sw := rfl
@[simp] theorem setSlice_mns (s : State) (n : Nat) (x : SliceSt) : (setSlice s n x).mns = s.mns := rfl
@[simp] theorem setSlice_stb (s : State) (n : Nat) (x : SliceSt) : (setSlice s n x).stb = s.stb := rfl
@[simp] theorem setSlice_fan (s : State) (n : Nat) (x : SliceSt) : (setSlice s n x).fan = s.fan := rfl
@[simp] theorem setSlice_mot (s : State) (n : Nat) (x : SliceSt) : (setSlice s n x).mot = s.mot := rfl
@[simp] theorem setSlice_gat (s : State) (n : Nat) (x : SliceSt) : (setSlice s n x).gat = s.gat := rfl
@[simp] theorem setSlice_htd (s : State) (n : Nat) (x : SliceSt) : (setSlice s n x).htd = s.htd := rfl
@[simp] theorem setSlice_cal (s : State) (n : Nat) (x : SliceSt) : (setSlice s n x).cal = s.cal := rfl
@[simp] theorem setSlice_can (s : State) (n : Nat) (x : SliceSt) : (setSlice s n x).can = s.can := rfl
@[simp] theorem setSlice_syn (s : State) (n : Nat) (x : SliceSt) : (setSlice s n x).syn = s.syn := rfl
@[simp] theorem setSlice_svc (s : State) (n : Nat) (x : SliceSt) : (setSlice s n x).svc = s.svc := rfl
@[simp] theorem setSlice_pending (s : State) (n : Nat) (x : SliceSt) : (setSlice s n x).pending = s.pending := rfl

/-! setWrite. -/

@[simp] theorem setWrite_now (s : State) (w : PltWrite) : (setWrite s w).now = s.now := rfl
@[simp] theorem setWrite_free (s : State) (w : PltWrite) : (setWrite s w).free = s.free := rfl
@[simp] theorem setWrite_rst (s : State) (w : PltWrite) : (setWrite s w).rst = s.rst := rfl
@[simp] theorem setWrite_straps (s : State) (w : PltWrite) : (setWrite s w).straps = s.straps := rfl
@[simp] theorem setWrite_pwr (s : State) (w : PltWrite) : (setWrite s w).pwr = s.pwr := rfl
@[simp] theorem setWrite_nvm (s : State) (w : PltWrite) : (setWrite s w).nvm = s.nvm := rfl
@[simp] theorem setWrite_flt (s : State) (w : PltWrite) : (setWrite s w).flt = s.flt := rfl
@[simp] theorem setWrite_recr (s : State) (w : PltWrite) : (setWrite s w).recr = s.recr := rfl
@[simp] theorem setWrite_start (s : State) (w : PltWrite) : (setWrite s w).start = s.start := rfl
@[simp] theorem setWrite_prf (s : State) (w : PltWrite) : (setWrite s w).prf = s.prf := rfl
@[simp] theorem setWrite_adm (s : State) (w : PltWrite) : (setWrite s w).adm = s.adm := rfl
@[simp] theorem setWrite_eng (s : State) (w : PltWrite) : (setWrite s w).eng = s.eng := rfl
@[simp] theorem setWrite_spn (s : State) (w : PltWrite) : (setWrite s w).spn = s.spn := rfl
@[simp] theorem setWrite_isl (s : State) (w : PltWrite) : (setWrite s w).isl = s.isl := rfl
@[simp] theorem setWrite_fe (s : State) (w : PltWrite) : (setWrite s w).fe = s.fe := rfl
@[simp] theorem setWrite_sw (s : State) (w : PltWrite) : (setWrite s w).sw = s.sw := rfl
@[simp] theorem setWrite_mns (s : State) (w : PltWrite) : (setWrite s w).mns = s.mns := rfl
@[simp] theorem setWrite_stb (s : State) (w : PltWrite) : (setWrite s w).stb = s.stb := rfl
@[simp] theorem setWrite_fan (s : State) (w : PltWrite) : (setWrite s w).fan = s.fan := rfl
@[simp] theorem setWrite_mot (s : State) (w : PltWrite) : (setWrite s w).mot = s.mot := rfl
@[simp] theorem setWrite_gat (s : State) (w : PltWrite) : (setWrite s w).gat = s.gat := rfl
@[simp] theorem setWrite_htd (s : State) (w : PltWrite) : (setWrite s w).htd = s.htd := rfl
@[simp] theorem setWrite_cal (s : State) (w : PltWrite) : (setWrite s w).cal = s.cal := rfl
@[simp] theorem setWrite_can (s : State) (w : PltWrite) : (setWrite s w).can = s.can := rfl
@[simp] theorem setWrite_syn (s : State) (w : PltWrite) : (setWrite s w).syn = s.syn := rfl
@[simp] theorem setWrite_svc (s : State) (w : PltWrite) : (setWrite s w).svc = s.svc := rfl
@[simp] theorem setWrite_pending (s : State) (w : PltWrite) : (setWrite s w).pending = s.pending := rfl
@[simp] theorem setWrite_write (s : State) (w : PltWrite) : (setWrite s w).plt.write = w := rfl
@[simp] theorem setWrite_flash (s : State) (w : PltWrite) : (setWrite s w).plt.flash = s.plt.flash := rfl

/-! heard, svcReply. -/

@[simp] theorem heard_now (s : State) : (heard s).now = s.now := rfl
@[simp] theorem svcReply_now (s : State) (seq cmd : Nat) (bs : List Byte) : (svcReply s seq cmd bs).now = s.now := rfl
@[simp] theorem heard_free (s : State) : (heard s).free = s.free := rfl
@[simp] theorem svcReply_free (s : State) (seq cmd : Nat) (bs : List Byte) : (svcReply s seq cmd bs).free = s.free := rfl
@[simp] theorem heard_rst (s : State) : (heard s).rst = s.rst := rfl
@[simp] theorem svcReply_rst (s : State) (seq cmd : Nat) (bs : List Byte) : (svcReply s seq cmd bs).rst = s.rst := rfl
@[simp] theorem heard_straps (s : State) : (heard s).straps = s.straps := rfl
@[simp] theorem svcReply_straps (s : State) (seq cmd : Nat) (bs : List Byte) : (svcReply s seq cmd bs).straps = s.straps := rfl
@[simp] theorem heard_pwr (s : State) : (heard s).pwr = s.pwr := rfl
@[simp] theorem svcReply_pwr (s : State) (seq cmd : Nat) (bs : List Byte) : (svcReply s seq cmd bs).pwr = s.pwr := rfl
@[simp] theorem heard_nvm (s : State) : (heard s).nvm = s.nvm := rfl
@[simp] theorem svcReply_nvm (s : State) (seq cmd : Nat) (bs : List Byte) : (svcReply s seq cmd bs).nvm = s.nvm := rfl
@[simp] theorem heard_flt (s : State) : (heard s).flt = s.flt := rfl
@[simp] theorem svcReply_flt (s : State) (seq cmd : Nat) (bs : List Byte) : (svcReply s seq cmd bs).flt = s.flt := rfl
@[simp] theorem heard_recr (s : State) : (heard s).recr = s.recr := rfl
@[simp] theorem svcReply_recr (s : State) (seq cmd : Nat) (bs : List Byte) : (svcReply s seq cmd bs).recr = s.recr := rfl
@[simp] theorem heard_start (s : State) : (heard s).start = s.start := rfl
@[simp] theorem svcReply_start (s : State) (seq cmd : Nat) (bs : List Byte) : (svcReply s seq cmd bs).start = s.start := rfl
@[simp] theorem heard_prf (s : State) : (heard s).prf = s.prf := rfl
@[simp] theorem svcReply_prf (s : State) (seq cmd : Nat) (bs : List Byte) : (svcReply s seq cmd bs).prf = s.prf := rfl
@[simp] theorem heard_plt (s : State) : (heard s).plt = s.plt := rfl
@[simp] theorem svcReply_plt (s : State) (seq cmd : Nat) (bs : List Byte) : (svcReply s seq cmd bs).plt = s.plt := rfl
@[simp] theorem heard_adm (s : State) : (heard s).adm = s.adm := rfl
@[simp] theorem svcReply_adm (s : State) (seq cmd : Nat) (bs : List Byte) : (svcReply s seq cmd bs).adm = s.adm := rfl
@[simp] theorem heard_eng (s : State) : (heard s).eng = s.eng := rfl
@[simp] theorem svcReply_eng (s : State) (seq cmd : Nat) (bs : List Byte) : (svcReply s seq cmd bs).eng = s.eng := rfl
@[simp] theorem heard_spn (s : State) : (heard s).spn = s.spn := rfl
@[simp] theorem svcReply_spn (s : State) (seq cmd : Nat) (bs : List Byte) : (svcReply s seq cmd bs).spn = s.spn := rfl
@[simp] theorem heard_isl (s : State) : (heard s).isl = s.isl := rfl
@[simp] theorem svcReply_isl (s : State) (seq cmd : Nat) (bs : List Byte) : (svcReply s seq cmd bs).isl = s.isl := rfl
@[simp] theorem heard_fe (s : State) : (heard s).fe = s.fe := rfl
@[simp] theorem svcReply_fe (s : State) (seq cmd : Nat) (bs : List Byte) : (svcReply s seq cmd bs).fe = s.fe := rfl
@[simp] theorem heard_sw (s : State) : (heard s).sw = s.sw := rfl
@[simp] theorem svcReply_sw (s : State) (seq cmd : Nat) (bs : List Byte) : (svcReply s seq cmd bs).sw = s.sw := rfl
@[simp] theorem heard_mns (s : State) : (heard s).mns = s.mns := rfl
@[simp] theorem svcReply_mns (s : State) (seq cmd : Nat) (bs : List Byte) : (svcReply s seq cmd bs).mns = s.mns := rfl
@[simp] theorem heard_stb (s : State) : (heard s).stb = s.stb := rfl
@[simp] theorem svcReply_stb (s : State) (seq cmd : Nat) (bs : List Byte) : (svcReply s seq cmd bs).stb = s.stb := rfl
@[simp] theorem heard_fan (s : State) : (heard s).fan = s.fan := rfl
@[simp] theorem svcReply_fan (s : State) (seq cmd : Nat) (bs : List Byte) : (svcReply s seq cmd bs).fan = s.fan := rfl
@[simp] theorem heard_mot (s : State) : (heard s).mot = s.mot := rfl
@[simp] theorem svcReply_mot (s : State) (seq cmd : Nat) (bs : List Byte) : (svcReply s seq cmd bs).mot = s.mot := rfl
@[simp] theorem heard_gat (s : State) : (heard s).gat = s.gat := rfl
@[simp] theorem svcReply_gat (s : State) (seq cmd : Nat) (bs : List Byte) : (svcReply s seq cmd bs).gat = s.gat := rfl
@[simp] theorem heard_htd (s : State) : (heard s).htd = s.htd := rfl
@[simp] theorem svcReply_htd (s : State) (seq cmd : Nat) (bs : List Byte) : (svcReply s seq cmd bs).htd = s.htd := rfl
@[simp] theorem heard_cal (s : State) : (heard s).cal = s.cal := rfl
@[simp] theorem svcReply_cal (s : State) (seq cmd : Nat) (bs : List Byte) : (svcReply s seq cmd bs).cal = s.cal := rfl
@[simp] theorem heard_can (s : State) : (heard s).can = s.can := rfl
@[simp] theorem svcReply_can (s : State) (seq cmd : Nat) (bs : List Byte) : (svcReply s seq cmd bs).can = s.can := rfl
@[simp] theorem heard_syn (s : State) : (heard s).syn = s.syn := rfl
@[simp] theorem svcReply_syn (s : State) (seq cmd : Nat) (bs : List Byte) : (svcReply s seq cmd bs).syn = s.syn := rfl
@[simp] theorem heard_pending (s : State) : (heard s).pending = s.pending := rfl
@[simp] theorem svcReply_pending (s : State) (seq cmd : Nat) (bs : List Byte) : (svcReply s seq cmd bs).pending = s.pending := rfl
@[simp] theorem svcReply_reply (s : State) (seq cmd : Nat) (bs : List Byte) :
    (svcReply s seq cmd bs).svc.reply = ⟨seq % 256, cmd % 256, bs⟩ := rfl

end Sys2Proof.Machine
end

