-- ==== Sys2Proof/Tests/Slice0.lean ====
section
/-! SUPPORT. The model's own tests: the worked examples of the manual and published vectors, one step or one computation each;
one ill-formed command for each check of WellFormed; and for every statement with premises, in each of its clauses, a concrete
state and operands that meet them all. -/

namespace Sys2Proof.Machine

set_option Elab.async false

open Sys2Proof

/-- The machine right after reset. -/
def w0 : State := State.reset
/-- The chip reset held by RESET_N. -/
def wHeld : State := { w0 with rst := { w0.rst with held := true, holders := [0] } }
/-- The start sequence at a step. -/
def wStep (n : Nat) : State := { w0 with start := { w0.start with step := n } }
/-- A heat output shorted at once. -/
def wShort : State := { w0 with now := 1000000, pwr := { w0.pwr with shorts := [(225, 0)] } }
/-- Moored at step 6. -/
def wMoored : State := { w0 with start := { w0.start with state := .moored, step := 6 } }
/-- One motor, fan, gate, heat channel and section, with what they need. -/
def wMotor : MotorCfg := ⟨0, 0, 255, 0, 0, 10, 5, 255, 0xFFF, 0, 0, 0, 0, 0xFFF, 0⟩
def wSect : SectCfg := ⟨0, 1, 1, 2, 3, 0, 0⟩
/-- A schedule entry that every local midnight matches. -/
def wSched : SchedCfg := ⟨1, 0xFFF, 0, 127, 0, 0, false⟩
def wDip : DipCfg := ⟨0, 0xFFFF, 4⟩
def wStarts : StartsCfg := ⟨80, 2, 1, 30, 0x3F80000000#40⟩
def wPlate : Plate := { motors := [wMotor], sects := [wSect], starts := [wStarts], dips := [wDip] }
/-- The plant armed, every island configured. -/
def wArm (p : Plate) (us : Nat) : State :=
  { w0 with
    now := us
    start := { w0.start with state := .armed, step := 12, step10 := true, step11 := true }
    plt := { w0.plt with plate := p, admitted := true }
    isl := { w0.isl with isls := List.replicate 10 { st := 2 } }
    fe := { w0.fe with grid := true }
    pwr := { w0.pwr with gate := true, snsPin := 4095, snsCode := 4095, pccStored := true }
    recr := { w0.recr with located := true } }
/-- A session of a role. -/
def wSess (s : State) (role : Nat) : State := { s with svc := { s.svc with sess := some ⟨role, 0, s.now⟩ } }
def wOvr (s : State) (kind : Nat) (v : Int) : State := { s with svc := { s.svc with ovr := [⟨kind, 0, v⟩] } }
def wMot (s : State) (m : MotSt) : State := setMot s 0 m
def wAt (s : State) (step : Nat) : State :=
  { s with start := { s.start with state := .starting, step := step, step10 := false, step11 := false } }
/-- A store that owns bank 0. -/
def wTurn (q : Store) : State :=
  { w0 with
    nvm := { w0.nvm with cells := [(5, .clean 9#40), (1540, .clean 8#40)], bank0 := { hand := some q, erase := some { row := 3, owner := .image } } }
    spn := { w0.spn with arbs := tset {} w0.spn.arbs 8 { owner := some 200 } } }
def wWord : Store := { kind := .word, owner := .image, words := [(5, 7#40)] }
def wErase : Store := { kind := .erase, owner := .image, row := 3 }
/-- A recorder flush step during the early warning. -/
def wFlush (k : Nat) (on : Bool) : State :=
  { wArm wPlate 5000000 with pwr := { w0.pwr with pfw := on, flush := some k, gate := true, snsCode := 4095, snsPin := 4095, lastRetry := 0 } }
/-- A recorder flush waits for its words. -/
def wQueue : State :=
  { wArm wPlate 50000000 with pwr := { w0.pwr with gate := true, queue := [{ wWord with since := some 0 }] } }
/-- A four-word group. -/
def wFour : List Word := [1#40, 0#40, 3#40, 4#40]
/-- A fault source given. -/
def wUp (s : State) (n : Nat) (x : Src) : State := { s with flt := setSrc s.flt n x }
/-- The watchdog on. -/
def wDog (us : Nat) : State := { wArm wPlate us with flt := { w0.flt with wdogOn := true } }
/-- A record, and states with records to write. -/
def wRec : Record := { code := 0x2002, unit := 1, opSec := 0, pcc := 0 }
/-- One record in the buffer, a flush under way. -/
def wBuf (us : Nat) : State :=
  { wArm wPlate us with recr := { w0.recr with located := true, flushing := true, aheadChecked := true, buf := [wRec] } }
/-- The early warning. -/
def wWarn (s : State) : State := { s with pwr := { s.pwr with pfw := true } }
/-- A chunk with one record. -/
def wChunk : Chunk := { recs := [(0, 1048576, wRec)] }
/-- The front end with one value in a scan list, a pair and a switch. -/
def wScan : ScanCfg := ⟨0, 1, 0, 10, 0, false, 4, 15, 0, 0, 50, 1⟩
/-- Its value, a pair and a switch. -/
def wVal : ValCfg := ⟨4, 0, 0, 0, 0, 0, 0, 0, 1000⟩
def wPair : PairCfg := ⟨4, 5, 0, 0, 100⟩
def wSw : SwCfg := ⟨3, 4, true, 0, true, false, 0, 0, 0, 0⟩
def wFePlate : Plate := { scans := [wScan], vals := [wVal], sws := [wSw], rotateS := 600 }
/-- The front end in rotation. -/
def wFront (us : Nat) : State :=
  let z := wArm wFePlate us
  { z with fe := { z.fe with rotOn := true, slices := [{ st := 0, list := 0, calAt := some 5 }, { st := 2 }] ++ List.replicate 4 {} } }
/-- A sample of the value. -/
def wSample : Sample := ⟨4, 0, 0, 100, false, false, false, false, false, false, 7⟩
/-- A mains island, and the mains running. -/
def wIsl : IslandsCfg := ⟨false, 7, false, 60, 240445440, [], 0, 0, 0⟩
def wMns (us : Nat) : State :=
  let z := wArm { islands := [wIsl] } us
  { z with mns := { z.mns with run := true } }
/-- A fan, a gate, a heat output, a supervised value and a remote one. -/
def wFan : FanCfg := ⟨0, 1, false, 2, 0, 25000, 0xFFF, 0xFFF, 500, 0, 5000, 0, 0#40, 0#40⟩
def wGate : GateCfg := ⟨0, 4, 100, 0, 30000, 2000⟩
def wHeat : HeatCfg := ⟨0, 0, 0xFFF, 0, 0⟩
def wSup : SupCfg := ⟨300, 0, 1000, 50⟩
def wRem : RemoteCfg := ⟨3, 0, 0, 7, 0x20, false⟩
def wAir : Plate := { fans := [wFan], gates := [wGate], heats := [wHeat], sup := [wSup], motors := [wMotor] }
/-- A frame waits in a bus controller. -/
def wRx (us : Nat) (p : Plate) (f : CanFrame) : State :=
  let z := wArm p us
  { z with can := { ctl := [(0, { st := 2, cfg := some ⟨0, true, false, 3, 10, 500000, 800, 2000000, 700⟩, rx := [⟨f, false, 0, 0⟩] })] } }
/-- A frame of a class, source and object with eight bytes. -/
def wFrame (cls src obj : Nat) (data : List Byte) : CanFrame :=
  { id := synId cls 0 src obj, data := data ++ List.replicate (8 - data.length) 0#8 }
/-- A bus, its state when on, and a frame to load. -/
def wCan : CanCfg := ⟨0, true, false, 3, 10, 500000, 800, 2000000, 700⟩
/-- The plate with one bus in a given state. -/
def wBus (us : Nat) (p : Plate) (c : CanSt) : State := { wArm p us with can := { ctl := [(0, c)] } }
def wOn : CanSt := { st := 2, cfg := some wCan }
def wEnt : LoadEnt := { frame := wFrame 3 0 0x20 [] }
/-- A node of the bus. -/
def wNode : NodeCfg := ⟨0, 7, 1, 2, 3⟩
/-- A plate with a bus and its node. -/
def wNet : Plate := { sup := [wSup], nodes := [wNode], remotes := [wRem], heats := [wHeat], sects := [wSect], motors := [wMotor], vals := [wVal] }
/-- The node heard, in a given state. -/
def wSeen (us st : Nat) : State :=
  let z := wBus us wNet wOn
  { z with syn := { z.syn with nodes := [(nodeKey 0 7, { st := st, back := true })] } }
/-- A frame waits from the node. -/
def wHear (us : Nat) (f : CanFrame) : State :=
  let z := wRx us wNet f
  { z with syn := { z.syn with nodes := [(nodeKey 0 7, { st := 2 })] } }
/-- A frame of the host. -/
def wHost (obj : Nat) (data : List Byte) : CanFrame := wFrame 1 0xFE obj data
/-- The state once the host frame is taken off. -/
def wTook (s : State) : State := (hostRate (rxTake s (hostBus s))).2
/-- A heartbeat of the node. -/
def wBeat : CanFrame := { id := synId 2 0xFF 7 0, data := List.replicate 8 1#8 }
/-- The plate with a bus as given; PEX; integration; idle. -/
def wInteg (x : CanSt) : State := wBus 5000000 wNet x
def wPex : State := wInteg { wOn with pexWait := true }
def wInt1 : State := wInteg { wOn with st := 1 }
def wIdle : State := wInteg wOn
/-- A notice is waiting. -/
def wNote : State := let z := wSeen 9 2; { z with syn := { z.syn with notices := [(0, 5)] } }
/-- A nonce is held, and key cell (1, 0) is written. -/
def wNonce : List Byte := List.replicate 16 3#8
def wKeyed : State :=
  let z := wArm wPlate 5000000
  { z with
    svc := { z.svc with nonce := some wNonce }
    nvm := { z.nvm with cells := (List.range 7).map (fun w => (keyLoc 1 0 w, NvCell.clean 5#40)) } }
/-- The same after four failures at level 2. -/
def wFifth : State := { wKeyed with svc := { wKeyed.svc with authWords := [(0, some 4#40), (1, some 2#40)] } }
/-- Generation and tag that the engineer key gives for the nonce. -/
def wTag (s : State) : Nat × List Byte := (authTag s 1 wNonce).getD (9, [])
/-- The state that a command, and that a step, answers. -/
def after (c : Instr) (s : State) : State := match exec c s with | .next t => t | _ => s
def afterStep (s : State) : State := match step s with | .next t => t | _ => s
/-- The fatal latch is set. -/
def wFatal : State := { w0 with flt := { w0.flt with fatal := true, fatalSrc := 7, fatalParam := 9#40 } }
/-- The record buffer, the overrides and the forces are full. -/
def wFull : State :=
  { w0 with
    recr := { w0.recr with buf := List.replicate 256 wRec }
    svc := { w0.svc with ovr := List.replicate 64 ⟨0, 0, 0⟩, forces := List.range 64 }
    pending := [.pfwNFall, .vanaLow] }

/-! How a premise of the service port or of a bus is checked. -/

theorem taken_of {s : State} {seq cmd : Nat}
    (h : (svcHears s && !isRepeatReq s seq cmd && offered s cmd) = true) : Taken s seq cmd := by
  simp only [Bool.and_eq_true, Bool.not_eq_true'] at h
  exact ⟨h.1.1, h.1.2, h.2⟩

theorem crosses_of {s : State} {d : Nat} {c : Cross}
    (h : (c.num == 0 && c.left == 0 && !s.rst.held && linkExists d && !(getLink s d).dead && wordFits s d c) = true) :
    Crosses s d c := by
  simpa [Crosses, and_assoc] using h

theorem hasRole_of {s : State} {roles : List Nat} (h : (sessRole s).any (fun r => roles.contains r) = true) : HasRole s roles
  := by
  unfold HasRole
  cases e : sessRole s <;> simp_all

theorem writes_of {s : State} {seq mask addr : Nat}
    (h : (svcHears s && !isRepeatReq s seq 0x11 && offered s 0x11 && mask % 32 == 31 && s.svc.stage.isNone &&
      (writeRoles s addr).any (fun rs => (sessRole s).any (fun r => rs.contains r))) = true) : Writes s seq mask addr := by
  simp only [Bool.and_eq_true, beq_iff_eq] at h
  refine ⟨taken_of (by simp [h]), h.1.1.2, by simpa using h.1.2, ?_⟩
  cases e : writeRoles s addr with
  | none => simp [e] at h
  | some rs => exact ⟨rs, rfl, hasRole_of (by simpa [e] using h.2)⟩

theorem heard_of {s : State} {n : Nat} {p : CanFrame → Bool} {f : CanFrame}
    (h : (rxHead s n).any (fun e => e.frame == f && p f && screen s n f.id f.data.length == .take) = true) : Heard s n p f := by
  unfold Heard
  cases e : rxHead s n <;> simp_all

theorem all_of_option {α : Type} {o : Option α} {p : α → Prop} [DecidablePred p] (h : o.all (fun a => decide (p a)) = true) :
    ∀ a, o = some a → p a := by
  intro a e; subst e; simpa using h

theorem wTag_eq {s : State} (h : (authTag s 1 wNonce).isSome = true) :
    authTag s 1 wNonce = some ((wTag s).1, (wTag s).2) := by
  unfold wTag
  cases e : authTag s 1 wNonce <;> simp_all

theorem after_eq {c : Instr} {s : State} (h : (match exec c s with | .next _ => true | _ => false) = true) :
    exec c s = .next (after c s) := by
  unfold after
  split <;> simp_all

theorem afterStep_eq {s : State} (h : (match step s with | .next _ => true | _ => false) = true) :
    step s = .next (afterStep s) := by
  unfold afterStep
  split <;> simp_all


theorem wTag_ne {s : State} : ∀ x, authTag s 1 wNonce = some x → (0#8 :: (wTag s).2) ≠ x.2 := by
  intro x e
  have h : wTag s = x := by simp [wTag, e]
  rw [h]; exact List.cons_ne_self _ _

/-! The manual's worked examples. Each expected value is the manual's own. -/

/-- "Balls, signals and straps": MOT9_RUN is ball AA7; GATE10_OPN N19 and GATE11_CLS N22 belong to the gates. -/
theorem test_ball_of_motor_9 : odBall 19 7 = some (0x0E, false) := by decide
theorem test_balls_of_gates_10_and_11 : odBall 12 19 = some (0x0F, false) ∧ odBall 12 22 = some (0x0F, false) := by decide

/-- The straps of the example in "Balls, signals and straps". -/
def exStraps : List Bool := [true, true, true, false, true, false, false, false, true, false, false]
def exStrapped : State := after (.chipResetRelease 0 exStraps exStraps true) (after .resetNAssert w0)
/-- SYS_STRAPS and SYS_STRAPS_NOW of the strapping example, read three words on as in "Register index". -/
theorem test_straps_example :
    regRead exStrapped 0x01000 = 0x005F000117#40 ∧ regRead exStrapped 0x01001 = 0x0000000117#40 ∧
      regRead exStrapped 0x01002 = 0#40 := by decide +kernel

/-- The plate port of the strapping example reads with command 0x6B, and its fan pins stand low. -/
theorem test_straps_example_drives :
    (pltAccess exStrapped.straps).readCmd = 0x6B ∧ ballLevel exStrapped (.fanPwm 17) = some false := by decide +kernel

/-- "Spine and arbiters", steps 1 and 3: M5 starts with M12 decided; M2, loaded meanwhile, is decided as M12 starts. -/
def exBox (s : State) (m id : Nat) : State :=
  setCan s 0 { getCan s 0 with mbs := tset none (getCan s 0).mbs m (some { frame := { id := id, data := [] } }) }
def exBoxes : State :=
  setArb (exBox (exBox (exBox (wBus 5000000 wNet wOn) 5 0x0FF80011) 12 0x0FF80012) 29 0x17F80020) 18 { next := some 5 }
def exM5 : State := after (.arbTurnStart 18) exBoxes
def exM12 : State := after (.arbTurnStart 18) (after (.frameTransmitted 0 0) (exBox exM5 2 0x03FC0004))
theorem test_decisions_one_ahead :
    [exM5, exM12].map (fun s => ((getArb s 18).owner, (getArb s 18).next, (getArb s 18).fgRun)) =
      [(some 5, some 12, 1), (some 12, some 2, 2)] := by decide +kernel

/-- "Islands": the crystal cracks while CAN0 takes part in the bus; TXD goes recessive and STB high. -/
def exOnBus : State := wBus 5000000 wNet wOn
theorem test_crystal_stop_frees_the_bus :
    (ballDrive exOnBus (.canTxd 0), ballLevel exOnBus (.canStb 0)) = (.serial, some false) ∧
      (ballLevel (after .xt40Stop exOnBus) (.canTxd 0), ballLevel (after .xt40Stop exOnBus) (.canStb 0)) =
        (some true, some true) := by decide +kernel

/-- "Supplies": 24 V on the 10 mF bank of HU_CLASS 1 is 1.980 J; at 24 V the divider shows 1.5 V of 2.5 V, code 2457. -/
theorem test_energy_at_24_V : energyOf exStrapped 2457 = 1980000 := by decide +kernel

/-- "Tiles and numbers": the three results. -/
theorem test_product_rounds_to_even : qMul 0x00003 0x80000 = ⟨2, false⟩ := by decide +kernel
theorem test_product_saturates : qMul (1200 * 1048576) (600 * 1048576) = ⟨0x7FFFFFFFFF, true⟩ := by decide +kernel
theorem test_largest_value_in_F40 : qToF 0x7FFFFFFFFF = ⟨0x4900000000#40, false⟩ ∧
    fToQ 0x4900000000#40 = ⟨0x7FFFFFFFFF, true⟩ := by decide +kernel

/-- "Event recorder": the ring of the example, sectors 1283 to 1412 without the ahead row 112 (row 144 of the bank),
  slots 0 to 38 of
the present sector written and the etched area full. -/
def exRing : Nvm :=
  { w0.nvm with
    cells := ((List.range 130).filterMap (fun r =>
      let q := if r ≤ 111 then 1301 + r else 1171 + r
      if r == 112 then none else some (locOf 2 (32 + r) 0, NvCell.clean (packW [(39, 8, q), (0, 0, b2n (q == 1390))])))) ++
      (List.range 195).map (fun k => (locOf 2 143 (1 + k), NvCell.clean 1#40)) ++ [(locOf 2 31 319, NvCell.clean 1#40)] }
theorem test_recorder_is_located : let r := locateRecr exRing {}
    r.seq = 1412 ∧ 32 + r.row = 143 ∧ r.slot = 39 ∧ nextLoc r = 92391 ∧ r.oldest = 90944 := by decide +kernel

/-- "Start sequence": the four images of the update, each with the stepping's name in its list. -/
def exImages : List ImgRes :=
  let st := pw Config.stepping.toNat
  [{ valid := true, version := 0x3020075, list := [st, 0x8003020028#40, 0x8003020029#40] },
   { valid := true, version := 0x3020028, list := [st, 0x8003020075#40] },
   { valid := true, version := 0x3020075, list := [st, 0x8003020028#40, 0x8003020029#40] },
   { valid := true, version := 0x3030005, list := [st, 0x8003030002#40] }]
theorem test_why_of_pair_B : pairWhy (exImages.map (fun x => { x with list := x.list.drop 1 })) 1 / 8 = 1 := by decide +kernel

/-- "Plate": the bench plate. Its words 64 to 83 as the manual lists them; CRCs and tag are computed from them. -/
def exBody : List Word :=
  [0x0101000001#40, 0x000001012C#40, 0x0203000001#40, 0x0000500100#40, 0x00014FF000#40, 0x0000000000#40, 0x0104000001#40,
   0x0000020000#40, 0x0000000000#40, 0x000FA00000#40, 0x00003E8FFF#40, 0x0200000001#40, 0xFFFF010003#40, 0xC27A000000#40,
   0x431C400000#40, 0x0404000001#40, 0x0000A00000#40, 0x0005A00000#40, 0x0005500000#40, 0x01388007D0#40]
def exHead : List Word :=
  [0x014C505747#40, 0x400010005B#40, 0x00002A0003#40] ++ List.replicate 7 0#40 ++ [0x0003020075#40] ++ List.replicate 15 0#40 ++
  [0x0004000000#40, 0#40, 0x0004000000#40, 0#40, 0x0004000006#40, pw (crc32 (wordsBytes (exBody.take 6))), 0x000460000E#40,
   pw (crc32 (wordsBytes (exBody.drop 6)))] ++
  (List.replicate 9 [0x0005400000#40, 0#40]).flatten ++ List.replicate 12 0#40
def exPlate : List Word := exHead ++ exBody
theorem test_bench_plate_is_91_words : exPlate.length + 7 = 91 ∧ plateLen exPlate = 91 := by decide +kernel
theorem test_bench_plate_decodes :
    (decodePlate exPlate).scans = [⟨0, 1, 0, 5, 0, false, 0, 15, 15, 20, 0, 0⟩] ∧
    (decodePlate exPlate).vals = [⟨0, 0, 2, 0, 0, 0, 250 * 1048576, 4095, 1000⟩] ∧
    (decodePlate exPlate).sws = [⟨0, 0, false, 1, true, false, 90 * 1048576, 85 * 1048576, 2000, 5000⟩] ∧
    (decodePlate exPlate).rotateS = 300 := by decide +kernel

/-- "Admission": the plate of the example: four tasks, fourteen scan entries, one bus, three chains. -/
def exInst (type n : Nat) (ins : List Nat) (outs : List (Nat × Nat)) : InstCfg :=
  ⟨type, n, 0, ins, outs.map (fun o => ⟨o.1, o.2⟩), []⟩
def exMotor (ch nom : Nat) : MotorCfg := ⟨ch, 0, 255, 0, 0, 10, 5, 255, 0xFFF, 0, nom, 0, 0, 0xFFF, 0⟩
def exTemps : List Nat := 1 :: rangeFrom 20 11
def exAdmit : Plate :=
  { insts := [exInst 0x14 0 [1, 2] [(0, 4)], exInst 0x05 1 [1] [(100, 0)], exInst 0x11 2 [3] [(101, 0)],
      exInst 0x0E 3 [101] [(102, 0)], exInst 0x08 4 [102, 4, 5] [(3, 2)],
      exInst 0x42 5 [30, 31, 32, 33, 34, 35, 36] [(110, 0), (111, 0), (112, 0)],
      exInst 0x43 6 [30, 37] [(113, 0), (114, 0), (115, 0)]] ++
      (rangeFrom 0 4).map (fun k => exInst 0x16 (7 + k) [40 + k] [(120 + k, 0)])
    tasks := [⟨1, 0, 127, [0, 1]⟩, ⟨2, 1, 127, [2, 3, 4]⟩, ⟨3, 5, 127, [5, 6]⟩, ⟨4, 10, 127, [7, 8, 9, 10]⟩]
    scans := [⟨0, 1, 0, 2, 0, false, 10, 15, 15, 10, 0, 0⟩, ⟨0, 1, 0, 2, 0, false, 11, 15, 15, 10, 0, 0⟩] ++
      exTemps.map (fun v => ⟨0, 1, 0, 5, 0, false, v, 15, 15, 2, 0, 0⟩)
    vals := [⟨10, 0, 0, 0, 0, 0, 0, 0, 2000⟩, ⟨11, 0, 0, 0, 0, 0, 0, 0, 2000⟩] ++
      exTemps.map (fun v => ⟨v, 0, 0, 0, 0, 0, 0, 0, 1000⟩)
    pairs := [⟨10, 11, 0, 0, 0⟩]
    heats := [⟨0, 0, 1, 0, 0⟩]
    motors := [exMotor 3 0, exMotor 4 40]
    cans := [⟨1, true, false, 3, 10, 500000, 800, 2000000, 700⟩]
    sup := [⟨0, 0, 1000, 20⟩]
    nodes := (rangeFrom 1 18).map (fun n => ⟨1, n, 2, 0, 0⟩)
    remotes := (rangeFrom 0 144).map (fun k => ⟨4, 200 + k, 1, 1 + k / 8, 0x20 + k % 8, false⟩) ++
      (rangeFrom 0 18).map (fun k => ⟨0, 100 + k, 1, 1 + k, 0x40, false⟩)
    chains := [⟨1, 500, 0, 1, [], 3, 0⟩, ⟨2, 500, 0, 1, [1], 3, 0⟩, ⟨3, 1000, 4, 4, [2], 1, 3⟩] }
/-- Costs in half µs, state words and memory of the four tasks. -/
theorem test_admission_costs :
    exAdmit.tasks.map (fun t => (taskCost exAdmit t, taskState exAdmit t, taskMem exAdmit t)) =
      [(192, 12, 24), (121, 3, 19), (9104, 1280, 1312), (188, 16, 36)] := by decide +kernel
/-- Placement order; memory of tile 0 with the four tasks; the phases of tasks 2 and 4 once the tasks before them are placed. -/
def exPlaces : List Place := [⟨3, 0, 0, 20, 9104, 1312⟩, ⟨1, 0, 0, 1, 192, 24⟩, ⟨2, 0, 1, 2, 121, 19⟩, ⟨4, 0, 2, 1200, 188, 36⟩]
theorem test_admission_order :
    (placeOrder exAdmit).map (fun t => (t.task, taskK t)) = exPlaces.map (fun q => (q.task, q.k)) ∧
      memAt exPlaces 0 = 1455 := by
  decide +kernel
theorem test_admission_phase_of_task_2 : (bestPhase (exPlaces.take 2) 0 2 121).1 = 1 := by decide +kernel
theorem test_admission_phase_of_task_4 :
    (List.range 3).map (fun phi => peakAt (exPlaces.take 3) 0 1200 phi 188) = [9524, 541, 420] := by decide +kernel

/-- Cycles of the five scan lists in µs, and the bus at 42 ‰ before telemetry. -/
theorem test_admission_scan_lists :
    (scanLists exAdmit 5).map (cycleUs exAdmit) = [110000, 110000, 88000, 88000, 88000] := by decide +kernel
theorem test_admission_bus : exAdmit.cans.map (busPm exAdmit) = [42] := by decide +kernel
/-- The three bounds in µs, and the worst chain with its margin. -/
theorem test_admission_bounds :
    exAdmit.chains.map (chainUs exAdmit (scanLists exAdmit 5)) = [114011, 264011, 850011] ∧
      worstChain exAdmit (scanLists exAdmit 5) = (3, 149) := by decide +kernel

/-- "Samples to values": set 3 at x = 0.4375 and t = 18.0 gives 15.736328125. -/
def exCoefs : CoefCfg :=
  ⟨3, 2, 1, 0xFFFF, [0xC080000000#40, 0x3E00000000#40, 0x4220000000#40, 0xBF00000000#40, 0x4180000000#40, 0x3E80000000#40]⟩
theorem test_linearisation :
    (let y := linearise exCoefs (fRound (signalX { wScan with cap := true } none 3670016)).word (qToF (18 * 1048576)).word
     (fToQ y.1, y.2)) = (⟨0xFBC800, false⟩, []) := by decide +kernel

/-- "Mains and starts": the learned dips 18.375 V, 8.75 V and 22.4 V (to the rounding of the value format). -/
theorem test_learned_dips :
    newDip 0x3E80000000#40 (18 * 1048576) (39 * 524288) = 147 * 131072 ∧ newDip 0x3E80000000#40 (9 * 1048576) (8 * 1048576) =
      35 * 262144 := by decide +kernel

/-- "Fans": the loop holds its integrator through a sensor fault and resumes; H of 1 600 is 640, 1 600 and 656. -/
def exFan : FanCfg :=
  { wFan with mode := 2, setpoint := 30 * 1048576, kp := (fRound ⟨5, 1⟩).word, ti := (fRound ⟨600, 1⟩).word,
              stall := 300 * 1048576, ppr := 2 }
def exLoop1 : LoopRes := fanLoop exFan (fRound ⟨20, 1⟩).word ⟨34 * 1048576, .good⟩ true
def exLoop2 : LoopRes := fanLoop exFan exLoop1.i ⟨120 * 1048576, .subst⟩ true
def exLoop3 : LoopRes := fanLoop exFan exLoop2.i ⟨342 * 1048576 / 10, .good⟩ true
theorem test_fan_loop :
    [exLoop1, exLoop2, exLoop3].map (fun l => divRoundEven (1600 * l.duty) (100 * 1048576)) = [640, 1600, 656] ∧
      exLoop2.i = exLoop1.i ∧ speedWindow exFan = 200000 := by decide +kernel

/-- "Common blocks": u of the five runs of the PID, in millionths and rounded down. -/
def exPid (st : BSt) (pv : Int) (man : Bool) : BRes :=
  runPid ⟨[(fRound ⟨2, 1⟩).word, (fRound ⟨300, 1⟩).word, 0#40, 0#40, qWord (100 * 1048576), 0#40], st, [0], 1000, 0, 0, false,
      none, none, []⟩
    [some ⟨pv * 1048576, .good⟩, some ⟨82 * 1048576, .good⟩, some ⟨35 * 1048576, .good⟩, some ⟨qBool man, .good⟩]
def exRun1 : BRes := exPid .fresh 80 true
def exRun2 : BRes := exPid exRun1.st 80 false
def exRun3 : BRes := exPid exRun2.st 60 false
def exRun4 : BRes := exPid exRun3.st 20 false
def exRun5 : BRes := exPid exRun4.st 84 false
theorem test_pid_runs :
    [exRun1, exRun2, exRun3, exRun4,
      exRun5].map (fun r => r.outs.map (fun o => o.map (fun b => (b.v * 1000 + 524288) / 1048576)))
      = [[some 35000], [some 35013], [some 75160], [some 100000], [some 27147]] := by decide +kernel

/-- "Calendar": 2100-02-28 18:30 UTC packs to 0x20D0B_92780; local time at +60 min is a Sunday,
  19:30; 2100-02-29 does not exist. -/
theorem test_calendar_word :
    datePack (dateOf (secsOf 2100 2 28 18 30 0)) = 0x20D0B92780#40 ∧ dateExists 0x20D0B92780#40 = true ∧
      dateExists 0x20D0BB2780#40 = false := by decide +kernel
theorem test_calendar_local_day :
    (let d := dateOf (localSecs (dateSecs 0x20D0B92780#40) 4).toNat; (d.wday, d.hour, d.minute)) = (7, 19,
      30) := by decide +kernel

/-- "Syntagel": identifiers of a heartbeat, an identity frame and a value. -/
theorem test_identifiers :
    synId 2 0xFF 0x12 0 = 0x0BFC4800 ∧ synId 4 0 0x12 0x102 = 0x10004902 ∧ synId 3 0 0x12 0x21 = 0x0C004821 := by decide

/-- "Service port": the WRITE of FAN_FIX5 inside a LOCKS range answers LOCKED, with LOCK_WRITE recorded. -/
def exLocked : State := let z := wSess (wArm wPlate 5000000) 1; { z with plt := { z.plt with locks := [(0x0C300, 16)] } }
theorem test_locked_write :
    ((after (.fanFixWrite 7 5 31 [750#40]) exLocked).svc.reply.bytes,
      (after (.fanFixWrite 7 5 31 [750#40]) exLocked).recr.buf.map (fun r => (r.code, r.a, r.b))) =
      ([0x10#8, 0#8, 0#8], [(0x3006, 0x0C305#40, 0x2EE#40)]) := by decide +kernel
/-- Lock before width. -/
theorem test_lock_before_width : (after (.fanFixWrite 8 5 1 [0xEE#40]) exLocked).svc.reply.bytes = [0x10#8, 0#8, 0#8] := by
  decide +kernel
/-- CAL_SET1 first is misaligned; a READ of CAL_NOW0 breaks the staged group. -/
theorem test_group_misaligned : (after (.calSet1Commit 9 31 4#40) exLocked).svc.reply.bytes = [0x14#8, 0#8, 0#8] :=
  by decide +kernel
theorem test_group_broken :
    ((after (.calNow0Read 11 1) (after (.calSet0Write 10 31 [0x20D0B92780#40]) exLocked)).svc.reply.bytes.head?) =
      some 0x13#8 := by decide +kernel
/-- Both words at once commit. -/
theorem test_group_commits :
    (let t := after (.calSet0Write 12 31 [0x20D0B92780#40, 4#40]) exLocked
     (t.svc.reply.bytes, calNow0 t.cal)) = ([0#8, 2#8, 0#8], 0xA0D0B92780#40) := by decide +kernel
/-- The stored site identity again answers OK_SAME; another one WRITTEN_ONCE after three staged words. -/
def exSite : State :=
  { exLocked with nvm := { exLocked.nvm with cells := (List.range 4).map (fun k => (siteLoc k, NvCell.clean (pw (k + 1)))) } }
theorem test_site_written_again :
    (after (.svcSiteWrite 13 0 31 [1#40, 2#40, 3#40, 4#40]) exSite).svc.reply.bytes = [1#8, 4#8, 0#8] ∧
      (after (.svcSiteWrite 14 0 31 [1#40, 2#40, 3#40, 5#40]) exSite).svc.reply.bytes = [0x11#8, 3#8, 0#8] := by decide +kernel

/-- "Fault collection", steps 1 to 4: a raise, its repeat once the cause was gone,
  and a Degraded raise beside an unacknowledged Degraded source. -/
def exRaised : State := after (.faultRaise 0x28 212#40 10) (wArm wPlate 0)
theorem test_repeat_of_sensor_open :
    (let x := getSrc (after (.faultRaise 0x28 212#40 10) (after (.faultCauseGone 0x28) exRaised)).flt 0x28
     (x.eff, x.repeats, x.escalated)) =
      (.degraded, 1, false) := by decide +kernel
theorem test_second_degraded_escalates :
    (getSrc (after (.faultRaise 0x39 5#40 13) exRaised).flt 0x39).eff = .severe := by decide +kernel

/-- "Proof and spares": with tiles 17 and 40 retired, logical tile 17 is physical 18 and 39 is 41; a failure of logical 12 is
loaded on physical 66. -/
def exTiles : State :=
  let z := wArm wPlate 50000
  assignTiles { z with
    prf := { z.prf with done := true, tiles := [(17, { st := 2 }), (40, { st := 2 })] }
    eng := { z.eng with frames := 403, framesOn := true, lastTick := 48000 } }
theorem test_tiles_are_assigned :
    (getTile exTiles 18).logical = 17 ∧ (getTile exTiles 41).logical = 39 ∧ sparesLeft exTiles = [66, 67, 68, 69, 70, 71] := by
  decide +kernel
theorem test_migration_chooses_66 : (after (.runtimeCheckFail 12 false) exTiles).prf.loads = [⟨12, 12, 66, 403⟩] :=
  by decide +kernel
theorem test_migration_parameter :
    (getSrc (after .migrationLoadEnd (after (.runtimeCheckFail 12 false) exTiles)).flt 0x17).param = 0x0000420C0C#40 := by
  decide +kernel

/-- "Front end", steps 2 and 4: the aborted conversion gives a dead turn, and then V41 starts with V42 chosen. -/
def exFront : State :=
  let z := wArm { rotateS := 600, scans := [⟨0, 1, 0, 2, 0, true, 40, 15, 15, 5, 3000, 1⟩,
    ⟨2, 3, 0, 5, 0, false, 41, 15, 15, 2, 0, 0⟩, ⟨4, 5, 0, 5, 0, false, 42, 15, 15, 2, 0, 0⟩] } 1060250
  { z with
    spn := { z.spn with arbs := [] }
    adm := { z.adm with lists := [[], [], [40, 41, 42], [], []] }
    fe := { z.fe with
      gridAt := 1000000
      trig := [true] ++ List.replicate 6 false
      slices := (List.range 5).map (fun l => { st := 0, list := l }) ++ [{ st := 1 }]
      lists := [(2, { cur := some 40, lastTurn := 421, aborted := true, next := some 41, pos := 40 })] } }
theorem test_aborted_conversion_gives_a_dead_turn :
    (let q := getList (after (.sliceTurnBoundary 2 {} {} false 0 0 0) exFront) 2; (q.cur, q.dead, q.next)) =
      (none, true, some 41) := by decide +kernel
theorem test_next_entry_starts :
    (let q := getList (after (.sliceTurnBoundary 2 {} {} false 0 0 0)
        { after (.sliceTurnBoundary 2 {} {} false 0 0 0) exFront with now := 1060500 }) 2
     (q.cur, q.next)) = (some 41, some 42) := by decide +kernel

/-- R574: half the reference gives 2²² = 4 194 304 at gain 1, and is clipped to 8 388 607 at gain 2. -/
theorem test_code_of_half_the_reference :
    codeOf (wFront 9) wScan 0 { mid := 1250000000 } 0 = (4194304, false) ∧
      codeOf { wFront 9 with fe := { (wFront 9).fe with slices := [{ pga := 1 }] } } wScan 0 { mid := 1250000000 } 0 =
        (8388607, true) := by decide +kernel

/-! Published test vectors. -/

/-- CRC-32 of the ASCII digits 1 to 9 (the check value of the polynomial that R506 names). -/
theorem test_crc32_check_value :
    crc32 [0x31#8, 0x32#8, 0x33#8, 0x34#8, 0x35#8, 0x36#8, 0x37#8, 0x38#8, 0x39#8] = 0xCBF43926 := by decide +kernel
/-- SHA-256 of "abc" (FIPS 180-4). -/
theorem test_sha256_abc :
    beNat (sha256 [0x61#8, 0x62#8, 0x63#8]) = 0xBA7816BF8F01CFEA414140DE5DAE2223B00361A396177A9CB410FF61F20015AD := by
  decide +kernel

/-! Queue and dispatch. -/

/-- The step takes the front command and leaves the rest waiting. -/
theorem test_step_takes_the_front :
    (afterStep { w0 with pending := [.vanaLow, .pfwNFall] }).pending = [.pfwNFall] := by decide +kernel
/-- A microsecond passes on an empty queue. -/
theorem test_step_on_an_empty_queue : (afterStep w0).now = 1 := by decide +kernel
/-- A word spells no command: the table gives its rows no bits. -/
theorem test_no_word_spells_a_command : decodeTableWord 8 0 = none := by decide

/-! Well-formed commands: for each check a command that it refuses, beside one at the edge that it accepts. -/

/-- One ill-formed command for each check of WellFormed. -/
def illFormed : List Instr :=
  [.hello 256, .imageWriteBegin 1 2 false 0 [], .read 1 0 65536 false, .plateBegin 1 0 16777216, .baud 1 4294967296,
   .svcRecRead 1 1099511627776 0 1 0, .frameTransmitted 4 0, .wordStoreEnd 4 false, .toggleEvent 10 0 false, .nodeLost 0 0,
   .nodeLost 0 127, .modulatorStall 6, .sliceTurnBoundary 7 {} {} false 0 0 0, .excFault 8 0, .blankTriggerAssert 7,
     .blankLimit 4096,
   .holdupSense 4096, .taskEntry 64 0, .keeperTileReturn 3 true, .spareTileTestFail 72, .spineStall 0 5,
   .linkWordTransfer 0 [50] 64 ⟨65, 1, false⟩, .linkWordTransfer 0 [] 64 ⟨136, 1, false⟩, .identReq 0 127] ++
  [.faultCauseGone 0x60, .svcKeyWrite 1 0 0 7 31 [0#40], .arbCtlWrite 1 23 31 0#40,
   .frameReceived 0 536870912 true false false false false [], .plateData 1 0 (List.replicate 1021 0#8),
   .auth 1 0 (List.replicate 31 0#8), .svcRecClear 1 [], .frameReceived 0 0 true true false false false (List.replicate 65 0#8),
   .strapChangeCheck (List.replicate 10 false), .speedMonitorReading [], .junctionTempReading [0, 0, 0],
   .halfCycleRefresh [0], .mainsWindowEnd [0, 0, 0] 10 0 0 false, .valueForce 1 0 31 [],
     .imageWriteData 1 0 false 0 (List.replicate 204 0#40)]
theorem test_ill_formed_is_refused : illFormed.all (fun i => !WellFormed i) = true := by decide +kernel

def wellFormedEdge : List Instr :=
  [.hello 255, .imageWriteBegin 1 1 false 0 [], .read 1 0 65535 false, .plateBegin 1 0 16777215, .baud 1 4294967295,
   .svcRecRead 1 1099511627775 0 1 0, .frameTransmitted 3 0, .wordStoreEnd 3 false, .toggleEvent 9 0 false, .nodeLost 0 1,
   .nodeLost 0 126, .modulatorStall 5, .sliceTurnBoundary 6 {} {} false 0 0 0, .excFault 7 0, .blankTriggerAssert 6,
     .blankLimit 4095,
   .holdupSense 4095, .taskEntry 63 0, .keeperTileReturn 2 true, .spareTileTestFail 71, .spineStall 0 4,
   .linkWordTransfer 0 [49] 64 ⟨135, 1, false⟩, .linkWordTransfer 0 [] 64 ⟨65, 1, false⟩, .identReq 0 255] ++
  [.faultCauseGone 0x5F, .svcKeyWrite 1 0 0 6 31 [0#40], .arbCtlWrite 1 22 31 0#40,
   .frameReceived 0 536870911 true false false false false [], .plateData 1 0 (List.replicate 1020 0#8),
   .auth 1 0 (List.replicate 32 0#8), .svcRecClear 1 (List.replicate 4 0#8),
   .frameReceived 0 0 true true false false false (List.replicate 64 0#8), .strapChangeCheck (List.replicate 11 false),
   .speedMonitorReading (List.replicate 16 0), .junctionTempReading [0, 0, 0, 0], .halfCycleRefresh [0, 0, 0],
   .mainsWindowEnd [0, 0, 0, 0] 10 0 0 false,
   .valueForce 1 0 31 [0#40], .imageWriteData 1 0 false 0 (List.replicate 203 0#40)]
theorem test_well_formed_edge_is_accepted : wellFormedEdge.all WellFormed = true := by decide +kernel

/-! The premises of every statement can be met, clause by clause. -/

theorem test_hypotheses_SupplyMeasurementsAreTaken :
    (∃ s : State, s.rst.held = true) ∧
    (∃ s : State, keeperRuns s = true) ∧
    (∃ s : State, keeperRuns s = true ∧ (∀ at_, s.pwr.monAt = some at_ → at_ + 10000 ≤ s.now)) ∧
    (∃ s : State, ∃ at_, s.pwr.monAt = some at_ ∧ s.now < at_ + 10000) ∧
    (∃ s : State, keeperRuns s = true) ∧
    (∃ s : State, s.rst.held = false) :=
  ⟨⟨wHeld, by decide +kernel⟩,
   ⟨(wStep 6), by decide +kernel⟩,
   ⟨({ wStep 6 with now := 500 }), by decide +kernel, all_of_option (by decide +kernel)⟩,
   ⟨({ wStep 6 with now := 20000, pwr := { w0.pwr with monAt := some 15000 } }), 15000, by decide +kernel⟩,
   ⟨(wStep 6), by decide +kernel⟩,
   ⟨w0, by decide +kernel⟩⟩

theorem test_hypotheses_PowerFailWarningFollowsItsPins :
    (∃ s : State, s.rst.held = false ∧ s.pwr.pfw = false) ∧
    (∃ s : State, s.rst.held = false ∧ s.pwr.pfwMns = false ∧ s.pwr.pfw = true) ∧
    (∃ s : State, s.rst.held = true) :=
  ⟨⟨w0, by decide +kernel⟩,
   ⟨({ w0 with pwr := { w0.pwr with pfw := true, pfwPin := true } }), by decide +kernel⟩,
   ⟨wHeld, by decide +kernel⟩⟩

theorem test_hypotheses_OutputShortsAndPinTests :
    (∃ s : State, ∃ row col unit exempt, s.rst.held = false ∧ odBall row col = some (unit, exempt)) ∧
    (∃ s : State, ∃ row col unit exempt, s.rst.held = false ∧ odBall row col = some (unit, exempt)) ∧
    (∃ s : State, ∃ row col at_, s.pwr.shorts.find? (·.1 == row * 32 + col) = some (row * 32 + col, at_) ∧
      at_ + 1000000 ≤ s.now) ∧
    (∃ s : State, s.rst.held = false ∧ s.flt.fatal = false ∧ (s.start.state = .moored ∨ s.start.state = .bootService)) ∧
    (∃ s : State, ¬(s.rst.held = false ∧ s.flt.fatal = false ∧ (s.start.state = .moored ∨ s.start.state = .bootService))) ∧
    (∃ s : State, ∃ levels : List Bool, ∃ differs twice : Nat → Bool, s.rst.held = false ∧ s.straps.present.length = 11 ∧
      s.straps.diffs.length = 11 ∧ s.straps.recorded.length = 11 ∧ (∀ i,
      differs i = (!s.straps.isOpen.getD i false && levels.getD i false != s.straps.latched.getD i false)) ∧ (∀ i,
      twice i = (differs i && decide (1 ≤ s.straps.diffs.getD i 0)))) :=
  ⟨⟨w0, 7, 1, 0x0A, false, by decide +kernel⟩,
   ⟨w0, 11, 5, 2, true, by decide +kernel⟩,
   ⟨wShort, 7, 1, 0, by decide +kernel⟩,
   ⟨wMoored, by decide +kernel⟩,
   ⟨w0, by decide +kernel⟩,
   ⟨w0, [true], (fun i => !w0.straps.isOpen.getD i false && [true].getD i false != w0.straps.latched.getD i false),
     (fun i => (fun i => !w0.straps.isOpen.getD i false && [true].getD i false != w0.straps.latched.getD i false) i && decide
     (1 ≤ w0.straps.diffs.getD i 0)), by decide +kernel, by decide +kernel, by decide +kernel, by decide +kernel, fun _ => rfl,
     fun _ => rfl⟩⟩

theorem test_hypotheses_StartTimelineToProof :
    (∃ s : State, starting s = true ∧ s.start.step = 1) ∧
    (∃ s : State, s.rst.held = false ∧ s.flt.fatal = false ∧ s.start.state = .starting ∧ s.start.step = 2 ∧
      s.pwr.gate = false) ∧
    (∃ s : State, s.rst.held = false ∧ s.flt.fatal = false ∧ s.start.state = .starting ∧ s.start.step = 2 ∧
      s.pwr.gate = false) ∧
    (∃ s : State, s.rst.held = false ∧ s.flt.fatal = false ∧ s.start.state = .starting ∧ s.start.step = 2 ∧
      s.pwr.gate = false) ∧
    (∃ s : State, starting s = true ∧ s.start.step = 4 ∧ s.pwr.pccStored = true) ∧
    (∃ s : State, starting s = true ∧ s.start.step = 4 ∧ s.pwr.pccStored = true) ∧
    (∃ s : State, starting s = true ∧ s.start.step = 4 ∧ s.pwr.pccStored = true) :=
  ⟨⟨w0, by decide +kernel⟩,
   ⟨(wStep 2), by decide +kernel⟩,
   ⟨(wStep 2), by decide +kernel⟩,
   ⟨({ wStep 2 with straps := { w0.straps with isOpen := List.replicate 11 true } }), by decide +kernel⟩,
   ⟨({ wStep 4 with pwr := { w0.pwr with pccStored := true } }), by decide +kernel⟩,
   ⟨({ wStep 4 with pwr := { w0.pwr with pccStored := true } }), by decide +kernel⟩,
   ⟨({ wStep 4 with pwr := { w0.pwr with pccStored := true }, straps := { w0.straps with latched := List.replicate 11 true } }), by decide +kernel⟩⟩

theorem test_hypotheses_StartTimelineToArmed :
    (∃ s : State, s.rst.held = false ∧ s.flt.fatal = false ∧ (s.start.state = .starting ∨ s.start.state = .moored) ∧
      s.start.step = 5 ∧ s.prf.done = true) ∧
    (∃ s : State, starting s = true ∧ testmode s = false ∧ keeperRuns s = true ∧ s.start.step ≤ 8 ∧ s.plt.cand = none ∧
      s.plt.admitted = false) ∧
    (∃ s : State, ∃ p, starting s = true ∧ s.start.step = 7 ∧ s.plt.cand = some p) ∧
    (∃ s : State, ∃ p, starting s = true ∧ s.start.step = 7 ∧ s.plt.cand = some p) ∧
    (∃ s : State, ∃ p, starting s = true ∧ s.start.step = 8 ∧ s.plt.admitted = true ∧ s.plt.cand = some p ∧
      s.adm.rerun = true ∧ s.adm.reran = false) ∧
    (∃ s : State, starting s = true ∧ s.start.step = 8 ∧ s.plt.admitted = true ∧ (s.adm.rerun = true → s.adm.reran = true)) ∧
    (∃ s : State, starting s = true ∧ 10 ≤ s.start.step ∧ s.start.step10 = false ∧
      (listsDelivered s = true ∨ s.start.step9At + 1000000 ≤ s.now)) ∧
    (∃ s : State, starting s = true ∧ 10 ≤ s.start.step ∧ s.start.step11 = false ∧
      (nodesSilent s = [] ∨ s.start.step9At + 5000000 ≤ s.now)) ∧
    (∃ s : State, starting s = true ∧ 10 ≤ s.start.step ∧ s.start.step10 = true ∧ s.start.step11 = true) ∧
    (∃ s : State, ∃ n c, sectCfg s n = some c ∧ isArmed s = true ∧ c.auto = 1 ∧ (getSect s n).fired = false ∧
      s.start.armedAt + c.delayS * 1000000 ≤ s.now) ∧
    (∃ s : State, keeperWrites s = true ∧ s.start.lastKeeperWrite + 1000000 ≤ s.now) :=
  ⟨⟨({ wStep 5 with prf := { w0.prf with done := true } }), by decide +kernel⟩,
   ⟨(wStep 6), by decide +kernel⟩,
   ⟨({ wStep 7 with plt := { w0.plt with cand := some {} } }), {}, by decide +kernel⟩,
   ⟨({ wStep 7 with plt := { w0.plt with cand := some wPlate } }), wPlate, by decide +kernel⟩,
   ⟨({ wStep 8 with plt := { w0.plt with cand := some {}, admitted := true }, adm := { w0.adm with rerun := true } }), {},
     by decide +kernel⟩,
   ⟨({ wStep 8 with plt := { w0.plt with plate := wPlate, admitted := true } }), by decide +kernel⟩,
   ⟨(wAt (wArm wPlate 5000000) 10), by decide +kernel⟩,
   ⟨(wAt (wArm wPlate 5000000) 10), by decide +kernel⟩,
   ⟨(let z := wAt (wArm wPlate 5000000) 10; { z with start := { z.start with step10 := true, step11 := true } }),
     by decide +kernel⟩,
   ⟨(setSect (wArm wPlate 5000000) 0 { st := 1 }), 0, wSect, by decide +kernel⟩,
   ⟨(wArm wPlate 5000000), by decide +kernel⟩⟩

theorem test_hypotheses_StartBudgetServesRequests :
    (∃ s : State, ∃ ch, reqStands s ch = true ∧ s.stb.reqs.any (·.1 == ch) = false) ∧
    (∃ s : State, ∃ ch, reqStands s ch = false ∧ s.stb.reqs.any (·.1 == ch) = true) ∧
    (∃ s : State, isArmed s = true ∧ s.stb.stepAt ≤ s.now) ∧
    (∃ s : State, isArmed s = true ∧ s.stb.stepAt ≤ s.now) ∧
    (∃ s : State, ∃ ch, isArmed s = true ∧ s.stb.stepAt ≤ s.now ∧ s.stb.next = some ch ∧ reqStands s ch = true) ∧
    (∃ s : State, ∃ ch, isArmed s = true ∧ s.stb.stepAt ≤ s.now ∧ s.stb.next = some ch ∧ reqStands s ch = false) ∧
    (∃ s : State, ∃ ch c, motorCfg s ch = some c ∧ s.stb.active.any (·.1 == ch) = true ∧ (getMot s ch).proved = true ∧
      (getMot s ch).grantAt + 2000000 ≤ s.now ∧ (getMot s ch).grantAt + c.prove * 100000 ≤ s.now) ∧
    (∃ s : State, ∃ ch b r, startsCfg s = some b ∧ s.stb.reqs.find? (·.1 == ch) = some r ∧ s.stb.starved.contains ch = false ∧
      b.waitS * 1000000 < s.now - r.2 ∧ injected s.flt 0x38 = false) ∧
    (∃ s : State, ∃ ch b w low, startsCfg s = some b ∧ s.stb.watches.find? (·.ch == ch) = some w ∧ w.start + 2000000 ≤ s.now ∧
      w.low = some low ∧ w.spoiled = false) :=
  ⟨⟨(wOvr (wArm wPlate 5000000) 1 1), 0, by decide +kernel⟩,
   ⟨({ wArm wPlate 5000000 with stb := { w0.stb with reqs := [(0, 5)], next := some 0 } }), 0, by decide +kernel⟩,
   ⟨(wArm wPlate 5000000), by decide +kernel⟩,
   ⟨({ wOvr (wArm wPlate 5000000) 1 1 with stb := { w0.stb with reqs := [(0, 5)], next := some 0 } }), by decide +kernel⟩,
   ⟨({ wOvr (wArm wPlate 5000000) 1 1 with stb := { w0.stb with reqs := [(0, 5)], next := some 0 } }), 0, by decide +kernel⟩,
   ⟨({ wArm wPlate 5000000 with stb := { w0.stb with reqs := [(0, 5)], next := some 0 } }), 0, by decide +kernel⟩,
   ⟨(let z := wMot (wOvr (wArm wPlate 5000000) 1 1) { st := 1, proved := true };
     { z with stb := { z.stb with active := [(0, 0)] } }), 0, wMotor, by decide +kernel⟩,
   ⟨({ wOvr (wArm wPlate 50000000) 1 1 with stb := { w0.stb with reqs := [(0, 5)] } }), 0, wStarts, (0, 5), by decide +kernel⟩,
   ⟨({ wArm wPlate 5000000 with stb := { w0.stb with watches := [{ ch := 0, start := 0, base := 100, low := some 60 }] } }), 0,
     wStarts, ({ ch := 0, start := 0, base := 100, low := some 60 } : DipWatch), 60, by decide +kernel⟩⟩

theorem test_hypotheses_StoresCompleteInTheirBanks :
    (∃ s : State, ∃ bank q x xs, s.rst.held = false ∧ (getBank s.nvm (bank % 4)).hand = some q ∧ q.kind ≠ .erase ∧
      q.kind ≠ .read ∧ q.words = x :: xs ∧ q.owner ≠ .retireCopy ∧ q.owner ≠ .retireMap ∧
      wordOut s.nvm q x false = .programmed) ∧
    (∃ s : State, ∃ bank q x r, s.rst.held = false ∧ (getBank s.nvm (bank % 4)).hand = some q ∧ q.kind = .word ∧
      q.owner = .retireCopy ∧ q.words = [x] ∧ s.nvm.retire = some r ∧ wordOut s.nvm q x false = .programmed) ∧
    (∃ s : State, ∃ bank q x r, s.rst.held = false ∧ (getBank s.nvm (bank % 4)).hand = some q ∧ q.kind = .unit ∧
      q.owner = .retireMap ∧ q.words = [x] ∧ locBank x.1 = 1 ∧ s.nvm.retire = some r ∧ wordOut s.nvm q x false = .programmed) ∧
    (∃ s : State, ∃ bank q x, s.rst.held = false ∧ (getBank s.nvm (bank % 4)).hand = some q ∧ q.kind = .word ∧ q.words = [x] ∧
      q.second = true ∧ retiring s.nvm (bank % 4) (locRow x.1) = false ∧ (getBank s.nvm (bank % 4)).spares.length < 32) ∧
    (∃ s : State, ∃ bank q e, s.rst.held = false ∧ (getBank s.nvm (bank % 4)).hand = some q ∧ q.kind = .erase ∧
      (getBank s.nvm (bank % 4)).erase = some e) ∧
    (∃ s : State, ∃ bank q e, s.rst.held = false ∧ (getBank s.nvm (bank % 4)).hand = some q ∧ q.kind = .erase ∧
      (getBank s.nvm (bank % 4)).erase = some e ∧ e.pulses < 15) ∧
    (∃ s : State, ∃ bank, s.rst.held = false ∧
      ((getArb s (8 + bank % 4)).owner.isSome = true ∨ bankOwned s (bank % 4) = true) ∧ Raisable s 0x21) ∧
    (∃ s : State, ∃ bank q, s.rst.held = false ∧ (getBank s.nvm (bank % 4)).hand = some q ∧ q.kind = .word ∧
      svcStore q = false ∧ (getBank s.nvm (bank % 4)).turns = [] ∧ queueTaken s < 64 ∧ s.pwr.waiting = []) :=
  ⟨⟨(wTurn wWord), 4, wWord, (5, 7#40), [], by decide +kernel⟩,
   ⟨(let z := wTurn ({ kind := .word, owner := .retireCopy, words := [(1540, 8#40)] } : Store);
     { z with nvm := { z.nvm with retire := some (⟨0, 3, 1, 2, 0, 0, 0, [], 32⟩ : Retire) } }), 0,
     ({ kind := .word, owner := .retireCopy, words := [(1540, 8#40)] } : Store), (1540, 8#40), (⟨0, 3, 1, 2, 0, 0, 0, [],
     32⟩ : Retire), by decide +kernel⟩,
   ⟨(let z := wTurn ({ kind := .unit, owner := .retireMap, words := [(600000, 8#40)] } : Store);
     { z with nvm := { z.nvm with retire := some (⟨0, 3, 1, 4, 0, 0, 0, [], 32⟩ : Retire) } }), 0,
     ({ kind := .unit, owner := .retireMap, words := [(600000, 8#40)] } : Store), (600000, 8#40), (⟨0, 3, 1, 4, 0, 0, 0, [],
     32⟩ : Retire), by decide +kernel⟩,
   ⟨(wTurn ({ kind := .word, owner := .image, words := [(5, 7#40)], second := true } : Store)), 0,
     ({ kind := .word, owner := .image, words := [(5, 7#40)], second := true } : Store), (5, 7#40), by decide +kernel⟩,
   ⟨(wTurn wErase), 0, wErase, ({ row := 3, owner := .image } : EraseSeq), by decide +kernel⟩,
   ⟨(wTurn wErase), 0, wErase, ({ row := 3, owner := .image } : EraseSeq), by decide +kernel⟩,
   ⟨(wTurn wWord), 0, by decide +kernel⟩,
   ⟨(wTurn ({ kind := .word, owner := .opSeconds, words := [(5, 7#40)] } : Store)), 0,
     ({ kind := .word, owner := .opSeconds, words := [(5, 7#40)] } : Store), by decide +kernel⟩⟩

theorem test_hypotheses_FlushAndQueueGoOn :
    (∃ s : State, ∃ code k, s.rst.held = false ∧ s.pwr.gate = true ∧ s.pwr.flush = some k ∧
      flushOver (senseHoldup s code) k = true ∧ (s.pwr.pfw = false ∨ 8 ≤ k)) ∧
    (∃ s : State, ∃ code k, s.rst.held = false ∧ s.pwr.gate = true ∧ s.pwr.flush = some k ∧
      flushOver (senseHoldup s code) k = true ∧ (s.pwr.pfw = false ∨ 8 ≤ k)) ∧
    (∃ s : State, ∃ code k, s.rst.held = false ∧ s.pwr.gate = true ∧ s.pwr.flush = some k ∧
      flushOver (senseHoldup s code) k = true ∧ s.pwr.pfw = true ∧ k < 8) ∧
    (∃ s : State, ∃ code k, s.rst.held = false ∧ s.pwr.gate = true ∧ s.pwr.flush = some k ∧
      flushOver (senseHoldup s code) k = true ∧ s.pwr.pfw = true ∧ k < 8) ∧
    (∃ s : State, ∃ code k, s.rst.held = false ∧ s.pwr.gate = true ∧ s.pwr.flush = some k ∧
      flushOver (senseHoldup s code) k = false) ∧
    (∃ s : State, ∃ code x, s.rst.held = false ∧ s.pwr.lastRetry + 1000 ≤ s.now ∧ retryPick (senseHoldup s code) = some x) ∧
    (∃ s : State, ∃ code x, s.rst.held = false ∧ s.pwr.lastRetry + 1000 ≤ s.now ∧ retryPick (senseHoldup s code) = some x ∧
      (mayStoreNow s = false ∨ canStore (senseHoldup s code) x = false)) ∧
    (∃ s : State, ∃ code x, s.rst.held = false ∧ s.pwr.lastRetry + 1000 ≤ s.now ∧ retryPick (senseHoldup s code) = some x ∧
      mayStoreNow s = true ∧ canStore (senseHoldup s code) x = true ∧ x.kind = .word ∧ mapOwner x.owner = false ∧
      (getBank s.nvm (storeBank x)).turns = []) ∧
    (∃ s : State, s.rst.held = false ∧ s.pwr.pfw = false ∧ 10000000 ≤ headWait s ∧ injected s.flt 0x26 = false) ∧
    (∃ s : State, keeperRuns s = true ∧ storedOpSec s.nvm + 360 ≤ s.cal.opSec ∧ flushTurns s 2 = false ∧
      (getBank s.nvm 2).turns = []) ∧
    (∃ s : State, isArmed s = true ∧ s.pwr.pfw = false ∧ s.nvm.lastPass + 900000000 ≤ s.now) ∧
    (∃ s : State, keeperRuns s = true ∧ s.nvm.lastScrub + 400000 ≤ s.now) ∧
    (∃ s : State, keeperRuns s = true ∧ s.nvm.scrubFrom + 86400 ≤ s.cal.opSec ∧ injected s.flt 0x25 = false) ∧
    (∃ s : State, ∃ b row rest k, keeperRuns s = true ∧ s.pwr.pfw = false ∧ s.nvm.retire = none ∧ s.nvm.journaled = [] ∧
      s.nvm.retireWait = (b, row) :: rest ∧ freeSpare (getBank s.nvm b) = some k ∧ retireBusy s = false ∧ b < 4) ∧
    (∃ s : State, ∃ r, keeperRuns s = true ∧ s.pwr.pfw = false ∧ s.nvm.retire = some r ∧ r.step = 3 ∧ r.reads = 0 ∧
      r.bank < 4 ∧ retireBusy s = false ∧ s.prf.noMap = false) :=
  ⟨⟨(wFlush 8 true), 4095, 8, by decide +kernel⟩,
   ⟨(wFlush 2 false), 4095, 2, by decide +kernel⟩,
   ⟨(wFlush 1 true), 4095, 1, by decide +kernel⟩,
   ⟨(wFlush 7 true), 4095, 7, by decide +kernel⟩,
   ⟨(let z := wFlush 2 true;
     { z with nvm := { z.nvm with bank2 := { hand := some { kind := .word, owner := .opSeconds, words := [(5, 7#40)], flush := true } } } }), 4095, 2, by decide +kernel⟩,
   ⟨wQueue, 0, ({ wWord with since := some 0 } : Store), by decide +kernel⟩,
   ⟨wQueue, 0, ({ wWord with since := some 0 } : Store), by decide +kernel⟩,
   ⟨wQueue, 4095, ({ wWord with since := some 0 } : Store), by decide +kernel⟩,
   ⟨wQueue, by decide +kernel⟩,
   ⟨({ wArm wPlate 5 with cal := { w0.cal with opSec := 360 } }), by decide +kernel⟩,
   ⟨(wArm wPlate 900000000), by decide +kernel⟩,
   ⟨(wArm wPlate 400000), by decide +kernel⟩,
   ⟨({ wArm wPlate 5 with cal := { w0.cal with opSec := 86400 } }), by decide +kernel⟩,
   ⟨({ wArm wPlate 5 with nvm := { w0.nvm with retireWait := [(0, 3)] } }), 0, 3, [], 0, by decide +kernel⟩,
   ⟨({ wArm wPlate 5 with nvm := { w0.nvm with retire := some (⟨0, 3, 1, 3, 0, 0, 0, [], 0⟩ : Retire) } }), (⟨0, 3, 1, 3, 0, 0,
     0, [], 0⟩ : Retire), by decide +kernel⟩⟩

theorem test_hypotheses_SpineLinksCorrectAndPoison :
    (∃ s : State, ∃ d, ∃ w : List Nat, ∃ c, Crosses s d c ∧ w.eraseDups.filter (carries (getLink s d)) = [] ∧
      s.spn.bad.contains (256 * c.src + c.dst, (crossing s d c).num) = false) ∧
    (∃ s : State, ∃ d, ∃ w : List Nat, ∃ c l, Crosses s d c ∧ w.eraseDups.filter (carries (getLink s d)) = [l] ∧
      s.spn.bad.contains (256 * c.src + c.dst, (crossing s d c).num) = false) ∧
    (∃ s : State, ∃ d, ∃ w : List Nat, ∃ c l, Crosses s d c ∧ w.eraseDups.filter (carries (getLink s d)) = [l] ∧
      s.spn.bad.contains (256 * c.src + c.dst, (crossing s d c).num) = false ∧
      15 ≤ ((getLink s d).hits.filter (fun h => decide (s.now < h.2 + 3600000000) && h.1 == l)).length) ∧
    (∃ s : State, ∃ d, ∃ w : List Nat, ∃ c, Crosses s d c ∧ 2 ≤ (w.eraseDups.filter (carries (getLink s d))).length ∧
      ¬((crossing s d c).left ≤ 1 ∧ lastLink s c = some d)) ∧
    (∃ s : State, ∃ d, ∃ w : List Nat, ∃ c, Crosses s d c ∧ w.eraseDups.filter (carries (getLink s d)) = [] ∧
      s.spn.bad.contains (256 * c.src + c.dst, (crossing s d c).num) = true ∧ (crossing s d c).left ≤ 1 ∧
      lastLink s c = some d) ∧
    (∃ s : State, ∃ d, ∃ w : List Nat, ∃ c, Crosses s d c ∧ 2 ≤ (w.eraseDups.filter (carries (getLink s d))).length ∧
      (crossing s d c).left ≤ 1 ∧ lastLink s c = some d) ∧
    (∃ s : State, ∃ x xs, s.spn.swaps = x :: xs ∧ keeperRuns s = true ∧
      (linkPorts x.1).all (fun p => drained (getArb s p)) = true) ∧
    (∃ s : State, ∃ router port, s.rst.held = false ∧ router < 72 ∧ port < 5) ∧
    (∃ s : State, ∃ router port, s.rst.held = false ∧ router < 72 ∧ 1 ≤ port ∧ port < 5 ∧
      packetAt s (256 + 5 * router + port) = none) ∧
    (∃ s : State, ∃ router port c, s.rst.held = false ∧ router < 72 ∧ port < 5 ∧
      packetAt s (256 + 5 * router + port) = some c) ∧
    (∃ s : State, ∃ router port c, s.rst.held = false ∧ router < 72 ∧ port < 5 ∧
      packetAt s (256 + 5 * router + port) = some c) :=
  ⟨⟨({ wStep 6 with now := 9, spn := { w0.spn with arbs := [(259, { owner := some 0 }), (261, { owner := some 4 })] } }), 0,
    [60], (⟨64, 65, 3, false, 0, 0⟩ : Cross), crosses_of (by decide +kernel), by decide +kernel⟩,
   ⟨({ wStep 6 with now := 9, spn := { w0.spn with arbs := [(259, { owner := some 0 }), (261, { owner := some 4 })] } }), 0,
     [3, 60], (⟨64, 65, 3, false, 0, 0⟩ : Cross), 3, crosses_of (by decide +kernel), by decide +kernel⟩,
   ⟨({ wStep 6 with now := 9, spn := { w0.spn with arbs := [(259, { owner := some 0 }), (261, { owner := some 4 })], links := [(0, { hits := List.replicate 15 (3, 5) })] } }), 0, [3, 60], (⟨64, 65, 3, false, 0, 0⟩ : Cross), 3, crosses_of (by decide +kernel), by decide +kernel⟩,
   ⟨({ wStep 6 with now := 9, spn := { w0.spn with arbs := [(259, { owner := some 0 }), (261, { owner := some 4 })] } }), 0,
     [3, 4], (⟨64, 65, 3, false, 0, 0⟩ : Cross), crosses_of (by decide +kernel), by decide +kernel⟩,
   ⟨({ wStep 6 with now := 9, spn := { w0.spn with arbs := [(259, { owner := some 0 }), (261, { owner := some 4 })], cross := [(0, some ⟨64, 65, 3, false, 1, 1⟩)], bad := [(16449, 1)] } }), 0, [], (⟨64, 65, 3, false, 0, 0⟩ : Cross), crosses_of (by decide +kernel), by decide +kernel⟩,
   ⟨({ wStep 6 with now := 9, spn := { w0.spn with arbs := [(259, { owner := some 0 }), (261, { owner := some 4 })], cross := [(0, some ⟨64, 65, 3, false, 1, 1⟩)] } }), 0, [3, 4], (⟨64, 65, 3, false, 0, 0⟩ : Cross), crosses_of (by decide +kernel), by decide +kernel⟩,
   ⟨({ wStep 6 with spn := { w0.spn with swaps := [(0, 3)], arbs := ((linkPorts 0).foldl (fun (t : Tab Arb) p => tset {} t p { frozen := true }) []) } }), (0, 3), ([] : List (Nat × Nat)), by decide +kernel⟩,
   ⟨w0, 71, 4, by decide +kernel⟩,
   ⟨w0, 71, 4, by decide +kernel⟩,
   ⟨({ wStep 6 with now := 9, spn := { w0.spn with arbs := [(259, { owner := some 0 }), (261, { owner := some 4 })], cross := [(0, some ⟨64, 65, 3, false, 1, 1⟩)] } }), 0, 3, (⟨64, 65, 3, false, 1, 1⟩ : Cross), by decide +kernel⟩,
   ⟨({ wStep 6 with now := 9, spn := { w0.spn with arbs := [(259, { owner := some 0 }), (261, { owner := some 4 })], cross := [(0, some ⟨64, 65, 3, false, 1, 1⟩)] } }), 1, 0, (⟨64, 65, 3, false, 1, 1⟩ : Cross), by decide +kernel⟩⟩

theorem test_hypotheses_ArbitersFollowTheirRules :
    (∃ s : State, ∃ n r, s.rst.held = false ∧ phaseStyle n = true ∧ unassigned n = false ∧ bankPort n r = false ∧
      sramPort n r = false) ∧
    (∃ s : State, ∃ n r, s.rst.held = false ∧ phaseStyle n = true ∧ unassigned n = false ∧ bankPort n r = false ∧
      sramPort n r = false) ∧
    (∃ s : State, ∃ n r, s.rst.held = false ∧ phaseStyle n = true ∧ unassigned n = false ∧ bankPort n r = false ∧
      sramPort n r = false) ∧
    (∃ n r, sramPort n r = true) ∧
    (∃ s : State, ∃ n r, s.rst.held = false ∧ bankPort n r = true) ∧
    (∃ s : State, ∃ n r, s.rst.held = false ∧ bankPort n r = true) ∧
    (∃ s : State, ∃ n, s.rst.held = false ∧ 18 ≤ n ∧ n < 22 ∧ onBus (getCan s (n - 18)) = true ∧ (getArb s n).owner = none ∧
      (getArb s n).next = none ∧ (getArb s n).deadDue = false ∧ (getArb s n).dead = false) ∧
    (∃ s : State, ∃ r, s.rst.held = false ∧ reqStands s r = true ∧ s.stb.reqs.any (·.1 == r) = false) ∧
    (∃ n, (unassigned n = true ∨ (phaseStyle n = false ∧ (n < 18 ∨ 22 < n)))) ∧
    (∃ n, (unassigned n = true ∨ (phaseStyle n = false ∧ (n < 18 ∨ 22 < n)))) ∧
    (∃ s : State, ∃ n r, s.rst.held = false ∧ phaseStyle n = true ∧ (getArb s n).owner = some r ∧ portBusy s n = false ∧
      ¬(8 ≤ n ∧ n < 12)) ∧
    (∃ s : State, ∃ n r, s.rst.held = false ∧ phaseStyle n = true ∧ (getArb s n).owner = some r ∧ portBusy s n = false ∧
      ¬(8 ≤ n ∧ n < 12)) ∧
    (∃ s : State, ∃ n r, portBusy s n = true ∧ (getArb s n).owner = some r) ∧
    (∃ s : State, ∃ n r, s.rst.held = false ∧ 8 ≤ n ∧ n < 12 ∧ (getArb s n).owner = some r ∧ bankTurn s n r = none ∧
      portBusy s n = false) ∧
    (∃ s : State, ∃ n r q, s.rst.held = false ∧ 8 ≤ n ∧ n < 12 ∧ (getArb s n).owner = some r ∧ bankTurn s n r = some q ∧
      q.kind = .read ∧ portBusy s n = false) ∧
    (∃ s : State, ∃ n, 18 ≤ n ∧ n < 22 ∧ canRuns s (n - 18) = true ∧ onBus (getCan s (n - 18)) = true ∧
      (getCan s (n - 18)).pexWait = false ∧ (getArb s n).owner = none ∧ (getArb s n).dead = false ∧
      ((getArb s n).next.isSome = true ∨ (getArb s n).deadDue = true)) ∧
    (∃ s : State, ∃ n, 18 ≤ n ∧ n < 22 ∧ canRuns s (n - 18) = true ∧ onBus (getCan s (n - 18)) = true ∧
      (getCan s (n - 18)).pexWait = false ∧ (getArb s n).owner = none ∧ (getArb s n).dead = false ∧
      ((getArb s n).next.isSome = true ∨ (getArb s n).deadDue = true)) ∧
    (∃ s : State, ∃ n m, 18 ≤ n ∧ n < 22 ∧ canRuns s (n - 18) = true ∧ onBus (getCan s (n - 18)) = true ∧
      (getCan s (n - 18)).pexWait = false ∧ (getArb s n).owner = none ∧ (getArb s n).dead = false ∧
      (getArb s n).frozen = false ∧ (getArb s n).next = some m ∧ (getArb s n).deadDue = false) ∧
    (∃ s : State, ∃ n, 18 ≤ n ∧ n < 22 ∧ canRuns s (n - 18) = true ∧ onBus (getCan s (n - 18)) = true ∧
      (getCan s (n - 18)).pexWait = false ∧ (getArb s n).owner = none ∧ (getArb s n).dead = false ∧
      (getArb s n).frozen = false ∧ (getArb s n).deadDue = true) ∧
    (∃ s : State, ∃ n r, s.rst.held = false ∧ phaseStyle n = true ∧ ¬(8 ≤ n ∧ n < 12) ∧ ¬((getArb s n).owner = some r ∧
      portBusy s n = true)) ∧
    (∃ s : State, ∃ n r, s.rst.held = false ∧ phaseStyle n = true ∧ ¬(8 ≤ n ∧ n < 12) ∧ ¬((getArb s n).owner = some r ∧
      portBusy s n = true)) ∧
    (∃ s : State, ∃ n r, s.rst.held = false ∧ phaseStyle n = true ∧ ¬(8 ≤ n ∧ n < 12) ∧ ¬((getArb s n).owner = some r ∧
      portBusy s n = true)) ∧
    (∃ s : State, ∃ n r, s.rst.held = false ∧ 8 ≤ n ∧ n < 12 ∧ bankPort n r = false) ∧
    (∃ s : State, ∃ n r, s.rst.held = false ∧ bankPort n r = true ∧ bankTurn s n r = none) ∧
    (∃ s : State, ∃ n, s.rst.held = false ∧ 18 ≤ n ∧ n < 22) ∧
    (∃ s : State, s.rst.held = false) ∧
    (∃ s : State, ∃ n, s.rst.held = false ∧ phaseStyle n = true ∧ ¬(8 ≤ n ∧ n < 12)) ∧
    (∃ s : State, ∃ n, s.rst.held = false ∧ 8 ≤ n ∧ n < 12) ∧
    (∃ s : State, ∃ n, s.rst.held = false ∧ 18 ≤ n ∧ n < 22 ∧ (getArb s n).dead = true) ∧
    (∃ s : State, ∃ n, keeperRuns s = true ∧ freezable n = true) ∧
    (∃ s : State, ∃ n, keeperRuns s = true ∧ freezable n = true) ∧
    (∃ s : State, ∃ n, keeperRuns s = true ∧ freezable n = true ∧ (getArb s n).frozen = true) ∧
    (∃ s : State, s.rst.held = false ∧ Raisable s 0x03) :=
  ⟨⟨({ w0 with spn := { w0.spn with arbs := [(3, { owner := some 2, fg := [5, 6] })] } }), 3, 7, by decide +kernel⟩,
   ⟨({ w0 with spn := { w0.spn with arbs := [(3, { owner := some 2, fg := [5, 6] })] } }), 615, 7, by decide +kernel⟩,
   ⟨(wTurn wWord), 8, 13, by decide +kernel⟩,
   ⟨7, 202, by decide +kernel⟩,
   ⟨(wTurn wWord), 8, 200, by decide +kernel⟩,
   ⟨w0, 11, 201, by decide +kernel⟩,
   ⟨(wBus 9 wNet wOn), 18, by decide +kernel⟩,
   ⟨(wOvr (wArm wPlate 5000000) 1 1), 0, by decide +kernel⟩,
   ⟨592, by decide +kernel⟩,
   ⟨13, by decide +kernel⟩,
   ⟨({ w0 with spn := { w0.spn with arbs := [(3, { owner := some 2, fg := [5, 6] })] } }), 3, 2, by decide +kernel⟩,
   ⟨({ w0 with prf := { w0.prf with sramTurns := [(3, [400])] }, spn := { w0.spn with arbs := [(3, { owner := some 202, dead := false })] } }), 3, 202, by decide +kernel⟩,
   ⟨({ wStep 6 with now := 9, spn := { w0.spn with arbs := [(259, { owner := some 0 }), (261, { owner := some 4 })], cross := [(0, some ⟨64, 65, 3, false, 1, 1⟩)] } }), 259, 0, by decide +kernel⟩,
   ⟨({ w0 with spn := { w0.spn with arbs := tset {} w0.spn.arbs 9 { owner := some 5 } } }), 9, 5, by decide +kernel⟩,
   ⟨(let z := ({ w0 with spn := { w0.spn with arbs := tset {} w0.spn.arbs 9 { owner := some 201 } } });
     { z with nvm := { z.nvm with bank1 := { hand := some ({ kind := .read, owner := .scrubRead, words := [(524293, 0#40)] } : Store) } } }), 9, 201, ({ kind := .read, owner := .scrubRead, words := [(524293, 0#40)] } : Store), by decide +kernel⟩,
   ⟨(let z := wBus 9 wNet wOn; { z with spn := { z.spn with arbs := tset {} z.spn.arbs 18 { next := some 4 } } }), 18,
     by decide +kernel⟩,
   ⟨(let z := wBus 9 wNet wOn; { z with spn := { z.spn with arbs := tset {} z.spn.arbs 18 { deadDue := true } } }), 18,
     by decide +kernel⟩,
   ⟨(let z := wBus 9 wNet wOn; { z with spn := { z.spn with arbs := tset {} z.spn.arbs 18 { next := some 4 } } }), 18, 4,
     by decide +kernel⟩,
   ⟨(let z := wBus 9 wNet wOn; { z with spn := { z.spn with arbs := tset {} z.spn.arbs 18 { deadDue := true } } }), 18,
     by decide +kernel⟩,
   ⟨({ w0 with spn := { w0.spn with arbs := [(3, { owner := some 2, fg := [5, 6] })] } }), 3, 2, by decide +kernel⟩,
   ⟨({ w0 with spn := { w0.spn with arbs := [(3, { owner := some 2, fg := [5, 6] })] } }), 3, 6, by decide +kernel⟩,
   ⟨({ w0 with prf := { w0.prf with sramTurns := [(3, [400])] }, spn := { w0.spn with arbs := [(3, { bg := [202] })] } }), 3,
     202, by decide +kernel⟩,
   ⟨({ w0 with spn := { w0.spn with arbs := tset {} w0.spn.arbs 8 { owner := some 2, fg := [3] } } }), 8, 3, by decide +kernel⟩,
   ⟨({ w0 with spn := { w0.spn with arbs := tset {} w0.spn.arbs 8 { owner := some 2, fg := [200] } } }), 8, 200,
     by decide +kernel⟩,
   ⟨(let z := wBus 9 wNet wOn; { z with spn := { z.spn with arbs := tset {} z.spn.arbs 18 { next := some 4 } } }), 21,
     by decide +kernel⟩,
   ⟨(let z := wBus 9 wNet wOn; { z with spn := { z.spn with arbs := tset {} z.spn.arbs 18 { next := some 4 } } }),
     by decide +kernel⟩,
   ⟨({ w0 with spn := { w0.spn with arbs := [(3, { dead := true, fg := [5, 6] })] } }), 3, by decide +kernel⟩,
   ⟨({ w0 with spn := { w0.spn with arbs := tset {} w0.spn.arbs 8 { dead := true } } }), 8, by decide +kernel⟩,
   ⟨(let z := wBus 9 wNet wOn; { z with spn := { z.spn with arbs := tset {} z.spn.arbs 18 { dead := true } } }), 18,
     by decide +kernel⟩,
   ⟨(wStep 6), 21, by decide +kernel⟩,
   ⟨(wStep 6), 615, by decide +kernel⟩,
   ⟨(let z := wStep 6; { z with spn := { z.spn with arbs := [(12, { frozen := true })] } }), 12, by decide +kernel⟩,
   ⟨w0, by decide +kernel⟩⟩

theorem test_hypotheses_CrossingsCarryEvents :
    (∃ s : State, ∃ i, s.rst.held = false ∧ i < 10 ∧ islRuns s i = true) ∧
    (∃ s : State, ∃ i, s.rst.held = false ∧ i < 10 ∧ islRuns s i = true) ∧
    (∃ s : State, ∃ i n d f, s.rst.held = false ∧ i < 10 ∧ islRuns s i = true ∧ s.isl.isls.length = 10 ∧ queueOf i n = some (d,
      f)) ∧
    (∃ s : State, ∃ i n d f, s.rst.held = false ∧ i < 10 ∧ islRuns s i = true ∧ s.isl.isls.length = 10 ∧ queueOf i n = some (d,
      f)) ∧
    (∃ s : State, ∃ i n d f, s.rst.held = false ∧ i < 10 ∧ islRuns s i = true ∧ s.isl.isls.length = 10 ∧ queueOf i n = some (d,
      f)) ∧
    (∃ s : State, ∃ i n d f, s.rst.held = false ∧ i < 10 ∧ islRuns s i = true ∧ queueOf i n = some (d, f) ∧
      tget [] s.isl.queues (islKey i n) ≠ []) ∧
    (∃ s : State, ∃ i, ∃ words : List Word, s.rst.held = false ∧ i < 10 ∧ islRuns s i = true ∧ words.length ≤ 4) ∧
    (∃ s : State, s.rst.held = false ∧ (∀ at_, s.isl.probeAt = some at_ → at_ + 10000 ≤ s.now) ∧ s.isl.isls.length = 10) ∧
    (∃ s : State, s.rst.held = false ∧ (∀ at_, s.isl.probeAt = some at_ → at_ + 10000 ≤ s.now) ∧ s.isl.isls.length = 10) ∧
    (∃ s : State, ∃ at_, s.isl.probeAt = some at_ ∧ s.now < at_ + 10000) :=
  ⟨⟨(wArm wPlate 9), 9, by decide +kernel⟩,
   ⟨(wArm wPlate 9), 0, by decide +kernel⟩,
   ⟨(wArm wPlate 9), 7, 0, 64, false, by decide +kernel⟩,
   ⟨(let z := wArm wPlate 9; { z with isl := { z.isl with queues := [(islKey 8 1, List.replicate 64 3#40)] } }), 8, 1, 64,
     true, by decide +kernel⟩,
   ⟨(let z := wArm wPlate 9; { z with isl := { z.isl with queues := [(islKey 8 0, List.replicate 64 3#40)] } }), 8, 0, 64,
     false, by decide +kernel⟩,
   ⟨(let z := wArm wPlate 9;
     { z with isl := { z.isl with queues := [(islKey 8 1, [3#40])], late := [(islKey 8 1, [4#40])] } }), 8, 1, 64, true,
     by decide +kernel⟩,
   ⟨(wArm wPlate 9), 3, wFour, by decide +kernel⟩,
   ⟨(wArm wPlate 9), by decide +kernel, all_of_option (by decide +kernel), by decide +kernel⟩,
   ⟨(let z := wArm wPlate 9; { z with isl := { z.isl with rcOk := false, xtOk := false } }), by decide +kernel,
     all_of_option (by decide +kernel), by decide +kernel⟩,
   ⟨(let z := wArm wPlate 9; { z with isl := { z.isl with probeAt := some 5 } }), 5, by decide +kernel⟩⟩

theorem test_hypotheses_IslandsStopAndFlush :
    (∃ s : State, ∃ i, s.rst.held = false ∧ i < 10 ∧ s.isl.isls.length = 10 ∧ (getIsl s i).st ≠ 3) ∧
    (∃ s : State, ∃ i, s.rst.held = false ∧ i < 10 ∧ s.isl.isls.length = 10 ∧ islClock s i = true) ∧
    (∃ s : State, ∃ i, islClock s i = false) ∧
    (∃ s : State, s.rst.held = false ∧ s.isl.xtOk = true ∧ s.isl.rcOk = true ∧ s.isl.onRc = false) ∧
    (∃ s : State, s.rst.held = false ∧ s.isl.xtOk = true ∧ (s.isl.rcOk = false ∨ s.isl.onRc = true)) ∧
    (∃ s : State, s.rst.held = false ∧ s.isl.xtOk = true ∧ s.isl.rcOk = true) ∧
    (∃ s : State, s.rst.held = false ∧ injected s.flt 0x09 = false) :=
  ⟨⟨(wArm wPlate 9), 9, by decide +kernel⟩,
   ⟨(wArm wPlate 9), 6, by decide +kernel⟩,
   ⟨(let z := wArm wPlate 9; { z with isl := { z.isl with rcOk := false, xtOk := false } }), 6, by decide +kernel⟩,
   ⟨(wArm wPlate 9), by decide +kernel⟩,
   ⟨(let z := wArm wPlate 9; { z with isl := { z.isl with rcOk := false } }), by decide +kernel⟩,
   ⟨(wArm wPlate 9), by decide +kernel⟩,
   ⟨(let z := wArm wPlate 9; { z with isl := { z.isl with xtOk := false, onRc := true } }), by decide +kernel⟩⟩

theorem test_hypotheses_MinorFramesAdvance :
    (∃ s : State, islRuns s 5 = true ∧ (s.eng.framesOn = true → s.eng.chain = false → s.eng.lastTick + 49000 ≤ s.now) ∧
      tilesIdle s = true) ∧
    (∃ s : State, islRuns s 5 = true ∧ (s.eng.framesOn = true → s.eng.lastTick + 49000 ≤ s.now) ∧ tilesRun s = true ∧
      s.eng.chain = false) ∧
    (∃ s : State, islRuns s 5 = true ∧ (s.eng.framesOn = true → s.eng.lastTick + 49000 ≤ s.now) ∧ tilesRun s = true ∧
      s.eng.chain = false) ∧
    (∃ s : State, (getIsl s 5).st = 2 ∧ tilesRun s = true ∧ s.eng.chain = true) ∧
    (∃ s : State, s.eng.framesOn = true ∧ s.eng.chain = false ∧ s.now < s.eng.lastTick + 49000) ∧
    (∃ s : State, tilesRun s = true ∧ s.eng.framesOn = true ∧ s.eng.chain = false ∧ s.eng.lastTick + 55000 ≤ s.now) ∧
    (∃ s : State, tilesRun s = true ∧ s.eng.chain = true ∧ s.eng.lastTick + 47500 ≤ s.now) ∧
    (∃ s : State, ∃ t f p, (getLt s t).frame = some f ∧ physOf s t = some p ∧ tilesRun s = true ∧ (getTile s p).st = 0 ∧
      tableOk s t p = true ∧ (getLt s t).lost = false ∧ s.prf.loads.any (fun l => l.logical == t) = false ∧
      (getLt s t).ran + 1 < (entriesAt s t f).length ∧ (∀ e, (entriesAt s t f)[(getLt s t).ran]? = some e →
      (s.plt.plate.tasks.find? (·.task == e.task)).isSome = true)) :=
  ⟨⟨(let z := wArm wPlate 9; { z with start := { z.start with state := .moored } }), by decide +kernel⟩,
   ⟨(let z := wArm wPlate 100000; { z with eng := { z.eng with framesOn := true, lastTick := 40000, frames := 7 } }),
     by decide +kernel⟩,
   ⟨(wArm wPlate 9), by decide +kernel⟩,
   ⟨(let z := wArm wPlate 100000;
     { z with eng := { z.eng with framesOn := true, lastTick := 40000, frames := 7, chain := true } }), by decide +kernel⟩,
   ⟨(let z := wArm wPlate 100000; { z with eng := { z.eng with framesOn := true, lastTick := 90000, frames := 7 } }),
     by decide +kernel⟩,
   ⟨(let z := wArm wPlate 100000; { z with eng := { z.eng with framesOn := true, lastTick := 40000, frames := 7 } }),
     by decide +kernel⟩,
   ⟨(let z := wArm wPlate 100000;
     { z with eng := { z.eng with framesOn := true, lastTick := 40000, frames := 7, chain := true } }), by decide +kernel⟩,
   ⟨(let z := wArm { wPlate with tasks := [⟨1, 1, 0, []⟩, ⟨2, 1, 0, []⟩] } 9;
     { z with adm := { z.adm with places := [⟨1, 0, 0, 1, 5, 5⟩, ⟨2, 0, 0, 1, 5, 5⟩] }, prf := { z.prf with tiles := [(0, { logical := 0 })] }, eng := { z.eng with ltiles := [(0, { frame := some 3 })] } }), 0, 3, 0, by decide +kernel, by decide +kernel, by decide +kernel, by decide +kernel, by decide +kernel, by decide +kernel, by decide +kernel, by decide +kernel, all_of_option (by decide +kernel)⟩⟩

theorem test_hypotheses_KeeperVotesAndTilesFail :
    (∃ s : State, ∃ w x y : Word, keeperRuns s = true ∧ voters s = [0, 1, 2] ∧ x ≠ w ∧ y ≠ w ∧ x ≠ y) ∧
    (∃ s : State, ∃ w x : Word, keeperRuns s = true ∧ voters s = [0, 1, 2] ∧ x ≠ w) ∧
    (∃ s : State, ∃ k, keeperRuns s = true ∧ k < 3 ∧ s.eng.voting.getD k true = false ∧ s.eng.kRetired.getD k false = false ∧
      s.prf.loads = [] ∧ (s.eng.framesOn = true → s.eng.frames % 1200 = 0 ∧ ∀ g, s.eng.leftIn.getD k none = some g →
      g < s.eng.frames)) ∧
    (∃ s : State, ∃ k, keeperRuns s = true ∧ k < 3 ∧ s.eng.voting.getD k true = false ∧ s.eng.kRetired.getD k false = false ∧
      s.prf.loads = [] ∧ (s.eng.framesOn = true → s.eng.frames % 1200 = 0 ∧ ∀ g, s.eng.leftIn.getD k none = some g →
      g < s.eng.frames)) ∧
    (∃ s : State, s.eng.framesOn = true ∧ s.eng.frames % 1200 ≠ 0) ∧
    (∃ s : State, ∃ t p, keeperRuns s = true ∧ s.prf.done = true ∧ (getLt s t).lost = false ∧
      s.prf.loads.find? (fun l => l.logical == t) = none ∧ physOf s t = some p ∧ s.adm.late.contains t = false) ∧
    (∃ s : State, ∃ t p, keeperRuns s = true ∧ s.prf.done = true ∧ (getLt s t).lost = false ∧
      s.prf.loads.find? (fun l => l.logical == t) = none ∧ physOf s t = some p ∧ s.adm.late.contains t = false) ∧
    (∃ s : State, ∃ l ls, s.prf.loads = l :: ls ∧ keeperRuns s = true ∧ l.retired ≠ l.spare) ∧
    (∃ s : State, ∃ p, keeperRuns s = true ∧ (sparesLeft s).contains p = true) ∧
    (∃ s : State, keeperRuns s = true ∧ (∀ at_, s.prf.sramScrubAt = some at_ → at_ + 10000 ≤ s.now)) ∧
    (∃ s : State, ∃ n e, s.rst.held = false ∧ n < 8 ∧ (getArb s n).owner = some portSram ∧ e ∈ s.prf.sramTurns ∧ e.1 = n) ∧
    (∃ s : State, ∃ at_, s.prf.sramScrubAt = some at_ ∧ s.now < at_ + 10000) :=
  ⟨⟨(wArm wPlate 9), 1#40, 2#40, 3#40, by decide +kernel⟩,
   ⟨(wArm wPlate 9), 1#40, 2#40, by decide +kernel⟩,
   ⟨(let z := wArm wPlate 9; { z with eng := { z.eng with voting := [true, false, true], frames := 2400 } }), 1,
     by decide +kernel⟩,
   ⟨(let z := wArm wPlate 9; { z with eng := { z.eng with voting := [true, false, true], frames := 2400 } }), 1,
     by decide +kernel⟩,
   ⟨(let z := wArm wPlate 9; { z with eng := { z.eng with voting := [true, false, true], framesOn := true, frames := 2401 } }),
     by decide +kernel⟩,
   ⟨(let z := wArm wPlate 9; { z with prf := { z.prf with done := true, tiles := [(4, { logical := 3 })] } }), 3, 4,
     by decide +kernel⟩,
   ⟨(let z := wArm wPlate 9;
     { z with eng := { z.eng with framesOn := true }, prf := { z.prf with done := true, tiles := [(4, { logical := 3 }), (9, { st := 1 })] } }), 3, 4, by decide +kernel⟩,
   ⟨(let z := wArm wPlate 9; { z with prf := { z.prf with loads := [(⟨3, 4, 9, 0⟩ : MigLoad)] } }), (⟨3, 4, 9, 0⟩ : MigLoad),
     [], by decide +kernel⟩,
   ⟨(let z := wArm wPlate 9; { z with prf := { z.prf with tiles := [(9, { st := 1 })] } }), 9, by decide +kernel⟩,
   ⟨(wArm wPlate 9), by decide +kernel, all_of_option (by decide +kernel)⟩,
   ⟨(let z := wArm wPlate 9;
     { z with prf := { z.prf with sramTurns := [(3, [400])] }, spn := { z.spn with arbs := [(3, { owner := some 202 })] } }),
     3, ((3, [400]) : Nat × List Nat), by decide +kernel⟩,
   ⟨(let z := wArm wPlate 9; { z with prf := { z.prf with sramScrubAt := some 5 } }), 5, by decide +kernel⟩⟩

theorem test_hypotheses_UnitsRaiseAndClearSources :
    (∃ s : State, ∃ n q, s.rst.held = false ∧ isSrc n = true ∧ noRails n = false ∧ fatalAtOnce n = false ∧
      injected s.flt n = false ∧ srcUnit n q = true ∧ (getSrc s.flt n).cause = false) ∧
    (∃ s : State, ∃ n q, s.rst.held = false ∧ isSrc n = true ∧ noRails n = false ∧ fatalAtOnce n = false ∧
      injected s.flt n = false ∧ srcUnit n q = true ∧ (getSrc s.flt n).cause = false) ∧
    (∃ s : State, ∃ n q, s.rst.held = false ∧ isSrc n = true ∧ noRails n = false ∧ fatalAtOnce n = false ∧
      injected s.flt n = false ∧ srcUnit n q = true ∧ (getSrc s.flt n).cause = false) ∧
    (∃ s : State, ∃ n, s.rst.held = false ∧ isSrc n = true ∧ noRails n = false ∧ fatalAtOnce n = false ∧
      injected s.flt n = false ∧ (getSrc s.flt n).broken = false) ∧
    (∃ s : State, ∃ n, s.rst.held = false ∧ isSrc n = true ∧ noRails n = false ∧ injected s.flt n = false ∧
      ((getSrc s.flt n).broken = true → (getSrc s.flt n).brokenAt + 1000000 ≤ s.now) ∧
      causeStands (unitRecovers (lineMended s n) n) n = false) ∧
    (∃ s : State, ∃ n, s.rst.held = false ∧ isSrc n = true ∧ noRails n = false ∧ injected s.flt n = false ∧
      ((getSrc s.flt n).broken = true → (getSrc s.flt n).brokenAt + 1000000 ≤ s.now) ∧
      causeStands (unitRecovers (lineMended s n) n) n = false) :=
  ⟨⟨w0, 0x5F, 71, by decide +kernel⟩,
   ⟨w0, 0x12, 8, by decide +kernel⟩,
   ⟨w0, 0x03, 8, by decide +kernel⟩,
   ⟨w0, 0x35, by decide +kernel⟩,
   ⟨(wUp { w0 with now := 10000000, mns := { w0.mns with seqOkSince := some 0 } } 0x35 { uncleared := true, cause := true }),
     0x35, by decide +kernel⟩,
   ⟨(wUp { w0 with now := 2000000 } 0x5F { uncleared := true, cause := true, broken := true, brokenAt := 1000000 }), 0x5F,
     by decide +kernel⟩⟩

theorem test_hypotheses_FatalResetsFollow :
    (∃ s : State, ∃ a, s.flt.fatalAt = some a ∧ s.rst.held = false ∧ a + 1000000 ≤ s.now) ∧
    (∃ s : State, s.rst.held = false ∧ resetDue s = true) ∧
    (∃ s : State, s.rst.held = false ∧ s.flt.fatal = false ∧ Raisable s 0x05 ∧ (cfgOf s.flt 0x05).1 = .fatal ∧
      ((getSrc s.flt 0x05).uncleared = false ∨ (getSrc s.flt 0x05).acked = true)) ∧
    (∃ s : State, ∃ code, s.rst.held = false ∧ s.start.state = .fatalService ∧ s.flt.fatalRecorded = false ∧
      s.recr.chunk = none ∧ huOpen s = false ∧ canStore (senseHoldup s code) chunkStore = true ∧
      (fatalSector (senseHoldup s code)).isSome = true) ∧
    (∃ s : State, ∃ code, s.rst.held = false ∧ s.start.state = .fatalService ∧ s.flt.fatalRecorded = false ∧
      s.recr.chunk = none ∧ huOpen s = false ∧ canStore (senseHoldup s code) chunkStore = false) :=
  ⟨⟨({ wArm wPlate 2000000 with flt := { w0.flt with fatal := true, fatalAt := some 1000000, fatalSrc := 4, resetAt := some 5 } }), 1000000, by decide +kernel⟩,
   ⟨({ wArm wPlate 2000000 with flt := { w0.flt with fatal := true, fatalAt := some 1000000, fatalSrc := 4, resetAt := some 5 } }), by decide +kernel⟩,
   ⟨(wArm wPlate 9), by decide +kernel⟩,
   ⟨({ wArm wPlate 2000000 with start := { w0.start with state := .fatalService }, flt := { w0.flt with fatal := true, fatalSrc := 4 } }), 4095, by decide +kernel⟩,
   ⟨({ wArm wPlate 2000000 with start := { w0.start with state := .fatalService }, flt := { w0.flt with fatal := true, fatalSrc := 4 } }), 0, by decide +kernel⟩⟩

theorem test_hypotheses_WatchdogAndBeacon :
    (∃ s : State, wdogRuns s = true ∧ s.flt.earlyMs * 1000 ≤ s.now - s.flt.wdogKick ∧
      s.now - s.flt.wdogKick < s.flt.lateMs * 1000) ∧
    (∃ s : State, wdogRuns s = true ∧ s.flt.earlyMs * 1000 ≤ s.now - s.flt.wdogKick ∧
      s.now - s.flt.wdogKick < s.flt.lateMs * 1000) ∧
    (∃ s : State, wdogRuns s = true ∧
      (s.now - s.flt.wdogKick < s.flt.earlyMs * 1000 ∨ s.flt.lateMs * 1000 ≤ s.now - s.flt.wdogKick)) ∧
    (∃ s : State, wdogRuns s = true ∧
      (s.now - s.flt.wdogKick < s.flt.earlyMs * 1000 ∨ s.flt.lateMs * 1000 ≤ s.now - s.flt.wdogKick)) ∧
    (∃ s : State, wdogRuns s = true ∧ s.flt.wdogKick + s.flt.lateMs * 1000 ≤ s.now) ∧
    (∃ s : State, ∃ a, s.flt.hungAt = some a ∧ s.rst.held = false ∧ a + 1000 ≤ s.now ∧ s.flt.expiries < 3) ∧
    (∃ s : State, ∃ a, s.flt.hungAt = some a ∧ s.rst.held = false ∧ a + 1000 ≤ s.now ∧ 3 ≤ s.flt.expiries ∧
      s.flt.fatal = false ∧ Raisable s 0x01 ∧ (cfgOf s.flt 0x01).1 = .fatal ∧
      ((getSrc s.flt 0x01).uncleared = false ∨ (getSrc s.flt 0x01).acked = true)) ∧
    (∃ s : State, beaconRuns s = true ∧ s.flt.beaconAt + 250000 ≤ s.now) ∧
    (∃ s : State, beaconRuns s = false) :=
  ⟨⟨(wDog 10000), by decide +kernel⟩,
   ⟨(wDog 399999), by decide +kernel⟩,
   ⟨(wDog 9999), by decide +kernel⟩,
   ⟨(wDog 400000), by decide +kernel⟩,
   ⟨(wDog 400000), by decide +kernel⟩,
   ⟨({ wArm wPlate 2000 with flt := { w0.flt with wdogOn := true, hungAt := some 1000, expiries := 2 } }), 1000,
     by decide +kernel⟩,
   ⟨({ wArm wPlate 2000 with flt := { w0.flt with wdogOn := true, hungAt := some 1000, expiries := 3 } }), 1000,
     by decide +kernel⟩,
   ⟨(wDog 250000), by decide +kernel⟩,
   ⟨(wUp (wDog 250000) 4 { uncleared := true, eff := .fatal }), by decide +kernel⟩⟩

theorem test_hypotheses_RecordsReachTheArray :
    (∃ s : State, ∃ code unit a b, s.rst.held = false ∧ isEventCode code = true ∧ eventUnit code unit a = true ∧
      eventParams code a b = true ∧ code ≠ 0x000A ∧ s.recr.buf.length < 256 ∧ (∀ y, s.recr.buf.getLast? = some y →
      isRepeat y code unit a b = false) ∧ s.recr.dropSince = 0) ∧
    (∃ s : State, ∃ x xs, s.recr.buf = x :: xs ∧ s.rst.held = false ∧ x.at_ + 3600000000 ≤ s.now) ∧
    (∃ s : State, chunkMay s = true ∧ s.recr.flushing = true ∧ chunkQueued s = false ∧ s.recr.clears = [] ∧ s.recr.buf = []) ∧
    (∃ s : State, ∃ code x xs, chunkMay s = true ∧ s.recr.flushing = true ∧ chunkQueued s = false ∧ s.recr.clears = [] ∧
      chunkFrom s = x :: xs ∧ s.recr.aheadChecked = true ∧ (sectorFull s = true → s.recr.aheadOk = true) ∧
      mayStoreNow s = true ∧ canStore (senseHoldup s code) chunkStore = true) ∧
    (∃ s : State, ∃ code x xs, chunkMay s = true ∧ s.recr.flushing = true ∧ chunkQueued s = false ∧ s.recr.clears = [] ∧
      chunkFrom s = x :: xs ∧ s.recr.aheadChecked = true ∧
      (mayStoreNow s = false ∨ canStore (senseHoldup s code) chunkStore = false)) ∧
    (∃ s : State, ∃ q x, s.rst.held = false ∧ s.recr.chunk.isSome = true ∧ s.flt.fatalAt = none ∧
      (getBank s.nvm 2).hand = some q ∧ q.kind = .chunk ∧ q.owner = .chunk ∧ q.words = [x] ∧ q.second = false ∧
      s.recr.clears = [] ∧ locBank x.1 = 2 ∧ wordOut s.nvm q x false = .programmed ∧ (getBank s.nvm 2).turns = [] ∧
      s.pwr.queue = [] ∧ s.pwr.waiting = []) :=
  ⟨⟨(wArm wPlate 9), 0x2002, 1, 1#40, 2#40, by decide +kernel, by decide +kernel, by decide +kernel, by decide +kernel,
    by decide +kernel, by decide +kernel, all_of_option (by decide +kernel), by decide +kernel⟩,
   ⟨(wBuf 3600000000), wRec, [], by decide +kernel⟩,
   ⟨({ wBuf 5 with recr := { (wBuf 5).recr with buf := [] } }), by decide +kernel⟩,
   ⟨(wWarn (wBuf 5)), 4095, wRec, [], by decide +kernel⟩,
   ⟨(wWarn (wBuf 5)), 0, wRec, [], by decide +kernel⟩,
   ⟨({ wBuf 5 with recr := { (wBuf 5).recr with chunk := some wChunk }, nvm := { w0.nvm with bank2 := { hand := some ({ kind := .chunk, owner := .chunk, words := [(1048581, 6#40)], started := true } : Store) } } }), ({ kind := .chunk, owner := .chunk, words := [(1048581, 6#40)], started := true } : Store), (1048581, 6#40), by decide +kernel⟩⟩

theorem test_hypotheses_SamplesBecomeValues :
    (∃ s : State, ∃ x xs, s.fe.conv = x :: xs) ∧
    (∃ s : State, ∃ x xs c v, s.fe.conv = x :: xs ∧ frontOn s = true ∧ scanCfg s x.value = some c ∧ valCfg s x.value = some v ∧
      pairIdx s x.value = none ∧ (getVal s x.value).forced = false) ∧
    (∃ s : State, ∃ k p, s.plt.plate.pairs[k]? = some p ∧ frontOn s = true ∧ (getPair s k).run = true ∧
      (getPair s k).dis = false ∧ p.limitMs * 1000 ≤ timerUs s.now (getPair s k) ∧ injected s.flt 0x2B = false) ∧
    (∃ s : State, ∃ k p, s.plt.plate.pairs[k]? = some p ∧ frontOn s = true ∧ (getPair s k).run = true ∧
      (getPair s k).dis = true ∧ p.limitMs * 1000 ≤ timerUs s.now (getPair s k)) ∧
    (∃ s : State, ∃ n c, swCfg s n = some c ∧ frontOn s = true) ∧
    (∃ s : State, frontOn s = true) :=
  ⟨⟨({ w0 with fe := { w0.fe with conv := [wSample] } }), wSample, [], by decide +kernel⟩,
   ⟨(let z := wFront 9; { z with fe := { z.fe with conv := [wSample] } }), wSample, [], wScan, wVal, by decide +kernel⟩,
   ⟨(let z := wArm { wFePlate with pairs := [wPair] } 200000;
     { z with sw := { z.sw with pairs := [(0, { run := true, since := some 0 })] } }), 0, wPair, by decide +kernel⟩,
   ⟨(let z := wArm { wFePlate with pairs := [wPair] } 200000;
     { z with sw := { z.sw with pairs := [(0, { run := true, dis := true, since := some 0 })] } }), 0, wPair,
     by decide +kernel⟩,
   ⟨(wFront 9), 3, wSw, by decide +kernel⟩,
   ⟨(wFront 9), by decide +kernel⟩⟩

theorem test_hypotheses_SlicesTurnRotateAndFail :
    (∃ s : State, ∃ l n e c, listSlice s l = some n ∧ convOn s = true ∧ (getSlice s n).calKind = none ∧
      (getList s l).cur = some e ∧ (getList s l).aborted = false ∧ (getList s l).lastTurn ≤ turnNow s ∧ scanCfg s e = some c ∧
      s.fe.conv.length < 256) ∧
    (∃ s : State, ∃ l n e c, listSlice s l = some n ∧ convOn s = true ∧ (getSlice s n).calKind = none ∧
      (getList s l).cur = some e ∧ (getList s l).aborted = false ∧ (getList s l).lastTurn ≤ turnNow s ∧ scanCfg s e = some c ∧
      s.fe.conv.length < 256) ∧
    (∃ s : State, ∃ l n e, listSlice s l = some n ∧ convOn s = true ∧ (getSlice s n).calKind = none ∧
      (getList s l).cur = some e ∧ (getList s l).aborted = true) ∧
    (∃ s : State, ∃ l n, listSlice s l = some n ∧ convOn s = true ∧ (getSlice s n).calKind = none ∧ (getList s l).cur = none ∧
      (getList s l).lastTurn ≤ turnNow s ∧ listFrozen s l = false ∧ (getList s l).wd = true) ∧
    (∃ s : State, ∃ l n e c, listSlice s l = some n ∧ convOn s = true ∧ (getSlice s n).calKind = none ∧
      (getList s l).cur = none ∧ (getList s l).lastTurn ≤ turnNow s ∧ listFrozen s l = false ∧ (getList s l).wd = false ∧
      choiceAt s l (getList s l) = some e ∧ valueBlanked s e = false ∧ scanCfg s e = some c) ∧
    (∃ s : State, ∃ l n, listSlice s l = some n ∧ convOn s = true ∧ (getSlice s n).calKind = none ∧ (getList s l).cur = none ∧
      (getList s l).lastTurn ≤ turnNow s ∧ listFrozen s l = false ∧ (getList s l).wd = false ∧
      choiceAt s l (getList s l) = none) ∧
    (∃ s : State, ∃ n k ref, s.fe.slices.length = 6 ∧ n < 6 ∧ (getSlice s n).calKind = some k ∧ convOn s = true ∧
      refOk ref = true) ∧
    (∃ s : State, ∃ n k ref, s.fe.slices.length = 6 ∧ n < 6 ∧ (getSlice s n).calKind = some k ∧ convOn s = true ∧
      refOk ref = false ∧ calSpoilt s n = false) ∧
    (∃ s : State, ∃ n k, s.fe.slices.length = 6 ∧ n < 6 ∧ (getSlice s n).calKind = some k ∧ convOn s = true ∧
      calSpoilt s n = true) ∧
    (∃ s : State, ∃ i o, convOn s = true ∧ s.fe.rotOn = true ∧ s.plt.plate.rotateS ≠ 0 ∧
      s.fe.rotAt + s.plt.plate.rotateS * 1000000 ≤ s.now ∧ s.fe.overlap = none ∧ s.fe.slices.length = 6 ∧
      (rangeFrom 0 6).find? (fun n => (getSlice s n).st == 2) = some i ∧ outgoing s = some o) ∧
    (∃ s : State, ∃ o, s.fe.overlap = some o ∧ o.ready = true ∧ atBoundary s (getSlice s o.out).list = true) ∧
    (∃ s : State, ∃ o, s.fe.overlap = some o ∧ (o.ready = false ∨ atBoundary s (getSlice s o.out).list = false)) ∧
    (∃ s : State, ∃ n, s.fe.slices.length = 6 ∧ n < 6 ∧ convOn s = true ∧ (getSlice s n).st ≠ 5) ∧
    (∃ s : State, ∃ k, s.rst.held = false ∧ k < 7 ∧ (k < 4 → ballHeard s (.blank k) = true) ∧ s.fe.trig.length = 7 ∧
      s.fe.trigEnd.length = 7 ∧ convOn s = false) ∧
    (∃ s : State, ∃ k, s.rst.held = false ∧ k < 7 ∧ (k < 4 → ballHeard s (.blank k) = true) ∧ s.fe.trig.length = 7 ∧
      s.fe.trigEnd.length = 7 ∧ convOn s = false) ∧
    (∃ s : State, ∃ k, s.rst.held = false ∧ k < 7 ∧ (k < 4 → ballHeard s (.blank k) = true) ∧ s.fe.trig.length = 7 ∧
      s.fe.trigEnd.length = 7 ∧ convOn s = true) ∧
    (∃ s : State, ∃ k, s.rst.held = false ∧ k < 7 ∧ (k < 4 → ballHeard s (.blank k) = true) ∧ s.fe.trig.length = 7 ∧
      s.fe.trigEnd.length = 7 ∧ convOn s = true) ∧
    (∃ s : State, ∃ k, k < 7 ∧ (k < 4 ∨ s.fe.trigEnd.getD k 0 ≤ s.now)) ∧
    (∃ s : State, ∃ k, k < 7 ∧ (k < 4 ∨ s.fe.trigEnd.getD k 0 ≤ s.now)) ∧
    (∃ s : State, ∃ i c a, scanCfg s i = some c ∧ tget none s.fe.blankSince i = some a ∧ convOn s = true ∧
      s.fe.blankStale.contains i = false ∧ c.blankMs * 1000 < s.now - a ∧ injected s.flt 0x2C = false) ∧
    (∃ s : State, ∃ e, convOn s = true ∧ e < 8) ∧
    (∃ s : State, s.rst.held = false ∧ s.fe.refBad = false ∧ injected s.flt 0x31 = false) :=
  ⟨⟨(let z := wFront 20000;
    { z with spn := { z.spn with arbs := [] }, fe := { z.fe with lists := [(0, { cur := some 4, lastTurn := 0 })] } }), 0, 0,
    4, wScan, by decide +kernel⟩,
   ⟨(let z := wFront 20000;
     { z with spn := { z.spn with arbs := [] }, fe := { z.fe with lists := [(0, { cur := some 4, lastTurn := 0 })] } }), 0, 0,
     4, wScan, by decide +kernel⟩,
   ⟨(let z := wFront 20000;
     { z with spn := { z.spn with arbs := [] }, fe := { z.fe with lists := [(0, { cur := some 4, aborted := true, lastTurn := 0 })] } }), 0, 0, 4, by decide +kernel⟩,
   ⟨(let z := wFront 20000;
     { z with spn := { z.spn with arbs := [] }, fe := { z.fe with lists := [(0, { lastTurn := 0, wd := true })] } }), 0, 0,
     by decide +kernel⟩,
   ⟨(let z := wFront 20000;
     { z with spn := { z.spn with arbs := [] }, fe := { z.fe with lists := [(0, { next := some 4 })] } }), 0, 0, 4, wScan,
     by decide +kernel⟩,
   ⟨(let z := wFront 20000;
     { z with spn := { z.spn with arbs := [] }, fe := { z.fe with lists := [(0, { lastTurn := 0 })] } }), 0, 0,
     by decide +kernel⟩,
   ⟨(let z := wFront 20000; { z with fe := { z.fe with slices := listSet z.fe.slices 2 { st := 1, calKind := some 0 } } }), 2,
     0, ({} : SliceRef), by decide +kernel⟩,
   ⟨(let z := wFront 20000; { z with fe := { z.fe with slices := listSet z.fe.slices 2 { st := 1, calKind := some 0 } } }), 2,
     0, ({ off1 := 5000000000 } : SliceRef), by decide +kernel⟩,
   ⟨(let z := wFront 20000;
     { z with fe := { z.fe with slices := listSet z.fe.slices 2 { st := 1, calKind := some 0, calBad := true } } }), 2, 0,
     by decide +kernel⟩,
   ⟨(wFront 600000000), 1, 2, by decide +kernel⟩,
   ⟨(let z := wFront 9;
     { z with fe := { z.fe with overlap := some { out := 0, inc := 1, ready := true }, lists := [(0, { cur := none, lastTurn := 9 })] } }), ({ out := 0, inc := 1, ready := true } : Overlap), by decide +kernel⟩,
   ⟨(let z := wFront 9;
     { z with fe := { z.fe with overlap := some { out := 0, inc := 1, ready := true }, lists := [(0, { cur := some 4, lastTurn := 9 })] } }), ({ out := 0, inc := 1, ready := true } : Overlap), by decide +kernel⟩,
   ⟨(wFront 9), 0, by decide +kernel⟩,
   ⟨w0, 6, by decide +kernel⟩,
   ⟨w0, 0, by decide +kernel⟩,
   ⟨(wFront 9), 6, by decide +kernel⟩,
   ⟨(wFront 9), 0, by decide +kernel⟩,
   ⟨(wFront 9), 6, by decide +kernel⟩,
   ⟨(let z := wFront 9; { z with fe := { z.fe with trigEnd := [9, 9, 9, 9, 9, 9, 9] } }), 3, by decide +kernel⟩,
   ⟨(let z := wFront 100000; { z with fe := { z.fe with blankSince := [(4, some 0)] } }), 4, wScan, 0, by decide +kernel⟩,
   ⟨(wFront 9), 7, by decide +kernel⟩,
   ⟨(wFront 9), by decide +kernel⟩⟩

theorem test_hypotheses_MainsReadingsAreTaken :
    (∃ s : State, ∃ c, mnsCfg s = some c) ∧
    (∃ s : State, ∃ c, mnsCfg s = some c ∧ 3 * mainsPeriod c ≤ 2 * (s.now - s.mns.cycleAt)) ∧
    (∃ s : State, ∃ c, mnsCfg s = some c) ∧
    (∃ s : State, ∃ c, mnsCfg s = some c) :=
  ⟨⟨(wMns 5), wIsl, by decide +kernel⟩,
   ⟨(wMns 30000), wIsl, by decide +kernel⟩,
   ⟨(wMns 5), wIsl, by decide +kernel⟩,
   ⟨(wMns 5), wIsl, by decide +kernel⟩⟩

theorem test_hypotheses_FansTripAndFog :
    (∃ s : State, ∃ ys : List (Nat × Nat × Nat), ∃ ch e p c, frontOn s = true ∧ (∀ a, s.fan.pubAt = some a →
      a + 98000 ≤ s.now) ∧ islRuns s 5 = true ∧ fanCfg s ch = some c ∧ ch < 32 ∧ tachUndefined e p = false ∧ (∀ y ∈ ys,
      y.1 ≠ ch)) ∧
    (∃ s : State, ∃ ys : List (Nat × Nat × Nat), ∃ ch e p c, frontOn s = true ∧ (∀ a, s.fan.pubAt = some a →
      a + 98000 ≤ s.now) ∧ islRuns s 5 = true ∧ fanCfg s ch = some c ∧ ch < 32 ∧ tachUndefined e p = false ∧ (∀ y ∈ ys,
      y.1 ≠ ch)) ∧
    (∃ s : State, ∃ a, s.fan.pubAt = some a ∧ s.now < a + 98000) ∧
    (∃ s : State, ∃ d a, tget none s.fan.lossSince d = some a ∧ frontOn s = true ∧ s.fan.lossRaised.contains d = false ∧
      groupStallMs s d * 1000 < s.now - a) ∧
    (∃ s : State, ∃ cause m, m = (if bitsN cause 1 1 == 1 then cause % 8 ||| 4 else cause % 8) ∧ m ≠ 0 ∧
      tripBlocked s = false ∧ s.fan.trip = true) ∧
    (∃ s : State, ∃ cause m, m = (if bitsN cause 1 1 == 1 then cause % 8 ||| 4 else cause % 8) ∧ m ≠ 0 ∧
      tripBlocked s = false ∧ s.fan.trip = true) ∧
    (∃ s : State, ∃ cause m, m = (if bitsN cause 1 1 == 1 then cause % 8 ||| 4 else cause % 8) ∧ m ≠ 0 ∧
      tripBlocked s = false ∧ s.fan.trip = false) ∧
    (∃ s : State, ∃ c, supCfg s = some c ∧ isArmed s = true ∧ s.fan.fog = false ∧ c.hostS ≠ 0 ∧
      s.fan.supFrom + c.hostS * 1000000 ≤ s.now) ∧
    (∃ s : State, ∃ f c, Heard s (hostBus s) (fromHost 2) f ∧ supCfg s = some c) ∧
    (∃ s : State, ∃ ch, islRuns s 5 = true ∧ s.rst.held = false ∧ ch < 32) ∧
    (∃ s : State, ∃ ch c, islRuns s 5 = true ∧ s.rst.held = false ∧ heatCfg s ch = some c ∧ ch < 8) :=
  ⟨⟨(wAt (wArm wAir 9) 12), ([(1, 5, 6)] : List (Nat × Nat × Nat)), 0, 70000, 300000000, wFan, by decide +kernel,
    all_of_option (by decide +kernel), by decide +kernel⟩,
   ⟨(let z := wAt (wArm wAir 98000) 12; { z with fan := { z.fan with pubAt := some 0 } }), ([(1, 5,
     6)] : List (Nat × Nat × Nat)), 0, 70000, 300000000, wFan, by decide +kernel, all_of_option (by decide +kernel),
     by decide +kernel⟩,
   ⟨(let z := wAt (wArm wAir 97999) 12; { z with fan := { z.fan with pubAt := some 0 } }), 0, by decide +kernel⟩,
   ⟨(let z := wArm wAir 9000000; { z with fan := { z.fan with lossSince := [(0, some 0)] } }), 0, 0, by decide +kernel⟩,
   ⟨({ w0 with fan := { w0.fan with trip := true, tripCause := 1 } }), 12, 4, by decide +kernel⟩,
   ⟨({ w0 with fan := { w0.fan with trip := true, tripCause := 1 } }), 2, 6, by decide +kernel⟩,
   ⟨w0, 12, 4, by decide +kernel⟩,
   ⟨(wArm wAir 300000000), wSup, by decide +kernel⟩,
   ⟨(wRx 99 wAir (wFrame 2 0xFE 0 [])), (wFrame 2 0xFE 0 []), wSup, heard_of (by decide +kernel), by decide +kernel⟩,
   ⟨(wArm wAir 9), 31, by decide +kernel⟩,
   ⟨(wArm wAir 9), 0, wHeat, by decide +kernel⟩⟩

theorem test_hypotheses_MotorsAreSupervised :
    (∃ s : State, ∃ ys : List (Nat × Bool), ∃ ch, ballHeard s (.motFb ch) = true ∧ (∀ a, s.mot.pubAt = some a →
      a + 98000 ≤ s.now) ∧ ch < 24 ∧ (∀ y ∈ ys, y.1 ≠ ch)) ∧
    (∃ s : State, ∃ edges : List (Nat × Nat × Nat), ∃ ch k span c, ballHeard s (.motMov ch) = true ∧ (∀ a,
      s.mot.pubAt = some a → a + 98000 ≤ s.now) ∧ motorCfg s ch = some c ∧ ch < 24 ∧ c.nomMov ≠ 0 ∧ islRuns s 5 = true ∧
      edges.find? (·.1 == ch) = some (ch, k, span)) ∧
    (∃ s : State, ∃ a, s.mot.pubAt = some a ∧ s.now < a + 98000) ∧
    (∃ s : State, ∃ ch c, motorCfg s ch = some c ∧ isArmed s = true ∧ (getMot s ch).st = 1 ∧
      (getMot s ch).grantAt + c.prove * 100000 ≤ s.now ∧ (proves s c = false ∨ c.nomMov ≠ 0) ∧ injected s.flt 0x3E = false) ∧
    (∃ s : State, ∃ ch c, motorCfg s ch = some c ∧ isArmed s = true ∧ (getMot s ch).st = 1 ∧
      (getMot s ch).grantAt + c.prove * 100000 ≤ s.now ∧ proves s c = true ∧ c.nomMov = 0) ∧
    (∃ s : State, ∃ ch c, motorCfg s ch = some c ∧ isArmed s = true ∧ sinks (getMot s ch).st = true ∧
      (getMot s ch).proved = true ∧ (getMot s ch).fb = false ∧ (getMot s ch).fbSince + 1000000 ≤ s.now ∧
      injected s.flt 0x42 = false) ∧
    (∃ s : State, ∃ ch c a, motorCfg s ch = some c ∧ ballHeard s (.motFb ch) = true ∧ (getMot s ch).releasedAt = some a ∧
      sinks (getMot s ch).st = false ∧ (getMot s ch).fb = true ∧ (getMot s ch).welded = false ∧ (getMot s ch).fbSince ≤ a ∧
      a + 2000000 ≤ s.now ∧ injected s.flt 0x42 = false) ∧
    (∃ s : State, ∃ ch c, motorCfg s ch = some c ∧ routeDue s c = true ∧ ((getMot s ch).st = 1 ∨ (getMot s ch).st = 2)) ∧
    (∃ s : State, ∃ ch c, motorCfg s ch = some c ∧ routeDue s c = true ∧ ((getMot s ch).st = 1 ∨ (getMot s ch).st = 2)) ∧
    (∃ s : State, ∃ ch a, (getMot s ch).stopAt = some a ∧ (getMot s ch).st = 3 ∧ a ≤ s.now) :=
  ⟨⟨w0, ([(1, true)] : List (Nat × Bool)), 23, by decide +kernel, all_of_option (by decide +kernel), by decide +kernel⟩,
   ⟨(wArm { motors := [({ wMotor with nomMov := 60 } : MotorCfg)] } 5000000), ([(0, 70000, 5)] : List (Nat × Nat × Nat)), 0,
     70000, 5, ({ wMotor with nomMov := 60 } : MotorCfg), by decide +kernel, all_of_option (by decide +kernel),
     by decide +kernel⟩,
   ⟨(let z := wAt (wArm wAir 97999) 12; { z with mot := { z.mot with pubAt := some 0 } }), 0, by decide +kernel⟩,
   ⟨(wOvr (wMot (wArm wAir 5000000) { st := 1 }) 1 1), 0, wMotor, by decide +kernel⟩,
   ⟨(wOvr (wMot (wArm wAir 5000000) { st := 1, fb := true }) 1 1), 0, wMotor, by decide +kernel⟩,
   ⟨(wOvr (wMot (wArm wAir 5000000) { st := 2, proved := true }) 1 1), 0, wMotor, by decide +kernel⟩,
   ⟨(wMot (wArm wAir 5000000) { st := 0, fb := true, releasedAt := some 7 }), 0, wMotor, 7, by decide +kernel⟩,
   ⟨(wMot (wArm wAir 5000000) { st := 2 }), 0, wMotor, by decide +kernel⟩,
   ⟨(let z := wArm { motors := [wMotor, { wMotor with ch := 1, down := 0 }] } 5000000;
     { z with mot := { z.mot with chs := [(0, { st := 2 }), (1, { st := 2, proved := true })] } }), 0, wMotor,
     by decide +kernel⟩,
   ⟨(wMot (wArm wAir 5000000) { st := 3, stopAt := some 7 }), 0, 7, by decide +kernel⟩⟩

theorem test_hypotheses_GatesAndHeatAreSupervised :
    (∃ s : State, ∃ ch c z, gateCfg s ch = some c ∧ gateAsk s ch = some z ∧ isArmed s = true ∧ (getGat s ch).target ≠ some z) ∧
    (∃ s : State, ∃ ch c z, gateCfg s ch = some c ∧ (∀ g ∈ s.plt.plate.gates, g.ch = ch → g = c) ∧ ch < 16 ∧
      (getGat s ch).target = some z ∧ (getGat s ch).drive = 3 ∧ (getGat s ch).pauseEnd ≤ s.now ∧
      (getGat s ch).relAt + 200000 ≤ s.now) ∧
    (∃ s : State, ∃ ch, (getGat s ch).drive = 3 ∧ s.now < (getGat s ch).pauseEnd) ∧
    (∃ s : State, ∃ ch c a, gateCfg s ch = some c ∧ (getGat s ch).moveAt = some a ∧ ch < 16 ∧ isArmed s = true ∧
      a + c.travelMs * 1000 ≤ s.now ∧ injected s.flt 0x44 = false) ∧
    (∃ s : State, ∃ ch c, gateCfg s ch = some c ∧ ch < 16 ∧ isArmed s = true ∧ (getGat s ch).moveAt.isSome = true ∧
      gateStill s.now c (getGat s ch).track = true ∧ injected s.flt 0x45 = false) ∧
    (∃ s : State, ∃ ch, (heatCfg s ch).isSome = true ∧ ch < 8 ∧ ballHeard s (.heatPmt ch) = true) ∧
    (∃ s : State, ∃ ch, (heatCfg s ch).isSome = true ∧ isArmed s = true ∧ (getHtd s ch).pmt = false ∧
      (getHtd s ch).pmtBad = false ∧ heldFor s.now (getHtd s ch).lackSince 2000000 = true ∧ injected s.flt 0x46 = false) :=
  ⟨⟨(wOvr (wArm wAir 9) 2 7), 0, wGate, 7, by decide +kernel⟩,
   ⟨(wOvr (setGat (wArm wAir 50000000) 0 { drive := 3, target := some 7 }) 2 7), 0, wGate, 7, by decide +kernel⟩,
   ⟨(wOvr (setGat (wArm wAir 50000000) 0 { drive := 3, target := some 7, pauseEnd := 50000001 }) 2 7), 0, by decide +kernel⟩,
   ⟨(wOvr (setGat (wArm wAir 50000000) 0 { target := some 7, moveAt := some 0 }) 2 7), 0, wGate, 0, by decide +kernel⟩,
   ⟨(wOvr (setGat (wArm wAir 50000000) 0 { target := some 7, drive := 2, moveAt := some 0, track := [(0, 5)] }) 2 7), 0, wGate,
     by decide +kernel⟩,
   ⟨(wArm wAir 9), 0, by decide +kernel⟩,
   ⟨(setHtd (wArm wAir 9000000) 0 { lackSince := some 0 }), 0, by decide +kernel⟩⟩

theorem test_hypotheses_CalendarKeepsTime :
    (∃ s : State, s.cal.atEnd = false ∧ calGoesOn s.cal = true) ∧
    (∃ s : State, s.cal.atEnd = false ∧ calGoesOn s.cal = false) ∧
    (∃ s : State, s.cal.xtRun = true) ∧
    (∃ s : State, s.cal.xtRun = false) ∧
    (∃ s : State, ∃ d e n, keeperRuns s = true ∧ s.plt.admitted = true ∧ s.cal.evalDue = some d ∧ calUsable s.cal = true ∧
      s.plt.plate.scheds = [e] ∧ schedMatch e (dateOf d) = true ∧ schedSects s e.entry = [n] ∧ isArmed s = true ∧
      (getSect s n).st = 1 ∧ s.fan.fog = false ∧ tripBars s n = false) ∧
    (∃ s : State, ∃ d e, keeperRuns s = true ∧ s.plt.admitted = true ∧ s.cal.evalDue = some d ∧ calUsable s.cal = false ∧
      s.plt.plate.scheds = [e] ∧ schedSects s e.entry ≠ [] ∧ s.recr.buf = []) :=
  ⟨⟨w0, by decide +kernel⟩,
   ⟨({ w0 with cal := { w0.cal with utc := 2 ^ 40 } }), by decide +kernel⟩,
   ⟨({ w0 with cal := { w0.cal with xtRun := true } }), by decide +kernel⟩,
   ⟨({ w0 with cal := { w0.cal with xtRun := false } }), by decide +kernel⟩,
   ⟨(let z := wArm { sects := [{ wSect with auto := 2, cond := 1 }], scheds := [wSched] } 9; setSect
     { z with cal := { z.cal with valid := true, xtRun := true, evalDue := some 0 } } 0 { st := 1 }), 0, wSched, 0,
     by decide +kernel⟩,
   ⟨(let z := wArm { sects := [{ wSect with auto := 2, cond := 1 }], scheds := [wSched] } 9; setSect
     { z with cal := { z.cal with valid := false, xtRun := true, evalDue := some 0 } } 0 { st := 1 }), 0, wSched,
     by decide +kernel⟩⟩

theorem test_hypotheses_MailboxesLoadAndSend :
    (∃ s : State, ∃ n e es m, canRuns s n = true ∧ (getCan (loadReady s n) n).load = e :: es ∧
      mbFor (loadReady s n) n e = some m) ∧
    (∃ s : State, ∃ n m b, tget none (getCan s n).mbs m = some b ∧ canRuns s n = true) ∧
    (∃ s : State, ∃ n m b, tget none (getCan s n).mbs m = some b ∧ canRuns s n = true) ∧
    (∃ s : State, ∃ n m b c, (getArb s (18 + n)).owner = some m ∧ canRuns s n = true ∧ onBus (getCan s n) = true ∧
      tget none (getCan s n).mbs m = some b ∧ (getCan s n).cfg = some c) ∧
    (∃ s : State, ∃ n err, canRuns s n = true ∧ 1 ≤ err ∧ err ≤ 5 ∧ onBus (getCan s n) = true ∧ (getCan s n).pexWait = false) ∧
    (∃ s : State, ∃ n err, canRuns s n = true ∧ 1 ≤ err ∧ err ≤ 5 ∧ onBus (getCan s n) = true ∧ (getCan s n).pexWait = false) ∧
    (∃ s : State, ∃ n err, canRuns s n = true ∧ 1 ≤ err ∧ err ≤ 5 ∧ onBus (getCan s n) = true ∧ (getCan s n).pexWait = false) ∧
    (∃ s : State, ∃ n err, canRuns s n = true ∧ 1 ≤ err ∧ err ≤ 5 ∧ onBus (getCan s n) = true ∧ (getCan s n).pexWait = false) ∧
    (∃ s : State, ∃ n err, canRuns s n = true ∧ 1 ≤ err ∧ err ≤ 5 ∧ onBus (getCan s n) = true ∧ (getCan s n).pexWait = false) ∧
    (∃ s : State, ∃ n err, canRuns s n = true ∧ 1 ≤ err ∧ err ≤ 5 ∧ onBus (getCan s n) = true ∧ (getCan s n).pexWait = false) ∧
    (∃ s : State, ∃ n err, canRuns s n = true ∧ 1 ≤ err ∧ err ≤ 5 ∧ onBus (getCan s n) = true ∧ (getCan s n).pexWait = false) ∧
    (∃ s : State, ∃ n err, canRuns s n = true ∧ 1 ≤ err ∧ err ≤ 5 ∧ onBus (getCan s n) = true ∧ (getCan s n).pexWait = false) ∧
    (∃ s : State, ∃ n err, canRuns s n = true ∧ 1 ≤ err ∧ err ≤ 5 ∧ onBus (getCan s n) = true ∧ (getCan s n).pexWait = false) ∧
    (∃ s : State, ∃ n err, canRuns s n = true ∧ 1 ≤ err ∧ err ≤ 5 ∧ onBus (getCan s n) = true ∧ (getCan s n).pexWait = false) ∧
    (∃ s : State, ∃ n err, canRuns s n = true ∧ 1 ≤ err ∧ err ≤ 5 ∧ onBus (getCan s n) = true ∧ (getCan s n).pexWait = false) :=
  ⟨⟨(wBus 5000000 wNet { wOn with load := [wEnt] }), 0, wEnt, [], 0, by decide +kernel⟩,
   ⟨(wBus 5000000 wNet { wOn with mbs := [(31, some { frame := wFrame 3 0 0x20 [] })] }), 0, 31,
     ({ frame := wFrame 3 0 0x20 [] } : Mbox), by decide +kernel⟩,
   ⟨(setArb (wBus 5 wNet { wOn with mbs := [(31, some { frame := wFrame 3 0 0x20 [] })] }) 18 { owner := some 31 }), 0, 31,
     ({ frame := wFrame 3 0 0x20 [] } : Mbox), by decide +kernel⟩,
   ⟨(setArb (wBus 5 wNet { wOn with tec := 0, mbs := [(31, some { frame := wFrame 3 0 0x20 [] })] }) 18 { owner := some 31 }),
     0, 31, ({ frame := wFrame 3 0 0x20 [] } : Mbox), wCan, by decide +kernel⟩,
   ⟨(wBus 5000000 wNet wOn), 0, 1, by decide +kernel⟩,
   ⟨(wBus 5000000 wNet wOn), 0, 1, by decide +kernel⟩,
   ⟨(wBus 5000000 wNet wOn), 0, 2, by decide +kernel⟩,
   ⟨(wBus 5000000 wNet wOn), 0, 2, by decide +kernel⟩,
   ⟨(wBus 5000000 wNet wOn), 0, 3, by decide +kernel⟩,
   ⟨(wBus 5000000 wNet wOn), 0, 3, by decide +kernel⟩,
   ⟨(wBus 5000000 wNet wOn), 0, 4, by decide +kernel⟩,
   ⟨(wBus 5000000 wNet wOn), 0, 4, by decide +kernel⟩,
   ⟨(wBus 5000000 wNet wOn), 0, 5, by decide +kernel⟩,
   ⟨(wBus 5000000 wNet wOn), 0, 5, by decide +kernel⟩,
   ⟨(wBus 5000000 wNet { wOn with tec := 255 }), 0, 1, by decide +kernel⟩⟩

theorem test_hypotheses_BusesRecoverAndIntegrate :
    (∃ s : State, ∃ n a c, (getCan s n).pendAt = some a ∧ (getCan s n).cfg = some c ∧ canRuns s n = true ∧ a ≤ s.now ∧
      (getCan s n).st = 4 ∧ s.isl.onRc = false ∧ (attemptsNow s (getCan s n)).length < c.recovN) ∧
    (∃ s : State, ∃ n a c, (getCan s n).pendAt = some a ∧ (getCan s n).cfg = some c ∧ canRuns s n = true ∧ a ≤ s.now ∧
      (getCan s n).st = 4 ∧ s.isl.onRc = false ∧ c.recovN ≤ (attemptsNow s (getCan s n)).length ∧ injected s.flt 0x49 = false) ∧
    (∃ s : State, ∃ n, canRuns s n = true ∧ (getCan s n).st = 5) ∧
    (∃ s : State, ∃ b, canRuns s 0 = true ∧ (getCan s 0).st = 6 ∧ (b = true ∨ 8 ≤ (getCan s 0).goodRx)) ∧
    (∃ s : State, ∃ b, canRuns s 0 = true ∧ (getCan s 0).st = 6 ∧ (b = true ∨ 8 ≤ (getCan s 0).goodRx)) ∧
    (∃ s : State, ∃ n, canRuns s n = true) ∧
    (∃ s : State, ∃ n, canRuns s n = true) ∧
    (∃ s : State, ∃ n c, (getCan s n).cfg = some c ∧ canRuns s n = true ∧ c.fd = true ∧
      (onBus (getCan s n) = true ∨ (getCan s n).st = 6) ∧ (getCan s n).pexWait = false) ∧
    (∃ s : State, ∃ n c, (getCan s n).cfg = some c ∧ canRuns s n = true ∧ c.fd = true ∧
      (onBus (getCan s n) = true ∨ (getCan s n).st = 6) ∧ (getCan s n).pexWait = false) ∧
    (∃ s : State, ∃ n, canRuns s n = true) ∧
    (∃ s : State, ∃ n id, ∃ data : List Byte, canRuns s n = true ∧ (getCan s n).pexWait = false ∧ onBus (getCan s n) = true ∧
      data.length ≤ 8 ∧ id < 2048) ∧
    (∃ s : State, ∃ n id, ∃ data : List Byte, canRuns s n = true ∧ (getCan s n).pexWait = false ∧ onBus (getCan s n) = true ∧
      data.length ≤ 8 ∧ id < 2048 ∧ canMatch (getCan s n) false id = none) ∧
    (∃ s : State, ∃ n id ide, ∃ data : List Byte, ∃ k, canRuns s n = true ∧ (getCan s n).pexWait = false ∧
      onBus (getCan s n) = true ∧ data.length ≤ 8 ∧ id < (if ide then 2 ^ 29 else 2 ^ 11) ∧
      canMatch (getCan s n) ide id = some k ∧ (ide = false ∨ synServes s n = false) ∧ (getCan s n).rx.length < 64) ∧
    (∃ s : State, ∃ n id ide, ∃ data : List Byte, ∃ k, canRuns s n = true ∧ (getCan s n).pexWait = false ∧
      onBus (getCan s n) = true ∧ data.length ≤ 8 ∧ id < (if ide then 2 ^ 29 else 2 ^ 11) ∧
      canMatch (getCan s n) ide id = some k ∧ (ide = false ∨ synServes s n = false) ∧ (getCan s n).rx.length < 64) :=
  ⟨⟨(wBus 5000000 wNet { wOn with st := 4, pendAt := some 5 }), 0, 5, wCan, by decide +kernel⟩,
   ⟨(wBus 5000000 wNet { wOn with st := 4, pendAt := some 5, attempts := [0, 0, 0] }), 0, 5, wCan, by decide +kernel⟩,
   ⟨(wBus 5000000 wNet { wOn with st := 5, tec := 9 }), 0, by decide +kernel⟩,
   ⟨(wBus 5000000 wNet { wOn with st := 6 }), true, by decide +kernel⟩,
   ⟨(wBus 5000000 wNet { wOn with st := 6, goodRx := 8 }), false, by decide +kernel⟩,
   ⟨wInt1, 0, by decide +kernel⟩,
   ⟨wPex, 0, by decide +kernel⟩,
   ⟨wIdle, 0, wCan, by decide +kernel⟩,
   ⟨(wBus 5000000 wNet { wOn with st := 6 }), 0, wCan, by decide +kernel⟩,
   ⟨(wBus 5000000 wNet { wOn with busQ := 2 ^ 31 }), 0, by decide +kernel⟩,
   ⟨(wBus 5000000 wNet wOn), 0, 2047, ([] : List Byte), by decide +kernel⟩,
   ⟨(wBus 5000000 wNet wOn), 0, 2047, ([] : List Byte), by decide +kernel⟩,
   ⟨(wBus 5000000 wNet { wOn with filts := [(5, some ⟨false, 7, 0x7FF⟩)] }), 0, 7, false, ([1#8] : List Byte), 5,
     by decide +kernel⟩,
   ⟨(let z := wBus 5000000 wNet { wOn with filts := [(63, some ⟨true, 7, 0x1FFFFFFF⟩)] };
     { z with isl := { z.isl with onRc := false }, flt := { z.flt with hungAt := some 5 } }), 0, 7, true, ([] : List Byte), 63,
     by decide +kernel⟩⟩

theorem test_hypotheses_NodesAreWatched :
    (∃ s : State, (∀ a, s.syn.hbAt = some a → a + (if s.start.state == .moored then 250000 else nodeUs s / 4) ≤ s.now) ∧
      (rangeFrom 0 4).any (synServes s) = true) ∧
    (∃ s : State, ∃ n f, Heard s n (fromNode 2) f) ∧
    (∃ s : State, ∃ bus node c, synServes s bus = true ∧ s.start.state ≠ .moored ∧ nodeCfg s bus node = some c ∧
      ((getNode s (nodeKey bus node)).st = 2 ∨ (getNode s (nodeKey bus node)).st = 4) ∧
      (getNode s (nodeKey bus node)).hb.getD s.start.step9At + nodeUs s ≤ s.now ∧ injected s.flt 0x4A = false) ∧
    (∃ s : State, ∃ bus node c, synServes s bus = true ∧ s.start.state ≠ .moored ∧ nodeCfg s bus node = some c ∧
      ((getNode s (nodeKey bus node)).st = 2 ∨ (getNode s (nodeKey bus node)).st = 4) ∧
      (getNode s (nodeKey bus node)).hb.getD s.start.step9At + nodeUs s ≤ s.now ∧ injected s.flt 0x4A = false) ∧
    (∃ s : State, plantFlags s ≠ s.syn.plant ∧ (rangeFrom 0 4).any (synServes s) = true ∧ s.start.state ≠ .moored) ∧
    (∃ s : State, 10 ≤ s.start.step ∧ s.start.state ≠ .moored ∧ s.syn.identAll = false) ∧
    (∃ s : State, ∃ bus node c, 10 ≤ s.start.step ∧ s.start.state ≠ .moored ∧ node ≠ 0xFF ∧ synServes s bus = true ∧
      nodeCfg s bus node = some c ∧ ((getNode s (nodeKey bus node)).back = true ∨ ((getNode s (nodeKey bus node)).st = 1 ∧
      s.start.step11 = false ∧ (getNode s (nodeKey bus node)).ask.getD s.start.step9At + 1000000 ≤ s.now))) ∧
    (∃ s : State, ∃ n f, Heard s n (fromNode 4) f) ∧
    (∃ s : State, ∃ n f, Heard s n (fromNode 4) f) :=
  ⟨⟨(wBus 5000000 wNet wOn), all_of_option (by decide +kernel), by decide +kernel⟩,
   ⟨(wHear 9 wBeat), 0, wBeat, heard_of (by decide +kernel)⟩,
   ⟨(wSeen 1000000 2), 0, 7, wNode, by decide +kernel⟩,
   ⟨(wSeen 1000000 4), 0, 7, wNode, by decide +kernel⟩,
   ⟨(let z := wSeen 9 2; { z with fan := { z.fan with fog := true } }), by decide +kernel⟩,
   ⟨(wSeen 9 2), by decide +kernel⟩,
   ⟨(wSeen 9 3), 0, 7, wNode, by decide +kernel⟩,
   ⟨(wHear 9 (wFrame 4 7 0x101 [2#8, 0#8, 0#8, 0#8, 3#8])), 0, (wFrame 4 7 0x101 [2#8, 0#8, 0#8, 0#8, 3#8]),
     heard_of (by decide +kernel)⟩,
   ⟨(wHear 9 (wFrame 4 7 0x102 [])), 0, (wFrame 4 7 0x102 []), heard_of (by decide +kernel)⟩⟩

theorem test_hypotheses_ChannelsAndValuesTravel :
    (∃ s : State, ∃ kind ch r x, resolved s kind ch = some x ∧ remoteOf' s kind ch = some r ∧ isArmed s = true ∧
      (getNode s (nodeKey r.bus r.node)).st = 2 ∧ tget none s.syn.cmds (kind * 256 + ch) = none) ∧
    (∃ s : State, ∃ r c, s.plt.plate.remotes = [r] ∧ r.kind < 4 ∧ remoteOf' s r.kind r.logical = some r ∧ isArmed s = true ∧
      (getNode s (nodeKey r.bus r.node)).st = 2 ∧ tget none s.syn.cmds (r.kind * 256 + r.logical) = some c ∧
      c.at_ + 1000000 ≤ s.now) ∧
    (∃ s : State, ∃ n f r, Heard s n (isStatus s n) f ∧ remoteAt s n f = some r ∧ r.kind = 3 ∧ bitsN (byteAt f 7) 7 6 = 3 ∧
      (heatCfg s r.logical).isSome = true) ∧
    (∃ s : State, ∃ n f r, Heard s n (fun g => idCls g.id == 3 && !isStatus s n g) f ∧ remoteAt s n f = some r ∧ r.kind = 4 ∧
      idSrc f.id ≠ 0xFE ∧ (getVal s r.logical).forced = false) ∧
    (∃ s : State, ∃ n f, Heard s n (fun g => idCls g.id == 5) f) :=
  ⟨⟨(wSeen 9 2), 3, 0, wRem, ((resolved (wSeen 9 2) 3 0).getD (0, 0)), by decide +kernel⟩,
   ⟨(let z := wSeen 5000000 2;
     { z with syn := { z.syn with cmds := [(768, some { level := 5, flags := 1, seq := 255, at_ := 1000000 })] } }), wRem,
     ({ level := 5, flags := 1, seq := 255, at_ := 1000000 } : CmdSt), by decide +kernel⟩,
   ⟨(let z := wRx 9 (wNet) (wFrame 3 7 0x20 (List.replicate 7 0#8 ++ [0xC1#8]));
     { z with syn := { z.syn with nodes := [(nodeKey 0 7, { st := 2 })] } }), 0,
     (wFrame 3 7 0x20 (List.replicate 7 0#8 ++ [0xC1#8])), wRem, heard_of (by decide +kernel), by decide +kernel⟩,
   ⟨(let z := wRx 9 ({ wNet with remotes := [⟨4, 4, 0, 7, 0x21, false⟩] }) (wFrame 3 7 0x21 [1#8, 2#8, 3#8, 4#8,
     5#8]); { z with syn := { z.syn with nodes := [(nodeKey 0 7, { st := 2 })] } }), 0, (wFrame 3 7 0x21 [1#8, 2#8, 3#8, 4#8,
     5#8]), (⟨4, 4, 0, 7, 0x21, false⟩ : RemoteCfg), heard_of (by decide +kernel), by decide +kernel⟩,
   ⟨(let z := wRx 9 (wNet) (wFrame 5 7 0x21 [1#8, 2#8, 3#8, 4#8,
     5#8]); { z with syn := { z.syn with nodes := [(nodeKey 0 7, { st := 2 })] } }), 0, (wFrame 5 7 0x21 [1#8, 2#8, 3#8, 4#8,
     5#8]), heard_of (by decide +kernel)⟩⟩

theorem test_hypotheses_HostCommandsAreAnswered :
    (∃ s t : State, ∃ f, hostCmd s (· == 1) = some f ∧ byteAt f 3 = 1 ∧ hostRate (rxTake s (hostBus s)) = (true, t) ∧
      isArmed t = true ∧ (sectCfg t (byteAt f 2)).isSome = true ∧ (getSect t (byteAt f 2)).st = 1 ∧
      fogHolds t (byteAt f 2) = false ∧ tripBars t (byteAt f 2) = false) ∧
    (∃ s t : State, ∃ f n, hostCmd s (· == 1) = some f ∧ byteAt f 3 = 0 ∧ hostRate (rxTake s (hostBus s)) = (true, t) ∧
      isArmed t = true ∧ (byteAt f 2 = n ∨ byteAt f 2 = 0xFF) ∧ (sectCfg t n).isSome = true ∧
      ((getSect t n).st = 2 ∨ (getSect t n).st = 3)) ∧
    (∃ s t : State, ∃ f n, hostCmd s (· == 1) = some f ∧ byteAt f 3 = 0 ∧ hostRate (rxTake s (hostBus s)) = (true, t) ∧
      isArmed t = true ∧ (byteAt f 2 = n ∨ byteAt f 2 = 0xFF) ∧ (sectCfg t n).isSome = true ∧
      ((getSect t n).st = 2 ∨ (getSect t n).st = 3)) ∧
    (∃ s t : State, ∃ f n, hostCmd s (· == 2) = some f ∧ hostRate (rxTake s (hostBus s)) = (true, t) ∧
      (byteAt f 2 = n ∨ byteAt f 2 = 0xFF) ∧ n < 0x60 ∧ (getSrc t.flt n).uncleared = true) ∧
    (∃ s t : State, ∃ f n, hostCmd s (· == 2) = some f ∧ hostRate (rxTake s (hostBus s)) = (true, t) ∧
      (byteAt f 2 = n ∨ byteAt f 2 = 0xFF) ∧ n < 0x60 ∧ (getSrc t.flt n).uncleared = true) ∧
    (∃ s t : State, ∃ f, hostCmd s (· == 3) = some f ∧ hostRate (rxTake s (hostBus s)) = (true, t) ∧ isArmed t = true ∧
      t.fan.fog = true ∧ t.fan.hb = 3) ∧
    (∃ s t : State, ∃ f, hostCmd s (· == 4) = some f ∧ isFreezeSet s = true ∧ hostRate (rxTake s (hostBus s)) = (true, t) ∧
      isArmed t = true) ∧
    (∃ s t : State, ∃ f, hostCmd s (· == 4) = some f ∧ isFreezeSet s = false ∧ byteAt f 2 = 0 ∧
      hostRate (rxTake s (hostBus s)) = (true, t) ∧ isArmed t = true) ∧
    (∃ s t : State, ∃ f, hostCmd s (· == 5) = some f ∧ hostRate (rxTake s (hostBus s)) = (true, t) ∧ isArmed t = true ∧
      (motorCfg t (byteAt f 2)).isSome = true ∧ (getMot t (byteAt f 2)).st = 4 ∧ tripGone (getMot t (byteAt f 2)) = true) ∧
    (∃ s t : State, ∃ f w0 w1, hostCmd s (· == 6) = some f ∧ hostRate (rxTake s (hostBus s)) = (true, t) ∧ isArmed t = true ∧
      busFd t (hostBus t) = true ∧ calBusy t = false ∧ BitVec.ofNat 40 (bytesNat ((f.data.drop 2).take 5)) = w0 ∧
      BitVec.ofNat 40 (bytesNat ((f.data.drop 7).take 5)) = w1 ∧ calPossible t.cal w0 w1 = true) ∧
    (∃ s t : State, ∃ f w0 w1, hostCmd s (· == 6) = some f ∧ hostRate (rxTake s (hostBus s)) = (true, t) ∧ isArmed t = true ∧
      busFd t (hostBus t) = true ∧ calBusy t = false ∧ BitVec.ofNat 40 (bytesNat ((f.data.drop 2).take 5)) = w0 ∧
      BitVec.ofNat 40 (bytesNat ((f.data.drop 7).take 5)) = w1 ∧ calPossible t.cal w0 w1 = false) :=
  ⟨⟨(let z := wHear 9 (wHost 1 [0#8, 0#8, 0#8, 1#8]); setSect z 0 { st := 1 }), (wTook (let z := wHear 9 (wHost 1 [0#8, 0#8,
    0#8, 1#8]); setSect z 0 { st := 1 })), (wHost 1 [0#8, 0#8, 0#8, 1#8]), by decide +kernel⟩,
   ⟨(let z := wHear 9 (wHost 1 [0#8, 0#8, 0#8, 0#8]); setSect z 0 { st := 3, run := true }),
     (wTook (let z := wHear 9 (wHost 1 [0#8, 0#8, 0#8, 0#8]); setSect z 0 { st := 3, run := true })), (wHost 1 [0#8, 0#8, 0#8,
     0#8]), 0, by decide +kernel⟩,
   ⟨(let z := wHear 9 (wHost 1 [0#8, 0#8, 0xFF#8, 0#8]); setSect z 0 { st := 2, run := true }),
     (wTook (let z := wHear 9 (wHost 1 [0#8, 0#8, 0xFF#8, 0#8]); setSect z 0 { st := 2, run := true })), (wHost 1 [0#8, 0#8,
     0xFF#8, 0#8]), 0, by decide +kernel⟩,
   ⟨(let z := wHear 9 (wHost 2 [0#8, 0#8, 0xFF#8]); wUp z 0x35 { uncleared := true, cause := true }),
     (wTook (let z := wHear 9 (wHost 2 [0#8, 0#8, 0xFF#8]); wUp z 0x35 { uncleared := true, cause := true })), (wHost 2 [0#8,
     0#8, 0xFF#8]), 0x35, by decide +kernel⟩,
   ⟨(let z := wHear 9 (wHost 2 [0#8, 0#8, 0x35#8]); wUp z 0x35 { uncleared := true, cause := true }),
     (wTook (let z := wHear 9 (wHost 2 [0#8, 0#8, 0x35#8]); wUp z 0x35 { uncleared := true, cause := true })), (wHost 2 [0#8,
     0#8, 0x35#8]), 0x35, by decide +kernel⟩,
   ⟨(let z := wHear 9 (wHost 3 []); { z with fan := { z.fan with fog := true, hb := 3 } }),
     (wTook (let z := wHear 9 (wHost 3 []); { z with fan := { z.fan with fog := true, hb := 3 } })), (wHost 3 []),
     by decide +kernel⟩,
   ⟨(let z := wHear 9 (wHost 4 [0#8, 0#8, 1#8]); z), (wTook (let z := wHear 9 (wHost 4 [0#8, 0#8, 1#8]); z)), (wHost 4 [0#8,
     0#8, 1#8]), by decide +kernel⟩,
   ⟨(let z := wHear 9 (wHost 4 [0#8, 0#8, 0#8]); { z with stb := { z.stb with host := true } }),
     (wTook (let z := wHear 9 (wHost 4 [0#8, 0#8, 0#8]); { z with stb := { z.stb with host := true } })), (wHost 4 [0#8, 0#8,
     0#8]), by decide +kernel⟩,
   ⟨(let z := wHear 9 (wHost 5 []); wMot z { st := 4 }), (wTook (let z := wHear 9 (wHost 5 []); wMot z { st := 4 })),
     (wHost 5 []), by decide +kernel⟩,
   ⟨(let z := wHear 9 (wHost 6 (List.replicate 12 0#8)); { z with cal := { z.cal with valid := true } }),
     (wTook (let z := wHear 9 (wHost 6 (List.replicate 12 0#8)); { z with cal := { z.cal with valid := true } })),
     (wHost 6 (List.replicate 12 0#8)), (0#40), (0#40), by decide +kernel⟩,
   ⟨(let z := wHear 9 (wHost 6 [0#8, 0#8, 0#8, 0#8, 0#8, 0#8, 0#8, 0xFF#8, 0xFF#8, 0xFF#8, 0xFF#8, 0xFF#8]); z),
     (wTook (let z := wHear 9 (wHost 6 [0#8, 0#8, 0#8, 0#8, 0#8, 0#8, 0#8, 0xFF#8, 0xFF#8, 0xFF#8, 0xFF#8, 0xFF#8]); z)),
     (wHost 6 [0#8, 0#8, 0#8, 0#8, 0#8, 0#8, 0#8, 0xFF#8, 0xFF#8, 0xFF#8, 0xFF#8, 0xFF#8]), (0#40), (0xFFFFFFFFFF#40),
     by decide +kernel⟩⟩

theorem test_hypotheses_HostReadsAndNoticesAreSent :
    (∃ s t : State, ∃ f, hostCmd s (· == 7) = some f ∧ hostRate (rxTake s (hostBus s)) = (true, t) ∧ isArmed t = true ∧
      busFd t (hostBus t) = true ∧ bytesNat ((f.data.drop 2).take 2) ≤ 511) ∧
    (∃ s t : State, ∃ f, hostCmd s (· == 8) = some f ∧ hostRate (rxTake s (hostBus s)) = (true, t) ∧ t.start.state ≠ .moored ∧
      busFd t (hostBus t) = true) ∧
    (∃ s t : State, ∃ f, hostCmd s (fun o => o == 0 || 8 < o) = some f ∧ hostRate (rxTake s (hostBus s)) = (true, t) ∧
      isArmed t = true) ∧
    (∃ s : State, s.start.state ≠ .moored ∧ synServes s (hostBus s) = true ∧ (∀ a, s.syn.swAt = some a →
      a + 10000000 ≤ s.now ∨ (switchBytes s ≠ s.syn.swSent ∧ a + 1000000 ≤ s.now))) ∧
    (∃ s : State, ∃ x xs, s.start.state ≠ .moored ∧ synServes s (hostBus s) = true ∧ s.syn.notices = x :: xs ∧ (∀ y ∈ x :: xs,
      s.now < y.2 + 10000000) ∧ (s.syn.noticeAt.filter (fun t => decide (s.now < t + 1000000))).length < 4 ∧
      (recReads s 1).isSome = true) ∧
    (∃ s : State, ∃ f, Heard s (hostBus s) (bulkObj 0) f ∧ s.syn.xfer = none ∧ bytesNat ((f.data.drop 7).take 2) ≠ 0 ∧
      bytesNat ((f.data.drop 7).take 2) ≤ 256 ∧ byteAt f 1 ≤ 1 ∧ busFd (rxTake s (hostBus s)) (hostBus s) = true) ∧
    (∃ s : State, ∃ f, Heard s (hostBus s) (bulkObj 2) f ∧ bytesNat ((f.data.drop 1).take 4) ≠ 0x524C4352) ∧
    (∃ s : State, ∃ f, Heard s (hostBus s) (bulkObj 2) f ∧ bytesNat ((f.data.drop 1).take 4) = 0x524C4352 ∧
      s.recr.clears = [] ∧ clearRefusal s = some stBusy) ∧
    (∃ s u : State, ∃ f n, Heard s (hostBus s) (bulkObj 2) f ∧ bytesNat ((f.data.drop 1).take 4) = 0x524C4352 ∧
      s.recr.clears = [] ∧ clearRefusal s = none ∧ clearReady s = true ∧ canStore (readPin s) chunkStore = true ∧
      startClear (readPin (rxTake s (hostBus s))) (packW [(7, 0, 1 + hostBus s), (15, 8, idSrc f.id)]) = (n, u) ∧
      chunkStarted u = true) ∧
    (∃ s u : State, ∃ f n, Heard s (hostBus s) (bulkObj 2) f ∧ bytesNat ((f.data.drop 1).take 4) = 0x524C4352 ∧
      s.recr.clears = [] ∧ clearRefusal s = none ∧ clearReady s = true ∧ canStore (readPin s) chunkStore = true ∧
      startClear (readPin (rxTake s (hostBus s))) (packW [(7, 0, 1 + hostBus s), (15, 8, idSrc f.id)]) = (n, u) ∧
      chunkStarted u = true) ∧
    (∃ s : State, ∃ x, s.syn.xfer = some x ∧ x.since + 60000000 ≤ s.now) :=
  ⟨⟨(let z := wHear 9 (wHost 7 [0#8, 0#8, 0xFF#8, 1#8]); z), (wTook (let z := wHear 9 (wHost 7 [0#8, 0#8, 0xFF#8, 1#8]); z)),
    (wHost 7 [0#8, 0#8, 0xFF#8, 1#8]), by decide +kernel⟩,
   ⟨(let z := wHear 9 (wHost 8 []); z), (wTook (let z := wHear 9 (wHost 8 []); z)), (wHost 8 []), by decide +kernel⟩,
   ⟨(let z := wHear 9 (wHost 9 []); z), (wTook (let z := wHear 9 (wHost 9 []); z)), (wHost 9 []), by decide +kernel⟩,
   ⟨(wSeen 9 2), by decide +kernel, by decide +kernel, all_of_option (by decide +kernel)⟩,
   ⟨wNote, (0, 5), ([] : List (Nat × Nat)), by decide +kernel⟩,
   ⟨(wHear 9 (wFrame 7 0xFE 0 ([9#8, 1#8] ++ List.replicate 6 0#8 ++ [1#8, 0#8, 0#8, 0#8]))), (wFrame 7 0xFE 0 ([9#8,
     1#8] ++ List.replicate 6 0#8 ++ [1#8, 0#8, 0#8, 0#8])), heard_of (by decide +kernel), by decide +kernel⟩,
   ⟨(wHear 9 (wFrame 7 0xFE 2 [9#8, 0x52#8, 0x43#8, 0x4C#8, 0x53#8])), (wFrame 7 0xFE 2 [9#8, 0x52#8, 0x43#8, 0x4C#8, 0x53#8]),
     heard_of (by decide +kernel), by decide +kernel⟩,
   ⟨(let z := wHear 9 (wFrame 7 0xFE 2 [9#8, 0x52#8, 0x43#8, 0x4C#8,
     0x52#8]); { z with recr := { z.recr with lastClear := some 5 } }), (wFrame 7 0xFE 2 [9#8, 0x52#8, 0x43#8, 0x4C#8,
     0x52#8]), heard_of (by decide +kernel), by decide +kernel⟩,
   ⟨(let z := wHear 9 (wFrame 7 0xFE 2 [9#8, 0x52#8, 0x43#8, 0x4C#8,
     0x52#8]); { z with recr := { z.recr with aheadChecked := true, etchedNext := 0 } }),
     (startClear (readPin (rxTake (let z := wHear 9 (wFrame 7 0xFE 2 [9#8, 0x52#8, 0x43#8, 0x4C#8,
     0x52#8]); { z with recr := { z.recr with aheadChecked := true, etchedNext := 0 } }) (hostBus (let z := wHear 9 (wFrame 7
     0xFE 2 [9#8, 0x52#8, 0x43#8, 0x4C#8,
     0x52#8]); { z with recr := { z.recr with aheadChecked := true, etchedNext := 0 } })))) (packW [(7, 0,
     1 + hostBus (let z := wHear 9 (wFrame 7 0xFE 2 [9#8, 0x52#8, 0x43#8, 0x4C#8,
     0x52#8]); { z with recr := { z.recr with aheadChecked := true, etchedNext := 0 } })), (15, 8, idSrc (wFrame 7 0xFE 2 [9#8,
     0x52#8, 0x43#8, 0x4C#8, 0x52#8]).id)])).2, (wFrame 7 0xFE 2 [9#8, 0x52#8, 0x43#8, 0x4C#8, 0x52#8]),
     (startClear (readPin (rxTake (let z := wHear 9 (wFrame 7 0xFE 2 [9#8, 0x52#8, 0x43#8, 0x4C#8,
     0x52#8]); { z with recr := { z.recr with aheadChecked := true, etchedNext := 0 } }) (hostBus (let z := wHear 9 (wFrame 7
     0xFE 2 [9#8, 0x52#8, 0x43#8, 0x4C#8,
     0x52#8]); { z with recr := { z.recr with aheadChecked := true, etchedNext := 0 } })))) (packW [(7, 0,
     1 + hostBus (let z := wHear 9 (wFrame 7 0xFE 2 [9#8, 0x52#8, 0x43#8, 0x4C#8,
     0x52#8]); { z with recr := { z.recr with aheadChecked := true, etchedNext := 0 } })), (15, 8, idSrc (wFrame 7 0xFE 2 [9#8,
     0x52#8, 0x43#8, 0x4C#8, 0x52#8]).id)])).1, heard_of (by decide +kernel), by decide +kernel⟩,
   ⟨(let z := wHear 9 (wFrame 7 0xFE 2 [9#8, 0x52#8, 0x43#8, 0x4C#8,
     0x52#8]); { z with recr := { z.recr with aheadChecked := true, etchedNext := 2048, seq := 3, aheadOk := true } }),
     (startClear (readPin (rxTake (let z := wHear 9 (wFrame 7 0xFE 2 [9#8, 0x52#8, 0x43#8, 0x4C#8,
     0x52#8]); { z with recr := { z.recr with aheadChecked := true, etchedNext := 2048, seq := 3, aheadOk := true } }) (hostBus
     (let z := wHear 9 (wFrame 7 0xFE 2 [9#8, 0x52#8, 0x43#8, 0x4C#8,
     0x52#8]); { z with recr := { z.recr with aheadChecked := true, etchedNext := 2048, seq := 3, aheadOk := true } }))))
     (packW [(7, 0, 1 + hostBus (let z := wHear 9 (wFrame 7 0xFE 2 [9#8, 0x52#8, 0x43#8, 0x4C#8,
     0x52#8]); { z with recr := { z.recr with aheadChecked := true, etchedNext := 2048, seq := 3, aheadOk := true } })), (15,
     8, idSrc (wFrame 7 0xFE 2 [9#8, 0x52#8, 0x43#8, 0x4C#8, 0x52#8]).id)])).2, (wFrame 7 0xFE 2 [9#8, 0x52#8, 0x43#8, 0x4C#8,
     0x52#8]), (startClear (readPin (rxTake (let z := wHear 9 (wFrame 7 0xFE 2 [9#8, 0x52#8, 0x43#8, 0x4C#8,
     0x52#8]); { z with recr := { z.recr with aheadChecked := true, etchedNext := 2048, seq := 3, aheadOk := true } }) (hostBus
     (let z := wHear 9 (wFrame 7 0xFE 2 [9#8, 0x52#8, 0x43#8, 0x4C#8,
     0x52#8]); { z with recr := { z.recr with aheadChecked := true, etchedNext := 2048, seq := 3, aheadOk := true } }))))
     (packW [(7, 0, 1 + hostBus (let z := wHear 9 (wFrame 7 0xFE 2 [9#8, 0x52#8, 0x43#8, 0x4C#8,
     0x52#8]); { z with recr := { z.recr with aheadChecked := true, etchedNext := 2048, seq := 3, aheadOk := true } })), (15,
     8, idSrc (wFrame 7 0xFE 2 [9#8, 0x52#8, 0x43#8, 0x4C#8, 0x52#8]).id)])).1, heard_of (by decide +kernel),
     by decide +kernel⟩,
   ⟨(let z := wSeen 60000005 2; { z with syn := { z.syn with xfer := some ⟨0xFE, 9, false, none, 3, 0, 5⟩ } }), (⟨0xFE, 9,
     false, none, 3, 0, 5⟩ : Xfer), by decide +kernel⟩⟩

theorem test_hypotheses_ServiceFramesAreJudged :
    (∃ s : State, s.rst.held = false ∧ islRuns s 8 = true) ∧
    (∃ s : State, s.rst.held = false ∧ islRuns s 8 = true) ∧
    (∃ s : State, ∃ len, 1024 < len ∧ svcHears s = true) ∧
    (∃ s : State, ∃ seq cmd len, len ≤ 1024 ∧ svcCmds.contains cmd = true ∧ layoutOk cmd len = false ∧ svcHears s = true ∧
      isRepeatReq s seq cmd = false) ∧
    (∃ s : State, svcHears s = true) ∧
    (∃ s : State, ∃ seq cmd r a, svcHears s = true ∧ s.svc.sess.isSome = true ∧ s.svc.prev = some (r, a) ∧ r.seq = seq % 256 ∧
      r.cmd = cmd % 256 ∧ s.now ≤ a + 1000000) ∧
    (∃ s : State, ∃ seq cmd, svcHears s = true ∧ svcCmds.contains (cmd % 256) = false ∧ isRepeatReq s seq cmd = false) :=
  ⟨⟨w0, by decide +kernel⟩,
   ⟨(let z := w0; { z with svc := { z.svc with deaf := true } }), by decide +kernel⟩,
   ⟨w0, 1025, by decide +kernel⟩,
   ⟨w0, 3, 2, 3, by decide +kernel⟩,
   ⟨w0, by decide +kernel⟩,
   ⟨(let z := (wSess (wArm wPlate 5000000) 1); { z with svc := { z.svc with prev := some (⟨7, 1, [5#8]⟩, 4500000) } }), 7, 1,
     (⟨7, 1, [5#8]⟩ : Reply), 4500000, by decide +kernel⟩,
   ⟨w0, 3, 0x77, by decide +kernel⟩⟩

theorem test_hypotheses_SessionsOpenAndEnd :
    (∃ s : State, ∃ seq, Taken s seq 0x01) ∧
    (∃ s : State, ∃ seq role nonce g tag, Taken s seq 0x02 ∧ s.svc.nonce = some nonce ∧ lockLeft s = 0 ∧
      authEnergy (readPin s) = false ∧ role ≤ 2 ∧ authTag s role nonce = some (g, tag)) ∧
    (∃ s : State, ∃ seq role nonce tag, Taken s seq 0x02 ∧ s.svc.nonce = some nonce ∧ lockLeft s = 0 ∧
      authEnergy (readPin s) = false ∧ role ≤ 2 ∧ (∀ x, authTag s role nonce = some x → tag ≠ x.2)) ∧
    (∃ s : State, ∃ seq role nonce tag, Taken s seq 0x02 ∧ s.svc.nonce = some nonce ∧ lockLeft s = 0 ∧
      authEnergy (readPin s) = false ∧ role ≤ 2 ∧ (∀ x, authTag s role nonce = some x → tag ≠ x.2)) ∧
    (∃ s : State, ∃ seq, Taken s seq 0x03 ∧ HasRole s anyRole) ∧
    (∃ s : State, ∃ x, s.svc.sess = some x ∧ s.rst.held = false ∧ x.seen + 600000000 ≤ s.now) ∧
    (∃ s : State, ∃ seq rate, Taken s seq 0x04 ∧ HasRole s anyRole ∧ 115200 ≤ rate ∧ rate ≤ 3000000) ∧
    (∃ s : State, ∃ a, s.svc.baudAt = some a ∧ s.rst.held = false ∧ a + 2000000 ≤ s.now) ∧
    (∃ s : State, s.rst.held = false ∧ authWord s 2 ≠ 0 ∧ lockLeft s = 0) :=
  ⟨⟨(wArm wPlate 5000000), 1, taken_of (by decide +kernel)⟩,
   ⟨wKeyed, 1, 1, wNonce, (wTag wKeyed).1, (wTag wKeyed).2, taken_of (by decide +kernel), by decide +kernel, by decide +kernel,
     by decide +kernel, by decide +kernel, wTag_eq (by decide +kernel)⟩,
   ⟨wKeyed, 1, 1, wNonce, (0#8 :: (wTag wKeyed).2), taken_of (by decide +kernel), by decide +kernel, by decide +kernel,
     by decide +kernel, by decide +kernel, wTag_ne⟩,
   ⟨wFifth, 1, 1, wNonce, (0#8 :: (wTag wFifth).2), taken_of (by decide +kernel), by decide +kernel, by decide +kernel,
     by decide +kernel, by decide +kernel, wTag_ne⟩,
   ⟨(wOvr (wSess (wArm wPlate 5000000) 0) 1 1), 1, taken_of (by decide +kernel), hasRole_of (by decide +kernel)⟩,
   ⟨(let z := wOvr (wSess (wArm wPlate 5000000) 0) 1 1; { z with now := 605000000 }), (⟨0, 0, 5000000⟩ : Sess),
     by decide +kernel⟩,
   ⟨(wSess (wArm wPlate 5000000) 2), 1, 115200, taken_of (by decide +kernel), hasRole_of (by decide +kernel),
     by decide +kernel⟩,
   ⟨(let z := wStep 3; { z with now := 2000005, svc := { z.svc with baud := 230400, baudAt := some 5 } }), 5,
     by decide +kernel⟩,
   ⟨(let z := wStep 3; { z with cal := { z.cal with opSec := 70 }, svc := { z.svc with authWords := [(2, some 70#40)] } }),
     by decide +kernel⟩⟩

theorem test_hypotheses_ServiceReadsAnswer :
    (∃ s : State, ∃ seq addr n, Taken s seq 0x10 ∧ HasRole s anyRole ∧ s.svc.stage = none ∧ addr < 0x100000 ∧ 0 < n ∧ n ≤ 200) ∧
    (∃ s : State, ∃ seq addr, Taken s seq 0x10 ∧ HasRole s anyRole ∧ s.svc.stage = none ∧ addr < 0x100000) ∧
    (∃ s : State, ∃ seq n, Taken s seq 0x10 ∧ HasRole s anyRole ∧ s.svc.stage = none ∧ 0 < n ∧ n ≤ 200) ∧
    (∃ s : State, ∃ seq n, Taken s seq 0x10 ∧ HasRole s anyRole ∧ s.svc.stage = none ∧ 0 < n ∧ n ≤ 200) ∧
    (∃ s : State, ∃ seq start dir n flush, Taken s seq 0x20 ∧ dir ≤ 1 ∧ 0 < n ∧ n ≤ 32 ∧ flush % 2 = 0 ∧
      s.recr.located = true ∧ s.svc.wait = none ∧
      (recReads (asked s 0x20) (readLocs s start (dir == 1) n).length).isSome = true) ∧
    (∃ s : State, ∃ seq start dir n flush, Taken s seq 0x20 ∧ dir ≤ 1 ∧ 0 < n ∧ n ≤ 32 ∧ flush % 2 = 0 ∧
      s.recr.located = true ∧ s.svc.wait = none ∧
      (recReads (asked s 0x20) (readLocs s start (dir == 1) n).length).isSome = true) ∧
    (∃ s : State, ∃ seq start dir n flush, Taken s seq 0x20 ∧ dir ≤ 1 ∧ 0 < n ∧ n ≤ 32 ∧ flush % 2 = 0 ∧
      s.recr.located = true ∧ s.svc.wait = none ∧
      (recReads (asked s 0x20) (readLocs s start (dir == 1) n).length).isSome = false) ∧
    (∃ s : State, ∃ seq guard, Taken s seq 0x21 ∧ guard ≠ [0x52#8, 0x43#8, 0x4C#8, 0x52#8]) ∧
    (∃ s : State, ∃ seq, Taken s seq 0x21 ∧ s.recr.clears = [] ∧ clearRefusal s = some stBusy) ∧
    (∃ s : State, ∃ seq n v, Taken s seq 0x21 ∧ s.recr.clears = [] ∧ clearRefusal s = none ∧ clearReady s = true ∧
      canStore (readPin s) chunkStore = true ∧ startClear (readPin (asked s 0x21)) 0#40 = (n, v) ∧ chunkStarted v = true) ∧
    (∃ s : State, ∃ seq n v, Taken s seq 0x21 ∧ s.recr.clears = [] ∧ clearRefusal s = none ∧ clearReady s = true ∧
      canStore (readPin s) chunkStore = true ∧ startClear (readPin (asked s 0x21)) 0#40 = (n, v) ∧ chunkStarted v = true) ∧
    (∃ s : State, ∃ seq, Taken s seq 0x22) :=
  ⟨⟨(wSess (wArm wPlate 5000000) 0), 1, 0, 200, taken_of (by decide +kernel), hasRole_of (by decide +kernel),
    by decide +kernel⟩,
   ⟨(wSess (wArm wPlate 5000000) 1), 1, 0xFFFFF, taken_of (by decide +kernel), hasRole_of (by decide +kernel),
     by decide +kernel⟩,
   ⟨(wSess (wArm wPlate 5000000) 2), 1, 2, taken_of (by decide +kernel), hasRole_of (by decide +kernel), by decide +kernel⟩,
   ⟨(wSess (wArm wPlate 5000000) 2), 1, 200, taken_of (by decide +kernel), hasRole_of (by decide +kernel), by decide +kernel⟩,
   ⟨(wSess (wArm wPlate 5000000) 0), 1, 0, 1, 32, 0, taken_of (by decide +kernel), by decide +kernel⟩,
   ⟨(let z := (wSess (wArm wPlate 5000000) 0);
     { z with recr := { z.recr with etchedNext := 1 }, nvm := { z.nvm with cells := [(1048576, .clean 0x2002010000#40)] } }),
     1, 0, 0, 1, 0, taken_of (by decide +kernel), by decide +kernel⟩,
   ⟨(let z := (wSess (wArm wPlate 5000000) 0);
     { z with recr := { z.recr with etchedNext := 1 }, nvm := { z.nvm with cells := [(1048576, .clean 0x2002010000#40)] }, spn := { z.spn with arbs := [(10, { owner := some 5 })] } }), 1, 0, 0, 1, 0, taken_of (by decide +kernel), by decide +kernel⟩,
   ⟨(wSess (wArm wPlate 5000000) 0), 1, [0x52#8], taken_of (by decide +kernel), by decide +kernel⟩,
   ⟨(let z := (wSess (wArm wPlate 5000000) 0); { z with recr := { z.recr with lastClear := some 5 } }), 1,
     taken_of (by decide +kernel), by decide +kernel⟩,
   ⟨(let z := (wSess (wArm wPlate 5000000) 0); { z with recr := { z.recr with aheadChecked := true, etchedNext := 0 } }), 1,
     (startClear (readPin (asked (let z := (wSess (wArm wPlate 5000000) 0);
     { z with recr := { z.recr with aheadChecked := true, etchedNext := 0 } }) 0x21)) 0#40).1,
     (startClear (readPin (asked (let z := (wSess (wArm wPlate 5000000) 0);
     { z with recr := { z.recr with aheadChecked := true, etchedNext := 0 } }) 0x21)) 0#40).2, taken_of (by decide +kernel),
     by decide +kernel⟩,
   ⟨(let z := (wSess (wArm wPlate 5000000) 0);
     { z with recr := { z.recr with aheadChecked := true, etchedNext := 2048, seq := 3, aheadOk := true } }), 1,
     (startClear (readPin (asked (let z := (wSess (wArm wPlate 5000000) 0);
     { z with recr := { z.recr with aheadChecked := true, etchedNext := 2048, seq := 3, aheadOk := true } }) 0x21)) 0#40).1,
     (startClear (readPin (asked (let z := (wSess (wArm wPlate 5000000) 0);
     { z with recr := { z.recr with aheadChecked := true, etchedNext := 2048, seq := 3, aheadOk := true } }) 0x21)) 0#40).2,
     taken_of (by decide +kernel), by decide +kernel⟩,
   ⟨(wArm wPlate 5000000), 1, taken_of (by decide +kernel)⟩⟩

theorem test_hypotheses_WritesAreChecked :
    (∃ s : State, ∃ seq a roles, Taken s seq 0x11 ∧ s.svc.stage = none ∧ writeRoles s a = some roles ∧ a < 0x100000 ∧
      isKeyAddr a = false) ∧
    (∃ s : State, ∃ seq a roles, Taken s seq 0x11 ∧ s.svc.stage = none ∧ writeRoles s a = some roles ∧ a < 0x100000 ∧
      isKeyAddr a = false) ∧
    (∃ s : State, ∃ seq a roles, Taken s seq 0x11 ∧ s.svc.stage = none ∧ writeRoles s a = some roles ∧ a < 0x100000 ∧
      isKeyAddr a = false) ∧
    (∃ s : State, ∃ seq a roles, Taken s seq 0x11 ∧ s.svc.stage = none ∧ writeRoles s a = some roles ∧ a < 0x100000 ∧
      isKeyAddr a = false) ∧
    (∃ s : State, ∃ seq a roles, Taken s seq 0x11 ∧ s.svc.stage = none ∧ writeRoles s a = some roles ∧ a < 0x100000 ∧
      isKeyAddr a = false) ∧
    (∃ s : State, ∃ seq a, Taken s seq 0x11 ∧ s.svc.stage = none ∧ writeRoles s a = none ∧ a < 0x100000 ∧
      s.svc.sess.isSome = true) ∧
    (∃ s : State, ∃ seq, ∃ bytes : List Byte, svcHears s = true ∧ isRepeatReq s seq 0x11 = false ∧
      (bytes = [] ∨ bytes.length % 5 ≠ 0)) ∧
    (∃ s : State, ∃ seq, ∃ bytes : List Byte, svcHears s = true ∧ isRepeatReq s seq 0x11 = false ∧
      (bytes = [] ∨ bytes.length % 5 ≠ 0)) :=
  ⟨⟨(wArm wPlate 5000000), 1, 0x0C305, plantRoles, taken_of (by decide +kernel), by decide +kernel⟩,
   ⟨(wSess (wArm wPlate 5000000) 2), 1, 0x0C305, plantRoles, taken_of (by decide +kernel), by decide +kernel⟩,
   ⟨(wSess (wArm wPlate 5000000) 0), 1, 0x0C305, plantRoles, taken_of (by decide +kernel), by decide +kernel⟩,
   ⟨(wSess (wArm wPlate 5000000) 0), 1, 0x0C305, plantRoles, taken_of (by decide +kernel), by decide +kernel⟩,
   ⟨(let z := (wSess (wArm wPlate 5000000) 0); { z with plt := { z.plt with locks := [(0x0C300, 16)] } }), 1, 0x0C305,
     plantRoles, taken_of (by decide +kernel), by decide +kernel⟩,
   ⟨(wSess (wArm wPlate 5000000) 0), 1, 0x100, taken_of (by decide +kernel), by decide +kernel⟩,
   ⟨(wArm wPlate 5000000), 1, ([] : List Byte), by decide +kernel⟩,
   ⟨(wArm wPlate 5000000), 1, [1#8], by decide +kernel⟩⟩

theorem test_hypotheses_WritesReachTheirRegisters :
    (∃ s : State, ∃ seq mask w n, Writes s seq mask 0x03002 ∧ (fld w 7 0 = n ∨ fld w 7 0 = 0xFF) ∧ n < 0x60 ∧
      (getSrc s.flt n).uncleared = true) ∧
    (∃ s : State, ∃ seq mask w n, Writes s seq mask 0x03002 ∧ (fld w 7 0 = n ∨ fld w 7 0 = 0xFF) ∧ n < 0x60 ∧
      (getSrc s.flt n).uncleared = true) ∧
    (∃ s : State, ∃ seq mask w, Writes s seq mask 0x03010 ∧ isSrc (fld w 7 0) = true ∧ (bitOf w 10 = true →
      noRails (fld w 7 0) = false)) ∧
    (∃ s : State, ∃ seq mask w, Writes s seq mask 0x03010 ∧ isSrc (fld w 7 0) = true ∧ (bitOf w 10 = true →
      noRails (fld w 7 0) = false)) ∧
    (∃ s : State, ∃ seq mask w, Writes s seq mask 0x04004 ∧ bitOf w 0 = true ∧ (∀ a, s.recr.lastReqFlush = some a →
      a + 10000000 ≤ s.now)) ∧
    (∃ s : State, ∃ seq n mask, Writes s seq mask (0x08400 + n) ∧ n ≤ 22) ∧
    (∃ s : State, ∃ seq mask, Writes s seq mask 0x0B101) ∧
    (∃ s : State, ∃ seq mask, Writes s seq mask 0x0B101) ∧
    (∃ s : State, ∃ seq mask w, Writes s seq mask 0x0C001 ∧ bitOf w 0 = true ∧ s.fan.fog = true ∧ s.fan.hb = 3) ∧
    (∃ s : State, ∃ seq n mask w, Writes s seq mask (0x0C300 + n) ∧ n ≤ 255 ∧ plateLocked s (0x0C300 + n) = false ∧
      fld w 9 0 ≤ 1000) ∧
    (∃ s : State, ∃ seq mask w c, Writes s seq mask 0x0D001 ∧ motorCfg s (fld w 7 0) = some c ∧ (getMot s (fld w 7 0)).st = 4 ∧
      tripGone (getMot s (fld w 7 0)) = true) ∧
    (∃ s : State, ∃ seq n mask w, Writes s seq mask (0x10003 + 0x1000 * n) ∧ n ≤ 3 ∧ bitOf w 0 = true ∧ (getCan s n).st = 4 ∧
      s.isl.onRc = false ∧ islRuns s (1 + n) = true) ∧
    (∃ s : State, ∃ seq a mask, Writes s seq mask a ∧ w1cAddr a = true) ∧
    (∃ s : State, ∃ seq a mask, Writes s seq mask a ∧ w1cAddr a = true) ∧
    (∃ s : State, ∃ seq a mask, Writes s seq mask a ∧ w1cAddr a = true) ∧
    (∃ s : State, ∃ seq a mask, Writes s seq mask a ∧ w1cAddr a = true) ∧
    (∃ s : State, ∃ seq a mask, Writes s seq mask a ∧ w1cAddr a = true) ∧
    (∃ s : State, ∃ seq a mask, Writes s seq mask a ∧ w1cAddr a = true) ∧
    (∃ s : State, ∃ seq a mask, Writes s seq mask a ∧ w1cAddr a = true) :=
  ⟨⟨(wUp (wSess (wArm wPlate 5000000) 0) 0x35 { uncleared := true }), 1, 31, 0xFF#40, 0x35, writes_of (by decide +kernel),
    by decide +kernel⟩,
   ⟨(wUp (wSess (wArm wPlate 5000000) 0) 0x35 { uncleared := true }), 1, 31, 0x35#40, 0x35, writes_of (by decide +kernel),
     by decide +kernel⟩,
   ⟨(let z := wSess (wArm wPlate 5000000) 2; { z with straps := { z.straps with latched := List.replicate 11 true } }), 1, 31,
     0x35#40, writes_of (by decide +kernel), by decide +kernel⟩,
   ⟨(let z := wSess (wArm wPlate 5000000) 2; { z with straps := { z.straps with latched := List.replicate 11 true } }), 1, 31,
     0x535#40, writes_of (by decide +kernel), by decide +kernel⟩,
   ⟨(wSess (wArm wPlate 5000000) 1), 1, 31, 1#40, writes_of (by decide +kernel), by decide +kernel,
     all_of_option (by decide +kernel)⟩,
   ⟨(let z := wSess (wArm wPlate 5000000) 2; { z with straps := { z.straps with latched := List.replicate 11 true } }), 1, 21,
     31, writes_of (by decide +kernel), by decide +kernel⟩,
   ⟨(wSess (wArm wPlate 5000000) 1), 1, 31, writes_of (by decide +kernel)⟩,
   ⟨(wSess (wArm wPlate 5000000) 1), 1, 31, writes_of (by decide +kernel)⟩,
   ⟨(let z := (wSess (wArm wPlate 5000000) 0); { z with fan := { z.fan with fog := true, hb := 3 } }), 1, 31, 1#40,
     writes_of (by decide +kernel), by decide +kernel⟩,
   ⟨(wSess (wArm wPlate 5000000) 1), 1, 255, 31, 1000#40, writes_of (by decide +kernel), by decide +kernel⟩,
   ⟨(wMot (wSess (wArm wPlate 5000000) 1) { st := 4 }), 1, 31, 0#40, wMotor, writes_of (by decide +kernel), by decide +kernel⟩,
   ⟨(wSess (wBus 5000000 wNet { wOn with st := 4 }) 1), 1, 0, 31, 1#40, writes_of (by decide +kernel), by decide +kernel⟩,
   ⟨(let z := (wSess (wArm wPlate 5000000) 1); { z with nvm := { z.nvm with retired := true } }), 1, 0x05000, 31,
     writes_of (by decide +kernel), by decide +kernel⟩,
   ⟨(let z := (wSess (wArm wPlate 5000000) 1); { z with eng := { z.eng with sat := true } }), 1, 0x01012, 31,
     writes_of (by decide +kernel), by decide +kernel⟩,
   ⟨(wSess (wArm wPlate 5000000) 1), 1, 0x01060, 31, writes_of (by decide +kernel), by decide +kernel⟩,
   ⟨(wSess (wArm wPlate 5000000) 1), 1, 0x02012, 31, writes_of (by decide +kernel), by decide +kernel⟩,
   ⟨(wSess (wArm wPlate 5000000) 1), 1, 0x08000, 31, writes_of (by decide +kernel), by decide +kernel⟩,
   ⟨(wSess (wArm wPlate 5000000) 1), 1, 0x09000, 31, writes_of (by decide +kernel), by decide +kernel⟩,
   ⟨(wSess (wArm wPlate 5000000) 1), 1, 0x09019, 31, writes_of (by decide +kernel), by decide +kernel⟩⟩

theorem test_hypotheses_GroupsAndForcesAreWritten :
    (∃ s : State, ∃ seq mask, Writes s seq mask 0x0E000) ∧
    (∃ s : State, ∃ seq mask v w, Taken s seq 0x11 ∧ HasRole s plantRoles ∧ mask % 32 = 31 ∧ s.svc.stage = some ⟨0x0E000,
      [v]⟩ ∧ calBusy s = false ∧ calPossible s.cal v w = true) ∧
    (∃ s : State, ∃ seq mask, ∃ ws : List Word, Writes s seq mask 0x14010 ∧ ws.length = 4 ∧ s.svc.wait = none ∧
      s.pwr.gate = true ∧ huOpen s = false ∧ svcStoring s = false ∧ (∀ k < 4, cellAt' s.nvm (siteLoc k) = .erased) ∧
      8 * eWord ≤ (readPin s).pwr.energyUj) ∧
    (∃ s : State, ∃ seq mask r g, ∃ ws : List Word, Writes s seq mask (0x14100 + 8 * (4 * r + g)) ∧ r ≤ 3 ∧ g ≤ 3 ∧
      ws.length = 7 ∧ s.svc.wait = none ∧ s.pwr.gate = true ∧ keyAllowed s r g = true ∧ (∀ k < 7,
      cellAt' s.nvm (keyLoc r g k) = .erased) ∧ huOpen s = false ∧ svcStoring s = false ∧
      14 * eWord ≤ (readPin s).pwr.energyUj) ∧
    (∃ s : State, ∃ seq n mask c, Writes s seq mask (0x20000 + 2 * n) ∧ n ≤ 4095 ∧ isArmed s = true ∧ valCfg s n = some c ∧
      s.svc.forces.length < 64) ∧
    (∃ s : State, ∃ seq n mask c, Writes s seq mask (0x20000 + 2 * n + 1) ∧ n ≤ 4095 ∧ isArmed s = true ∧ valCfg s n = some c ∧
      n ∈ s.svc.forces) :=
  ⟨⟨(wSess (wArm wPlate 5000000) 0), 1, 31, writes_of (by decide +kernel)⟩,
   ⟨(let z := (let z := (wSess (wArm wPlate 5000000) 0); { z with svc := { z.svc with stage := some ⟨0x0E000, [0x0#40]⟩ } });
     { z with cal := { z.cal with valid := true } }), 1, 31, 0#40, 0#40, taken_of (by decide +kernel),
     hasRole_of (by decide +kernel), by decide +kernel⟩,
   ⟨(wSess (wArm wPlate 5000000) 1), 1, 31, wFour, writes_of (by decide +kernel), by decide +kernel⟩,
   ⟨(let z := wSess (wArm wPlate 5000000) 2; { z with straps := { z.straps with latched := List.replicate 11 true } }), 1, 31,
     1, 0, (List.replicate 7 5#40), writes_of (by decide +kernel), by decide +kernel⟩,
   ⟨(wSess (wArm wFePlate 5000000) 1), 1, 4, 31, wVal, writes_of (by decide +kernel), by decide +kernel⟩,
   ⟨(let z := (wSess (wArm wFePlate 5000000) 1); { z with svc := { z.svc with forces := [4] } }), 1, 4, 31, wVal,
     writes_of (by decide +kernel), by decide +kernel⟩⟩

theorem test_hypotheses_OverridesSectionsAndRestart :
    (∃ s : State, ∃ seq kind ch w v, Taken s seq 0x30 ∧ HasRole s plantRoles ∧ isArmed s = true ∧
      ovrDeclared s kind ch = true ∧ ovrValue kind w = some v ∧ (ovrOthers s kind ch).length < 64) ∧
    (∃ s : State, ∃ seq kind ch, Taken s seq 0x30 ∧ HasRole s plantRoles ∧ isArmed s = true ∧ ovrDeclared s kind ch = true) ∧
    (∃ s : State, ∃ seq n c, Taken s seq 0x31 ∧ HasRole s plantRoles ∧ isArmed s = true ∧ sectCfg s n = some c ∧
      (getSect s n).st = 1 ∧ fogHolds s n = false ∧ tripBars s n = false) ∧
    (∃ s : State, ∃ seq n k c, Taken s seq 0x31 ∧ HasRole s plantRoles ∧ isArmed s = true ∧ sectCfg s n = some c ∧
      ((getSect s n).st = 2 ∨ (getSect s n).st = 3) ∧ (k = n ∨ k = 0xFF)) ∧
    (∃ s : State, ∃ seq n k c, Taken s seq 0x31 ∧ HasRole s plantRoles ∧ isArmed s = true ∧ sectCfg s n = some c ∧
      ((getSect s n).st = 2 ∨ (getSect s n).st = 3) ∧ (k = n ∨ k = 0xFF)) ∧
    (∃ s : State, ∃ seq, Taken s seq 0x32 ∧ HasRole s engFactory ∧ (∀ a, s.recr.lastReqFlush = some a →
      a + 10000000 ≤ s.now)) :=
  ⟨⟨(wSess (wArm wPlate 5000000) 0), 1, 1, 0, 0#40, 0, taken_of (by decide +kernel), hasRole_of (by decide +kernel),
    by decide +kernel⟩,
   ⟨(wOvr (wSess (wArm wPlate 5000000) 0) 1 1), 1, 1, 0, taken_of (by decide +kernel), hasRole_of (by decide +kernel),
     by decide +kernel⟩,
   ⟨(let z := (wSess (wArm wPlate 5000000) 0); setSect z 0 { st := 1 }), 1, 0, wSect, taken_of (by decide +kernel),
     hasRole_of (by decide +kernel), by decide +kernel⟩,
   ⟨(let z := (wSess (wArm wPlate 5000000) 0); setSect z 0 { st := 3 }), 1, 0, 0, wSect, taken_of (by decide +kernel),
     hasRole_of (by decide +kernel), by decide +kernel⟩,
   ⟨(let z := (wSess (wArm wPlate 5000000) 0); setSect z 0 { st := 2 }), 1, 0, 0xFF, wSect, taken_of (by decide +kernel),
     hasRole_of (by decide +kernel), by decide +kernel⟩,
   ⟨(wSess (wArm wPlate 5000000) 2), 1, taken_of (by decide +kernel), hasRole_of (by decide +kernel),
     all_of_option (by decide +kernel)⟩⟩

theorem test_hypotheses_ImagesAreWritten :
    (∃ s : State, ∃ seq slot, Taken s seq 0x48 ∧ HasRole s engOnly ∧ selfErase s (slot % 2) = true) ∧
    (∃ s : State, ∃ seq slot engine, Taken s seq 0x48 ∧ HasRole s engOnly ∧ selfErase s (slot % 2) = false ∧ s.svc.img.st ≠ 1 ∧
      s.svc.wait = none ∧ regionErases s.nvm (slot % 2) engine = false ∧ s.pwr.gate = true) ∧
    (∃ s : State, ∃ seq slot engine off, ∃ ws : List Word, Taken s seq 0x48 ∧ HasRole s engOnly ∧
      imageCheck s (slot % 2) engine off ws.length = 0 ∧ off + ws.length ≤ 64) ∧
    (∃ s : State, ∃ seq slot engine off, ∃ ws : List Word, Taken s seq 0x48 ∧ HasRole s engOnly ∧
      imageCheck s (slot % 2) engine off ws.length = 0 ∧ 64 ≤ off ∧ ws ≠ [] ∧ s.pwr.gate = true ∧ huOpen s = false ∧
      svcStoring s = false ∧ 2 * eWord * ws.length ≤ (readPin s).pwr.energyUj) ∧
    (∃ s : State, ∃ seq slot engine off, Taken s seq 0x48 ∧ HasRole s engOnly ∧ imageCheck s (slot % 2) engine off 0 = 0 ∧
      s.svc.img.head.length = 64 ∧ s.pwr.gate = true ∧ huOpen s = false ∧ svcStoring s = false ∧
      128 * eWord ≤ (readPin s).pwr.energyUj) ∧
    (∃ s : State, ∃ seq pair, Taken s seq 0x49 ∧ HasRole s engOnly ∧ pair ≤ 1 ∧ ¬(1 ≤ s.svc.img.st ∧ s.svc.img.st ≤ 3 ∧
      s.svc.img.slot = pair) ∧ s.svc.wait = none ∧ s.pwr.gate = true ∧ huOpen s = false ∧ svcStoring s = false ∧
      2 * eWord ≤ (readPin s).pwr.energyUj) :=
  ⟨⟨(wSess (wArm wPlate 5000000) 1), 1, 0, taken_of (by decide +kernel), hasRole_of (by decide +kernel), by decide +kernel⟩,
   ⟨(wSess (wArm wPlate 5000000) 1), 1, 3, false, taken_of (by decide +kernel), hasRole_of (by decide +kernel),
     by decide +kernel⟩,
   ⟨(let z := (wSess (wArm wPlate 5000000) 1); { z with svc := { z.svc with img := { st := 2, slot := 1, next := 60 } } }), 1,
     1, false, 60, wFour, taken_of (by decide +kernel), hasRole_of (by decide +kernel), by decide +kernel⟩,
   ⟨(let z := (wSess (wArm wPlate 5000000) 1); { z with svc := { z.svc with img := { st := 2, slot := 1, next := 64 } } }), 1,
     1, false, 64, wFour, taken_of (by decide +kernel), hasRole_of (by decide +kernel), by decide +kernel⟩,
   ⟨(let z := (wSess (wArm wPlate 5000000) 1);
     { z with svc := { z.svc with img := { st := 2, slot := 1, next := 100, head := List.replicate 64 7#40 } } }), 1, 1, false,
     100, taken_of (by decide +kernel), hasRole_of (by decide +kernel), by decide +kernel⟩,
   ⟨(wSess (wArm wPlate 5000000) 1), 1, 1, taken_of (by decide +kernel), hasRole_of (by decide +kernel), by decide +kernel⟩⟩

theorem test_hypotheses_PlatesAreWritten :
    (∃ s : State, ∃ seq slot n, Taken s seq 0x40 ∧ HasRole s engOnly ∧ writing s.plt.write = false ∧ s.plt.write.op = none ∧
      readingPlates s = false ∧ s.pwr.pfw = false ∧ 71 ≤ n ∧ n ≤ 838860 ∧ slot ≤ 1 ∧ flashOk s.plt.facts = true ∧
      s.plt.facts.erase4k = true) ∧
    (∃ s : State, ∃ o, s.plt.write.op = some o ∧ o.data = none ∧ s.rst.held = false ∧ islRuns s 9 = true ∧
      s.plt.write.state = 1 ∧ o.addr % 4096 = 0) ∧
    (∃ s : State, ∃ o, s.plt.write.op = some o ∧ o.data = none ∧ s.rst.held = false ∧ islRuns s 9 = true ∧
      s.plt.write.state = 1 ∧ o.addr % 4096 = 0) ∧
    (∃ s : State, ∃ seq off, ∃ bs : List Byte, Taken s seq 0x41 ∧ HasRole s engOnly ∧ s.plt.write.state = 2 ∧
      s.plt.write.frame = none ∧ off = s.plt.write.bytes ∧ bs ≠ [] ∧ bs.length ≤ 1000 ∧
      off + bs.length ≤ 5 * s.plt.write.length) ∧
    (∃ s : State, ∃ seq off, ∃ bs : List Byte, Taken s seq 0x41 ∧ HasRole s engOnly ∧ s.plt.write.state = 2 ∧
      s.plt.write.frame = none ∧ off = s.plt.write.bytes ∧ bs ≠ [] ∧ bs.length ≤ 1000 ∧
      off + bs.length ≤ 5 * s.plt.write.length) ∧
    (∃ s : State, ∃ seq, Taken s seq 0x42 ∧ HasRole s engOnly ∧ s.plt.write.state = 2 ∧ s.plt.write.frame = none ∧
      s.plt.write.bytes = 5 * s.plt.write.length) ∧
    (∃ s : State, ∃ o bs, s.plt.write.op = some o ∧ o.data = some bs ∧ s.rst.held = false ∧ islRuns s 9 = true) ∧
    (∃ s : State, ∃ o bs p ps, s.plt.write.op = some o ∧ o.data = some bs ∧ s.rst.held = false ∧ islRuns s 9 = true ∧
      s.plt.write.pages = p :: ps) ∧
    (∃ s : State, ∃ o, s.plt.write.op = some o ∧ s.rst.held = false ∧ 1 ≤ s.plt.write.state ∧ s.plt.write.state ≤ 4 ∧
      (o.data = none → o.since + 1000000 < s.now) ∧ (o.data.isSome = true → o.since + 10000 < s.now)) :=
  ⟨⟨(let z := (wSess (wArm wPlate 5000000) 1);
    { z with plt := { z.plt with facts := { z.plt.facts with ok := true, erase4k := true, density := 64 } } }), 1, 1, 71,
    taken_of (by decide +kernel), hasRole_of (by decide +kernel), by decide +kernel⟩,
   ⟨(let z := (wSess (wArm wPlate 5000000) 1);
     { z with plt := { z.plt with write := { state := 1, length := 100, sectors := 1, op := some ⟨5, 0, none, 0⟩ } } }), (⟨5,
     0, none, 0⟩ : FlashOp), by decide +kernel⟩,
   ⟨(let z := (wSess (wArm wPlate 5000000) 1);
     { z with plt := { z.plt with write := { state := 1, length := 1000, sectors := 2, op := some ⟨5, 0, none, 0⟩ } } }), (⟨5,
     0, none, 0⟩ : FlashOp), by decide +kernel⟩,
   ⟨(let z := (wSess (wArm wPlate 5000000) 1);
     { z with plt := { z.plt with write := { state := 2, length := 100, bytes := 319 } } }), 1, 319, [1#8],
     taken_of (by decide +kernel), hasRole_of (by decide +kernel), by decide +kernel⟩,
   ⟨(let z := (wSess (wArm wPlate 5000000) 1);
     { z with plt := { z.plt with write := { state := 2, length := 100, bytes := 319 } } }), 1, 319, [1#8, 2#8],
     taken_of (by decide +kernel), hasRole_of (by decide +kernel), by decide +kernel⟩,
   ⟨(let z := (wSess (wArm wPlate 5000000) 1);
     { z with plt := { z.plt with write := { state := 2, length := 100, bytes := 500, head := List.replicate 320 7#8 } } }), 1,
     taken_of (by decide +kernel), hasRole_of (by decide +kernel), by decide +kernel⟩,
   ⟨(let z := (wSess (wArm wPlate 5000000) 1);
     { z with plt := { z.plt with write := { state := 2, length := 100, bytes := 500, op := some ⟨5, 330, some [3#8, 6#8], 0⟩, frame := some (1, 0x41) } } }), (⟨5, 330, some [3#8, 6#8], 0⟩ : FlashOp), [3#8, 6#8], by decide +kernel⟩,
   ⟨(let z := (wSess (wArm wPlate 5000000) 1);
     { z with plt := { z.plt with write := { state := 2, length := 100, bytes := 500, op := some ⟨5, 330, some [3#8, 6#8], 0⟩, frame := some (1, 0x41), pages := [(512, [1#8])] } } }), (⟨5, 330, some [3#8, 6#8], 0⟩ : FlashOp), [3#8, 6#8], (512, [1#8]), ([] : List (Nat × List Byte)), by decide +kernel⟩,
   ⟨(let z := (wSess (wArm wPlate 5000000) 1);
     { z with plt := { z.plt with write := { state := 2, length := 100, bytes := 500, op := some ⟨5, 330, some [3#8, 6#8], 0⟩, frame := some (1, 0x41) } } }), (⟨5, 330, some [3#8, 6#8], 0⟩ : FlashOp), by decide +kernel⟩⟩

theorem test_hypotheses_StepTakesTheFront :
    (∃ s : State, ∃ c rest, s.pending = c :: rest) ∧
    (∃ s : State, s.pending = []) :=
  ⟨⟨{ w0 with pending := [.pfwNFall, .vanaLow] }, .pfwNFall, [.vanaLow], by decide +kernel⟩,
   ⟨w0, by decide +kernel⟩⟩

theorem test_hypotheses_ClockAndQueueStand :
    ∃ s t : State, ∃ c, exec c s = .next t :=
  ⟨w0, (after .vanaLow w0), .vanaLow, after_eq (by decide +kernel)⟩

theorem test_hypotheses_MemoriesStayCanonical :
    ∃ s t : State, Memory.wf s = true ∧ step s = .next t :=
  ⟨{ wTurn wWord with pending := [.vanaLow] }, (afterStep { wTurn wWord with pending := [.vanaLow] }), by decide +kernel,
    afterStep_eq (by decide +kernel)⟩

theorem test_hypotheses_BlockCommandsKeepToTheirUnits :
    ∃ s t : State, ∃ c p, (family c = .supply ∨ family c = .start ∨ family c = .memory ∨ family c = .fabric) ∧
      exec c s = .next t ∧ (mayReset c = false ∨ t.rst.held = false) ∧ p ∉ mayWrite c :=
  ⟨w0, (after .vanaLow w0), .vanaLow, .nvm, by decide +kernel, after_eq (by decide +kernel), by decide +kernel⟩

theorem test_hypotheses_PlantAndLinkCommandsKeepToTheirUnits :
    ∃ s t : State, ∃ c p, (family c = .front ∨ family c = .plant ∨ family c = .links ∨ family c = .service) ∧
      exec c s = .next t ∧ (mayReset c = false ∨ t.rst.held = false) ∧ p ∉ mayWrite c :=
  ⟨({ w0 with svc := { w0.svc with deaf := true } }),
    (after (.frameGap false) ({ w0 with svc := { w0.svc with deaf := true } })), .frameGap false, .nvm, by decide +kernel,
    after_eq (by decide +kernel), by decide +kernel⟩

theorem test_hypotheses_CommandsThatStoreNothingKeepTheMemories :
    ∃ s t : State, ∃ c, mayStore c = false ∧ exec c s = .next t ∧ (mayReset c = false ∨ t.rst.held = false) :=
  ⟨wTurn wWord, (after .vanaLow (wTurn wWord)), .vanaLow, by decide +kernel, after_eq (by decide +kernel), by decide +kernel⟩

theorem test_hypotheses_ChipResetsTearOnlyWhatIsInHand :
    ∃ s t : State, ∃ c, redirectOk s.nvm.redirect = true ∧ c ∈ [Instr.resetNAssert, .vcoreSupervisorTrip, .vcorePowerOnReset,
      .vioSupervisorTrip, .vanaPowerOnReset] ∧ exec c s = .next t :=
  ⟨wTurn wErase, (after .resetNAssert (wTurn wErase)), .resetNAssert, by decide +kernel, by decide +kernel,
    after_eq (by decide +kernel)⟩

theorem test_hypotheses_FatalLatchStays :
    ∃ s t : State, ∃ c, s.flt.fatal = true ∧ c ≠ .vcorePowerOnReset ∧ exec c s = .next t :=
  ⟨wFatal, (after (.frameGap true) wFatal), .frameGap true, by decide +kernel, by decide +kernel, after_eq (by decide +kernel)⟩

theorem test_hypotheses_BuffersStayWithinTheirSizes :
    ∃ s t : State, s.recr.buf.length ≤ 256 ∧ s.svc.ovr.length ≤ 64 ∧ s.svc.forces.length ≤ 64 ∧ step s = .next t :=
  ⟨wFull, (afterStep wFull), by decide +kernel, by decide +kernel, by decide +kernel, afterStep_eq (by decide +kernel)⟩

theorem test_hypotheses_BallsFollowTheirColumns :
    (∃ s : State, ∃ c, c ∈ [Instr.resetNAssert, .vcoreSupervisorTrip, .vcorePowerOnReset, .vanaPowerOnReset] ∧
      vioOut s = false ∧ (c = .vcorePowerOnReset ∨ s.flt.fatal = false)) ∧
    (∃ s : State, ∃ c, c ∈ [Instr.resetNAssert, .vcoreSupervisorTrip, .vcorePowerOnReset, .vanaPowerOnReset] ∧
      vioOut s = false ∧ (c = .vcorePowerOnReset ∨ s.flt.fatal = false)) ∧
    (∃ s : State, ∃ c, c ∈ [Instr.resetNAssert, .vcoreSupervisorTrip, .vanaPowerOnReset] ∧ vioOut s = false ∧
      s.flt.fatal = true) ∧
    (∃ b : OutBall, b ≠ .vrefOut ∧ b ≠ .trip) ∧
    (∃ s : State, s.rst.held = false ∧ s.rst.extest = false ∧ s.isl.xtOk = true ∧ s.isl.rcOk = true) ∧
    (∃ s : State, s.rst.held = false ∧ s.rst.extest = false ∧ s.isl.xtOk = true ∧ s.isl.rcOk = true) :=
  ⟨⟨w0, .resetNAssert, by decide +kernel⟩,
   ⟨wFatal, .vcorePowerOnReset, by decide +kernel⟩,
   ⟨wFatal, .vanaPowerOnReset, by decide +kernel⟩,
   ⟨OutBall.shutdownN, by decide +kernel⟩,
   ⟨w0, by decide +kernel⟩,
   ⟨({ w0 with isl := { w0.isl with onRc := true } }), by decide +kernel⟩⟩

theorem test_hypotheses_RetransmissionsAreNotActedOn :
    ∃ s : State, ∃ c seq cmd r a, requestOf c = some (seq, cmd) ∧ svcHears s = true ∧ s.svc.sess.isSome = true ∧
      s.svc.prev = some (r, a) ∧ r.seq = seq % 256 ∧ r.cmd = cmd ∧ s.now ≤ a + 1000000 :=
  ⟨(let z := (wSess (wArm wPlate 5000000) 1); { z with svc := { z.svc with prev := some (⟨7, 1, [5#8]⟩, 4000000) } }),
    .hello 7, 7, 1, (⟨7, 1, [5#8]⟩ : Reply), 4000000, by decide +kernel⟩

theorem test_hypotheses_AgesAndForcesOfValues :
    (∃ s : State, ∃ i, (getVal s i).forced = false) ∧
    (∃ s : State, ∃ i a, (getVal s i).forced = false ∧ (getVal s i).at_ = some a) ∧
    (∃ s : State, ∃ i, (getVal s i).forced = true) ∧
    (∃ s : State, ∃ x i, s.svc.sess = some x ∧ i ∈ s.svc.forces) :=
  ⟨⟨(let z := wSess w0 1;
    { z with eng := { z.eng with vals := [(4, ⟨7#40, .forced, 0x20, some 9, true⟩), (5, ⟨8#40, .good, 1, some 9, false⟩)] }, svc := { z.svc with forces := [4] } }), 5, by decide +kernel⟩,
   ⟨(let z := wSess w0 1;
     { z with eng := { z.eng with vals := [(4, ⟨7#40, .forced, 0x20, some 9, true⟩), (5, ⟨8#40, .good, 1, some 9, false⟩)] }, svc := { z.svc with forces := [4] } }), 5, 9, by decide +kernel⟩,
   ⟨(let z := wSess w0 1;
     { z with eng := { z.eng with vals := [(4, ⟨7#40, .forced, 0x20, some 9, true⟩), (5, ⟨8#40, .good, 1, some 9, false⟩)] }, svc := { z.svc with forces := [4] } }), 4, by decide +kernel⟩,
   ⟨(let z := wSess w0 1;
     { z with eng := { z.eng with vals := [(4, ⟨7#40, .forced, 0x20, some 9, true⟩), (5, ⟨8#40, .good, 1, some 9, false⟩)] }, svc := { z.svc with forces := [4] } }), ⟨1, 0, 0⟩, 4, by decide +kernel⟩⟩

theorem test_hypotheses_RepeatsNeverEscalate :
    ∃ s : State, ∃ n, (getSrc s.flt n).uncleared = true ∧ (getSrc s.flt n).acked = false :=
  ⟨wUp w0 0x35 { uncleared := true, cause := true }, 0x35, by decide +kernel⟩

theorem test_hypotheses_FaultsClearOnceAcknowledgedAndGone :
    (∃ s : State, ∃ n, (getSrc s.flt n).uncleared = true ∧ (getSrc s.flt n).acked = false ∧ (getSrc s.flt n).cause = false ∧
      (getSrc s.flt n).eff ≠ .fatal) ∧
    (∃ s : State, ∃ n, (getSrc s.flt n).uncleared = true ∧ (getSrc s.flt n).acked = true ∧ (getSrc s.flt n).cause = true ∧
      (getSrc s.flt n).broken = false ∧ (getSrc s.flt n).eff ≠ .fatal) ∧
    (∃ s : State, ∃ n, (getSrc s.flt n).uncleared = true ∧ (getSrc s.flt n).acked = false ∧ (getSrc s.flt n).cause = true) :=
  ⟨⟨wUp w0 0x35 { uncleared := true }, 0x35, by decide +kernel⟩,
   ⟨wUp w0 0x35 { uncleared := true, acked := true, cause := true }, 0x35, by decide +kernel⟩,
   ⟨wUp w0 0x35 { uncleared := true, cause := true }, 0x35, by decide +kernel⟩⟩

theorem test_hypotheses_WriteOnceUnitsAreComparedWhole :
    (∃ s : State, ∃ locs : List Nat, ∃ ws : List Word, onceOutcome s.nvm (locs.zip ws) = 2) ∧
    (∃ s : State, ∃ locs : List Nat, ∃ ws : List Word, onceOutcome s.nvm (locs.zip ws) = 1) :=
  ⟨⟨wTurn wWord, [5, 6], [7#40, 8#40], by decide +kernel⟩,
   ⟨wTurn wWord, [5], [9#40], by decide +kernel⟩⟩

theorem test_hypotheses_OnlyAuthOpensASession :
    ∃ s t : State, ∃ c x, s.svc.sess = none ∧ exec c s = .next t ∧ t.svc.sess = some x := by
  have h := auth_opens (s := wKeyed) (seq := 1) (g := (wTag (keyAsked (asked wKeyed 0x02) 1)).1)
    (tag := (wTag (keyAsked (asked wKeyed 0x02) 1)).2) (taken_of (by decide +kernel))
    (by decide +kernel) (nonce := wNonce) (by decide +kernel) (by decide +kernel) (by decide +kernel) (by decide)
    (wTag_eq (s := keyAsked (asked wKeyed 0x02) 1) (by decide +kernel))
  obtain ⟨t, h1, h2⟩ := h
  exact ⟨wKeyed, t, _, _, by decide +kernel, h1, h2⟩

end Sys2Proof.Machine
end

section
/-! PROOFS. O55: what the balls do in a chip reset, without VIO, after a fatal fault and on the RC oscillator (R52, R53, R79, R82,
R866), with the frame of the islands that it needs: a raise and the settling of the plant reset islands, and change nothing else of
the island unit. -/

namespace Sys2Proof.Machine

open Sys2Proof

/-! The island unit under a raise and under settling. -/

/-- Of the island unit at most the islands' own states differ: clock sources, timeouts, toggles and queues are the same. -/
def OnlyIslStates (t s : State) : Prop := t.isl = { s.isl with isls := t.isl.isls }

theorem OnlyIslStates.of_eq {t s : State} (h : t.isl = s.isl) : OnlyIslStates t s := by
  rw [OnlyIslStates, h]

theorem OnlyIslStates.refl (s : State) : OnlyIslStates s s := .of_eq rfl

theorem OnlyIslStates.trans {a b c : State} (hab : OnlyIslStates a b) (hbc : OnlyIslStates b c) : OnlyIslStates a c :=
  Eq.trans hab (by rw [hbc])

theorem OnlyIslStates.ite {p : Prop} [Decidable p] {a b s : State} (ha : OnlyIslStates a s) (hb : OnlyIslStates b s) :
    OnlyIslStates (if p then a else b) s := by
  split
  · exact ha
  · exact hb

theorem OnlyIslStates.onRc {t s : State} (h : OnlyIslStates t s) : t.isl.onRc = s.isl.onRc := by
  rw [OnlyIslStates] at h
  rw [h]

theorem blockReset_onlyIslStates (s : State) (n : Nat) (p : Word) : OnlyIslStates (blockReset s n p) s := by
  unfold blockReset
  refine .ite (.of_eq rfl) ?_
  split
  · exact .refl s
  · exact .ite rfl (.refl s)

theorem reactTo_onlyIslStates (s : State) (n : Nat) (p : Word) (c : FClass) : OnlyIslStates (reactTo s n p c) s := by
  have hflush (t : State) : OnlyIslStates (if c == .advisory then t else startFlush t) t := .ite (.refl t) (.of_eq rfl)
  have hblock (t : State) (b : Bool) : OnlyIslStates (if b then blockReset t n p else t) t :=
    .ite (blockReset_onlyIslStates t n p) (.refl t)
  have hplant (t : State) (b : Bool) : OnlyIslStates (if b then plantResponse t n else t) t :=
    .ite (.of_eq (by simp only [plantResponse_only ..])) (.refl t)
  have hreset (t : State) (b : Bool) : OnlyIslStates
      (if b then startFlush { t with flt := { t.flt with resetAt := some t.now, resetFor := n, resetOk := false } } else t) t :=
    .ite (.of_eq rfl) (.refl t)
  have hfatal (t : State) : OnlyIslStates (if c == .fatal then fatalLatch t n p else t) t :=
    .ite (.of_eq (by simp only [fatalLatch_only ..])) (.refl t)
  unfold reactTo
  exact (hfatal _).trans ((hreset _ _).trans ((hplant _ _).trans ((hblock _ _).trans (hflush s))))

theorem raiseNow_onlyIslStates (s : State) (n : Nat) (p : Word) (k : Nat) : OnlyIslStates (raiseNow s n p k) s := by
  unfold raiseNow
  refine .ite (.of_eq ?_) (.ite (.of_eq rfl) (.ite (.of_eq ?_) ((reactTo_onlyIslStates ..).trans (.of_eq ?_))))
  all_goals simp only [mirror_only ..]

theorem raise_onlyIslStates (s : State) (n : Nat) (p : Word) (k : Nat) : OnlyIslStates (raise s n p k) s :=
  .ite (.of_eq rfl) (raiseNow_onlyIslStates s n p k)

theorem raiseU_onlyIslStates (s : State) (n : Nat) (p : Word) : OnlyIslStates (raiseU s n p) s := raise_onlyIslStates ..

theorem causeOn_onlyIslStates (s : State) (n : Nat) (p : Word) : OnlyIslStates (causeOn s n p) s :=
  .ite (.refl s) (raiseU_onlyIslStates s n p)

theorem plenEvals_onlyIslStates (s : State) (cs : List HeatCfg) : OnlyIslStates (plenEvals s cs) s := by
  induction cs generalizing s with
  | nil => exact .refl s
  | cons c cs ih => exact (ih _).trans (.ite ((raiseU_onlyIslStates ..).trans (.of_eq rfl)) (.of_eq rfl))

theorem plenSettle_onlyIslStates (s : State) : OnlyIslStates (plenSettle s) s := by
  have hoff (t : State) : OnlyIslStates (causeOff t 0x3B) t := .of_eq (by simp only [causeOff_only ..])
  exact .ite ((OnlyIslStates.ite (.refl _) (hoff _)).trans (plenEvals_onlyIslStates ..)) (.refl s)

theorem motTrip_onlyIslStates (s : State) (ch cause src : Nat) (p : Word) : OnlyIslStates (motTrip s ch cause src p) s :=
  OnlyIslStates.trans (.of_eq (by simp only [motTrip, motRelease_only .., setMot_isl])) (raiseU_onlyIslStates s src p)

theorem motTripRun_onlyIslStates (s : State) (ch cause src : Nat) : OnlyIslStates (motTripRun s ch cause src) s :=
  OnlyIslStates.trans (.of_eq (by simp only [motTripRun, causeOff_only ..])) (motTrip_onlyIslStates s ch cause src (pw ch))

theorem fullEval_onlyIslStates (s : State) (c : MotorCfg) : OnlyIslStates (fullEval s c) s :=
  .ite ((raiseU_onlyIslStates ..).trans (.of_eq rfl)) (.of_eq rfl)

theorem motEval_onlyIslStates (s : State) (c : MotorCfg) : OnlyIslStates (motEval s c) s := by
  have hproved (t : State) : OnlyIslStates (motorProved t c.ch) t := .of_eq (by simp only [motorProved_only ..])
  have hrelease (t : State) : OnlyIslStates (motRelease t c.ch 0) t := .of_eq (by simp only [motRelease_only ..])
  have htrip (t : State) (m : MotSt) (cause src : Nat) : OnlyIslStates (motTripRun (setMot t c.ch m) c.ch cause src) t :=
    (motTripRun_onlyIslStates ..).trans (.of_eq rfl)
  unfold motEval
  exact OnlyIslStates.trans (.ite (hrelease _) (.ite (htrip ..) (.ite (htrip ..) (.of_eq rfl))))
    ((OnlyIslStates.ite (hproved _) (.refl _)).trans (fullEval_onlyIslStates s c))

theorem motEvals_onlyIslStates (s : State) (cs : List MotorCfg) : OnlyIslStates (motEvals s cs) s := by
  induction cs generalizing s with
  | nil => exact .refl s
  | cons c cs ih => exact (ih _).trans (motEval_onlyIslStates s c)

theorem motSettle_onlyIslStates (s : State) : OnlyIslStates (motSettle s) s := by
  have hoff (t : State) : OnlyIslStates (causeOff t 0x43) t := .of_eq (by simp only [causeOff_only ..])
  have hperm (k : Nat) (t : State) : OnlyIslStates (permLoop k t) t := .of_eq (by simp only [permLoop_only ..])
  have hroute (t : State) : OnlyIslStates (routeHolds t) t := .of_eq (by simp only [routeHolds_only ..])
  exact (OnlyIslStates.ite (hoff _) (.refl _)).trans ((hperm _ _).trans
    (.ite ((hroute _).trans (motEvals_onlyIslStates ..)) (.refl s)))

theorem settle_onlyIslStates (s : State) : OnlyIslStates (settle s) s := by
  have hafter : (settle s).isl = (motSettle (plenSettle (swSettle (sectSettle s)))).isl := by
    simp only [settle, trigSettle_only .., pairTimers_only .., pinSettle_only .., heatTracks_only .., gateSettle_only ..,
      startSettle_only ..]
  have hbefore : (swSettle (sectSettle s)).isl = s.isl := by simp only [swSettle_only .., sectSettle_only ..]
  exact (OnlyIslStates.of_eq hafter).trans ((motSettle_onlyIslStates _).trans ((plenSettle_onlyIslStates _).trans (.of_eq hbefore)))

/-! MAIN on the RC oscillator (R246). -/

theorem exec_xt40Stop (s : State) : exec .xt40Stop s = execXt40Stop s := rfl

theorem xtSwitch_onRc (s : State) : (xtSwitch s).isl.onRc = true := (causeOn_onlyIslStates ..).onRc

/-- XT40_STOP with an RC oscillator that runs leaves MAIN on it, whether it changes over now or ran on it already, and leaves the
reset unit alone. -/
theorem xt40Stop_runs_onRc {s : State} (hheld : s.rst.held = false) (hxt : s.isl.xtOk = true) (hrc : s.isl.rcOk = true) :
    Runs .xt40Stop s fun t => t.rst = s.rst ∧ t.isl.onRc = true := by
  cases hon : s.isl.onRc with
  | false =>
    refine ⟨settle (canOffs (xtSwitch s) (rangeFrom 0 4)), ?_, ?_, ?_⟩
    · simp [exec_xt40Stop, execXt40Stop, fin, hheld, hxt, hrc, hon]
    · simp only [settle_only .., canOffs_only .., xtSwitch_only ..]
    · rw [(settle_onlyIslStates _).onRc]
      simp only [canOffs_only .., xtSwitch_onRc]
  | true =>
    refine ⟨settle (causeOn { s with isl := { s.isl with xtOk := false, xtStops := satAdd 255 s.isl.xtStops 1 } } 0x09 (pw 9)),
      ?_, ?_, ?_⟩
    · simp [exec_xt40Stop, execXt40Stop, fin, hheld, hxt, hrc, hon]
    · simp only [settle_only .., causeOn_only ..]
    · rw [(settle_onlyIslStates _).onRc, (causeOn_onlyIslStates ..).onRc]
      exact hon

/-! The reset unit and the fatal latch in a chip reset (R86, R123, R360). -/

theorem mem_addHolder (hs : List Nat) (code k : Nat) : k ∈ addHolder hs code ↔ k = code ∨ k ∈ hs := by
  unfold addHolder
  split
  · next h =>
    have hmem : code ∈ hs := List.contains_iff_mem.mp h
    exact ⟨.inr, fun hk => hk.elim (fun e => e ▸ hmem) id⟩
  · exact List.mem_cons

@[simp] theorem chipReset_held (s : State) (code : Nat) : (chipReset s code).rst.held = true := rfl

theorem chipReset_holders (s : State) (code : Nat) :
    (chipReset s code).rst.holders = if s.rst.held then addHolder s.rst.holders code else [code] := by
  simp only [chipReset, rstIn, tearWords_only ..]

theorem chipReset_fatal (s : State) (code : Nat) : (chipReset s code).flt.fatal = (code != 2 && s.flt.fatal) := by
  simp only [chipReset, tearWords_only .., fltKept]
  cases h : code == 2 <;> simp [bne, h]

/-- After a chip reset VIO counts as out of range where its supervisor is the source, or held the reset already. -/
theorem vioOut_chipReset (s : State) (code : Nat) : vioOut (chipReset s code) = (decide (3 = code) || vioOut s) := by
  simp only [vioOut, chipReset_held, chipReset_holders, Bool.true_and]
  cases s.rst.held with
  | false => simp
  | true => simp [mem_addHolder]

/-- A reset source other than the VIO supervisor is a chip reset whose code is neither the supervisor's nor, but for the VCORE
power-on reset, the one that clears the fatal latch. -/
theorem exec_resetSource {c : Instr} (hc : c ∈ [Instr.resetNAssert, .vcoreSupervisorTrip, .vcorePowerOnReset, .vanaPowerOnReset])
    (s : State) : ∃ code, code ≠ 3 ∧ (code = 2 ↔ c = .vcorePowerOnReset) ∧ exec c s = .next (chipReset s code) := by
  simp only [List.mem_cons, List.not_mem_nil, or_false] at hc
  rcases hc with rfl | rfl | rfl | rfl
  · exact ⟨0, by decide, by decide, rfl⟩
  · exact ⟨1, by decide, by decide, rfl⟩
  · exact ⟨2, by decide, by decide, rfl⟩
  · exact ⟨4, by decide, by decide, rfl⟩

/-! The driver of a ball in each state of Table 2-6. -/

theorem ballDrive_of_vioOut {s : State} (hvio : vioOut s = true) {b : OutBall} (hv : b ≠ .vrefOut) (ht : b ≠ .trip) :
    ballDrive s b = .hiZ := by
  unfold ballDrive
  rw [if_pos hvio]
  split
  · exact absurd rfl hv
  · exact absurd rfl ht
  · rfl

theorem ballDrive_of_held {s : State} (hheld : s.rst.held = true) (hvio : vioOut s = false) (b : OutBall) :
    ballDrive s b = if s.flt.fatal then fatalDrive s b else resetDrive b := by
  simp [ballDrive, hvio, scanHolds, hheld]

theorem ballDrive_of_running {s : State} (hheld : s.rst.held = false) (hscan : s.rst.extest = false) (b : OutBall) :
    ballDrive s b = if islDown s b then resetDrive b else if s.flt.fatal then fatalDrive s b else liveDrive s b := by
  simp [ballDrive, vioOut, scanHolds, hheld, hscan]

/-! The level of a ball from its driver. -/

theorem ballLevel_of_low {s : State} {b : OutBall} (h : ballDrive s b = .low) : ballLevel s b = some false := by
  rw [ballLevel, h]

theorem ballLevel_of_high {s : State} {b : OutBall} (h : ballDrive s b = .high) : ballLevel s b = some true := by
  rw [ballLevel, h]

theorem ballLevel_of_hiZ {s : State} {b : OutBall} (h : ballDrive s b = .hiZ) :
    ballLevel s b = if (ballPull b).isSome && !vioOut s then ballPull b else boardPull s b := by
  rw [ballLevel, h]

/-- A ball that its internal pull holds high in the Reset column, and that is driven high in the Fatal column and by its own unit, is
high whether its island is stopped, the fatal latch stands or neither. -/
theorem ballLevel_high_of_columns {s : State} {b : OutBall} (hheld : s.rst.held = false) (hscan : s.rst.extest = false)
    (hpull : ballPull b = some true) (hreset : resetDrive b = .hiZ) (hfatal : fatalDrive s b = .high)
    (hlive : liveDrive s b = .high) : ballLevel s b = some true := by
  have hdrive := ballDrive_of_running hheld hscan b
  cases hdown : islDown s b with
  | true =>
    have hz : ballDrive s b = .hiZ := by rw [hdrive, if_pos hdown, hreset]
    simp [ballLevel_of_hiZ hz, vioOut, hheld, hpull]
  | false =>
    refine ballLevel_of_high ?_
    rw [hdrive, hfatal, hlive]
    simp [hdown]

/-- R79 and R866: while MAIN runs on the RC oscillator each CANn_TXD is recessive and each CANn_STB high. -/
theorem can_balls_high_of_onRc {s : State} (hheld : s.rst.held = false) (hscan : s.rst.extest = false) (hrc : s.isl.onRc = true)
    (n : Nat) : ballLevel s (.canTxd n) = some true ∧ ballLevel s (.canStb n) = some true :=
  ⟨ballLevel_high_of_columns hheld hscan rfl rfl rfl (by simp [liveDrive, txdLive, hrc]),
    ballLevel_high_of_columns hheld hscan rfl rfl rfl (by simp [liveDrive, stbLow, hrc])⟩

/-! The columns after a reset source. -/

theorem ballDrive_chipReset {s : State} {code : Nat} (hcode : code ≠ 3) (hvio : vioOut s = false) (b : OutBall) :
    ballDrive (chipReset s code) b =
      if code != 2 && s.flt.fatal then fatalDrive (chipReset s code) b else resetDrive b := by
  have hin : vioOut (chipReset s code) = false := by simp [vioOut_chipReset, hcode.symm, hvio]
  rw [ballDrive_of_held (chipReset_held s code) hin, chipReset_fatal]

theorem resetSource_runs_resetDrive {s : State} {c : Instr}
    (hc : c ∈ [Instr.resetNAssert, .vcoreSupervisorTrip, .vcorePowerOnReset, .vanaPowerOnReset]) (hvio : vioOut s = false)
    (hlatch : c = .vcorePowerOnReset ∨ s.flt.fatal = false) (b : OutBall) : Runs c s fun t => ballDrive t b = resetDrive b := by
  obtain ⟨code, hne, hpor, hexec⟩ := exec_resetSource hc s
  have hoff : (code != 2 && s.flt.fatal) = false := by
    rcases hlatch with h | h
    · simp [hpor.mpr h]
    · simp [h]
  exact ⟨_, hexec, by simp [ballDrive_chipReset hne hvio, hoff]⟩

theorem resetSource_runs_fatalDrive {s : State} {c : Instr}
    (hc : c ∈ [Instr.resetNAssert, .vcoreSupervisorTrip, .vanaPowerOnReset]) (hvio : vioOut s = false)
    (hlatch : s.flt.fatal = true) : Runs c s fun t => ∀ b, ballDrive t b = fatalDrive t b := by
  have hmem : c ∈ [Instr.resetNAssert, .vcoreSupervisorTrip, .vcorePowerOnReset, .vanaPowerOnReset] := by
    simp only [List.mem_cons] at hc ⊢
    exact hc.imp_right (Or.imp_right .inr)
  have hpor : c ≠ .vcorePowerOnReset := by
    rintro rfl
    simp at hc
  obtain ⟨code, hne, hiff, hexec⟩ := exec_resetSource hmem s
  have hcode : code ≠ 2 := fun h => hpor (hiff.mp h)
  exact ⟨_, hexec, fun b => by simp [ballDrive_chipReset hne hvio, hcode, hlatch]⟩

theorem vioSupervisorTrip_runs_undriven (s : State) {b : OutBall} (hv : b ≠ .vrefOut) (ht : b ≠ .trip) :
    Runs .vioSupervisorTrip s fun t => ballDrive t b = .hiZ ∧ ballLevel t b = boardPull t b := by
  have hvio : vioOut (chipReset s 3) = true := by simp [vioOut_chipReset]
  have hz := ballDrive_of_vioOut hvio hv ht
  exact ⟨_, rfl, hz, by simp [ballLevel_of_hiZ hz, hvio]⟩

/-- Settles O55: the Reset, Fatal and undriven columns from the holders that a chip reset leaves, the CAN balls on the RC oscillator
from the change of MAIN, which a raise and the settling of the plant keep. -/
theorem ballsFollowTheirColumns : Obligations.BallsFollowTheirColumns := by
  unfold Obligations.BallsFollowTheirColumns
  refine ⟨fun s c b hc hvio hlatch => resetSource_runs_resetDrive hc hvio hlatch b, fun s c n hc hvio hlatch => ?_,
    fun s b hv ht => vioSupervisorTrip_runs_undriven s hv ht, fun s n hheld hscan hxt hrc => ?_⟩
  · obtain ⟨t, hexec, hcol⟩ := resetSource_runs_fatalDrive hc hvio hlatch
    exact ⟨t, hexec, hcol, ballLevel_of_low (hcol _), ballLevel_of_low (hcol _), ballLevel_of_low (hcol _),
      ballLevel_of_high (hcol _), ballLevel_of_high (hcol _), hcol _⟩
  · obtain ⟨t, hexec, hrst, hon⟩ := xt40Stop_runs_onRc hheld hxt hrc
    exact ⟨t, hexec, can_balls_high_of_onRc (hrst ▸ hheld) (hrst ▸ hscan) hon n⟩

end Sys2Proof.Machine
end

section
/-! PROOFS. O4: a short at an open-drain ball with its release and retry (R163, R164), the hold of EXTEST (R441), and the strap
check (R74): what it finds at one ball, and that the check of another ball leaves that finding as it is. -/

namespace Sys2Proof.Machine

open Sys2Proof

/-! Open-drain balls at their limit (R163, R164). -/

theorem exec_outShort (s : State) (row col : Nat) : exec (.outShort row col) s = execOutShort row col s := rfl

theorem exec_outShortRetry (s : State) (row col : Nat) : exec (.outShortRetry row col) s = execOutShortRetry row col s := rfl

/-- The released balls after a short now at the ball `key`. -/
def shortsAfter (s : State) (key : Nat) (exempt : Bool) : List (Nat × Nat) :=
  let rest := s.pwr.shorts.filter (·.1 != key)
  if exempt then rest else rest ++ [(key, s.now)]

theorem mem_shortsAfter (s : State) (key : Nat) (exempt : Bool) : (key, s.now) ∈ shortsAfter s key exempt ↔ exempt = false := by
  cases exempt <;> simp [shortsAfter]

theorem outShort_runs {s : State} {row col unit : Nat} {exempt : Bool} (hheld : s.rst.held = false)
    (hball : odBall row col = some (unit, exempt)) : Runs (.outShort row col) s fun t =>
      t.pwr = { s.pwr with shorts := shortsAfter s (row * 32 + col) exempt, shortAt := s.now } := by
  refine ⟨settle (raise
    { s with pwr := { s.pwr with shorts := shortsAfter s (row * 32 + col) exempt, shortAt := s.now } } 0x16
    (packW [(7, 0, col), (15, 8, row)]) unit), ?_, ?_⟩
  · simp [exec_outShort, execOutShort, hball, hheld, fin, shortsAfter]
  · simp only [settle_only .., raise_only ..]

theorem outShortRetry_runs {s : State} {row col at_ : Nat}
    (hfind : s.pwr.shorts.find? (·.1 == row * 32 + col) = some (row * 32 + col, at_)) (hdue : at_ + 1000000 ≤ s.now) :
    Runs (.outShortRetry row col) s fun t =>
      t = { s with pwr := { s.pwr with shorts := s.pwr.shorts.filter (·.1 != row * 32 + col) } } := by
  refine ⟨_, ?_, rfl⟩
  simp [exec_outShortRetry, execOutShortRetry, hfind, Nat.not_lt.mpr hdue]

/-! EXTEST (R441). -/

theorem exec_boundaryScanExtest (s : State) : exec .boundaryScanExtest s = execBoundaryScanExtest s := rfl

/-- The states in which an EXTEST instruction may hold the balls. -/
def ExtestMay (s : State) : Prop :=
  s.rst.held = false ∧ s.flt.fatal = false ∧ (s.start.state = .moored ∨ s.start.state = .bootService)

theorem extest_runs_of_may {s : State} (h : ExtestMay s) :
    Runs .boundaryScanExtest s fun t => t = { s with rst := { s.rst with extest := !s.rst.extest } } := by
  obtain ⟨hheld, hfatal, hstate⟩ := h
  refine ⟨_, ?_, rfl⟩
  rcases hstate with hstate | hstate <;>
    simp [exec_boundaryScanExtest, execBoundaryScanExtest, hheld, hfatal, hstate]

theorem extest_runs_of_not_may {s : State} (h : ¬ExtestMay s) :
    Runs .boundaryScanExtest s fun t => t = { s with rst := { s.rst with extest := false } } := by
  have hmay : (!s.rst.held && !s.flt.fatal && (s.start.state == .moored || s.start.state == .bootService)) = false := by
    rw [Bool.eq_false_iff]
    simpa [ExtestMay, and_assoc] using h
  exact ⟨_, by simp only [exec_boundaryScanExtest, execBoundaryScanExtest, hmay, Bool.false_and], rfl⟩

/-! Writing an entry of a list. -/

theorem listSet_eq_set {α : Type} (xs : List α) (i : Nat) (v : α) : listSet xs i v = xs.set i v := by
  induction xs generalizing i with
  | nil => rfl
  | cons x xs ih => cases i <;> simp [listSet, ih]

@[simp] theorem length_listSet {α : Type} (xs : List α) (i : Nat) (v : α) : (listSet xs i v).length = xs.length := by
  simp [listSet_eq_set]

theorem getD_listSet_same {α : Type} {xs : List α} {i : Nat} (h : i < xs.length) (v d : α) : (listSet xs i v).getD i d = v := by
  simp [listSet_eq_set, List.getD_eq_getElem?_getD, h]

theorem getD_listSet_other {α : Type} (xs : List α) {i j : Nat} (h : j ≠ i) (v d : α) :
    (listSet xs i v).getD j d = xs.getD j d := by
  simp [listSet_eq_set, List.getD_eq_getElem?_getD, List.getElem?_set_ne h.symm]

/-! The check of one strap ball (R74). -/

/-- The present level of ball i, not found open, differs from the latched one. -/
def strapDiffers (t : Straps) (levels : List Bool) (i : Nat) : Bool :=
  !t.isOpen.getD i false && levels.getD i false != t.latched.getD i false

/-- The difference at ball i is at least the second in a row. -/
def strapTwice (t : Straps) (levels : List Bool) (i : Nat) : Bool :=
  strapDiffers t levels i && decide (1 ≤ t.diffs.getD i 0)

/-- The differences in a row at ball i with this one. -/
def strapCount (t : Straps) (levels : List Bool) (i : Nat) : Nat :=
  if strapDiffers t levels i then min 2 (t.diffs.getD i 0 + 1) else 0

/-- The STRAP_CHANGED record of ball i. -/
def strapRecord (s : State) (levels : List Bool) (i : Nat) : Record :=
  newRecord s 0x0003 0x18 (pw i)
    (packW [(0, 0, b2n (s.straps.latched.getD i false)), (1, 1, b2n (levels.getD i false))])

/-- The check makes a record for ball i. -/
def strapReports (t : Straps) (levels : List Bool) (i : Nat) : Bool := strapTwice t levels i && !t.recorded.getD i false

/-- The straps after the check of ball i. -/
def strapsChecked (t : Straps) (levels : List Bool) (i : Nat) : Straps :=
  if t.isOpen.getD i false then t else
    { t with
      present := listSet t.present i (some (levels.getD i false))
      diffs := listSet t.diffs i (strapCount t levels i)
      changed := t.changed || strapTwice t levels i
      recorded := if strapTwice t levels i then listSet t.recorded i true else t.recorded }

theorem strapTwice_of_open {t : Straps} {i : Nat} (levels : List Bool) (h : t.isOpen.getD i false = true) :
    strapTwice t levels i = false := by
  simp only [strapTwice, strapDiffers, h, Bool.not_true, Bool.false_and]

theorem strapCount_of_closed {t : Straps} {i : Nat} (levels : List Bool) (h : t.isOpen.getD i false = false) :
    strapCount t levels i =
      if levels.getD i false == t.latched.getD i false then 0 else satAdd 2 (t.diffs.getD i 0) 1 := by
  simp only [strapCount, strapDiffers, h, Bool.not_false, Bool.true_and, bne, satAdd]
  cases levels.getD i false == t.latched.getD i false <;> rfl

theorem strapTwice_eq_two_le_count (t : Straps) (levels : List Bool) (i : Nat) :
    strapTwice t levels i = decide (2 ≤ strapCount t levels i) := by
  cases h : strapDiffers t levels i with
  | false => simp only [strapTwice, strapCount, h, Bool.false_and, Bool.false_eq_true, if_false]; rfl
  | true =>
    have hle : 1 ≤ t.diffs.getD i 0 ↔ 2 ≤ min 2 (t.diffs.getD i 0 + 1) := by omega
    simp only [strapTwice, strapCount, h, Bool.true_and, if_true, decide_eq_decide.mpr hle]

/-- What the check of one ball does: the straps as checked, and a record where the ball makes one. -/
theorem strapCheck_eq (s : State) (levels : List Bool) (i : Nat) : strapCheck s levels i =
    { s with
      straps := strapsChecked s.straps levels i
      recr := if strapReports s.straps levels i then recrAdd s.recr (strapRecord s levels i) else s.recr } := by
  cases hopen : s.straps.isOpen.getD i false with
  | true => simp only [strapCheck, strapsChecked, strapReports, strapTwice_of_open levels hopen, hopen, if_true,
      Bool.false_and, Bool.false_eq_true, if_false]
  | false =>
    have hreports : (strapTwice s.straps levels i && !s.straps.recorded.getD i false) = strapReports s.straps levels i := rfl
    simp only [strapCheck, strapsChecked, hopen, ← strapCount_of_closed levels hopen, ge_iff_le,
      ← strapTwice_eq_two_le_count, hreports, Bool.false_eq_true, if_false]
    cases strapReports s.straps levels i <;> rfl

/-! A check leaves what was latched, and every other ball. -/

/-- What was latched, and all that the straps hold of ball j, are the same. -/
structure SameBall (j : Nat) (t u : Straps) : Prop where
  latched : t.latched = u.latched
  isOpen : t.isOpen = u.isOpen
  present : t.present.getD j none = u.present.getD j none
  diffs : t.diffs.getD j 0 = u.diffs.getD j 0
  recorded : t.recorded.getD j false = u.recorded.getD j false

theorem SameBall.refl (j : Nat) (t : Straps) : SameBall j t t := ⟨rfl, rfl, rfl, rfl, rfl⟩

theorem SameBall.trans {j : Nat} {t u v : Straps} (htu : SameBall j t u) (huv : SameBall j u v) : SameBall j t v :=
  ⟨htu.latched.trans huv.latched, htu.isOpen.trans huv.isOpen, htu.present.trans huv.present, htu.diffs.trans huv.diffs,
    htu.recorded.trans huv.recorded⟩

section
variable {j : Nat} {t u : Straps} (levels : List Bool)

theorem SameBall.differs (h : SameBall j t u) : strapDiffers t levels j = strapDiffers u levels j := by
  simp only [strapDiffers, h.isOpen, h.latched]

theorem SameBall.twice (h : SameBall j t u) : strapTwice t levels j = strapTwice u levels j := by
  simp only [strapTwice, h.differs, h.diffs]

theorem SameBall.count (h : SameBall j t u) : strapCount t levels j = strapCount u levels j := by
  simp only [strapCount, h.differs, h.diffs]

theorem SameBall.reports (h : SameBall j t u) : strapReports t levels j = strapReports u levels j := by
  simp only [strapReports, h.twice, h.recorded]

end

/-- The lists of the straps have an entry for ball i. -/
def HasBall (t : Straps) (i : Nat) : Prop := i < t.present.length ∧ i < t.diffs.length ∧ i < t.recorded.length

/-- Ball i is as a check of the straps u leaves it: open and not looked at, or with its level, its count and its record. -/
def BallChecked (levels : List Bool) (i : Nat) (t u : Straps) : Prop :=
  u.isOpen.getD i false = false → t.present.getD i none = some (levels.getD i false) ∧
    t.diffs.getD i 0 = strapCount u levels i ∧ t.recorded.getD i false = (u.recorded.getD i false || strapTwice u levels i)

section
variable (t : Straps) (levels : List Bool) (i : Nat)

theorem strapsChecked_latched : (strapsChecked t levels i).latched = t.latched := by
  unfold strapsChecked
  split <;> rfl

theorem strapsChecked_isOpen : (strapsChecked t levels i).isOpen = t.isOpen := by
  unfold strapsChecked
  split <;> rfl

theorem strapsChecked_changed : (strapsChecked t levels i).changed = (t.changed || strapTwice t levels i) := by
  unfold strapsChecked
  split
  · next hopen => simp [strapTwice_of_open levels hopen]
  · rfl

theorem strapsChecked_hasBall {j : Nat} : HasBall (strapsChecked t levels i) j ↔ HasBall t j := by
  unfold strapsChecked
  split
  · rfl
  · cases strapTwice t levels i <;> simp [HasBall]

theorem strapsChecked_sameBall {j : Nat} (hne : j ≠ i) : SameBall j (strapsChecked t levels i) t := by
  unfold strapsChecked
  split
  · exact .refl j t
  · refine ⟨rfl, rfl, getD_listSet_other _ hne _ _, getD_listSet_other _ hne _ _, ?_⟩
    cases strapTwice t levels i
    · rfl
    · exact getD_listSet_other _ hne _ _

theorem strapsChecked_ball (hball : HasBall t i) : BallChecked levels i (strapsChecked t levels i) t := by
  obtain ⟨hpresent, hdiffs, hrecorded⟩ := hball
  intro hopen
  unfold strapsChecked
  rw [if_neg (by simp only [hopen, Bool.false_eq_true, not_false_eq_true])]
  refine ⟨getD_listSet_same hpresent _ _, getD_listSet_same hdiffs _ _, ?_⟩
  cases strapTwice t levels i
  · exact (Bool.or_false _).symm
  · exact (getD_listSet_same hrecorded _ _).trans (Bool.or_true _).symm

end

/-! The check of several balls, none of them twice. -/

section
variable (s : State) (levels : List Bool)

theorem strapCheck_straps (i : Nat) : (strapCheck s levels i).straps = strapsChecked s.straps levels i := by
  rw [strapCheck_eq]

theorem strapCheck_recr (i : Nat) : (strapCheck s levels i).recr =
    if strapReports s.straps levels i then recrAdd s.recr (strapRecord s levels i) else s.recr := by
  rw [strapCheck_eq]

theorem strapRecord_strapCheck (i : Nat) : strapRecord (strapCheck s levels i) levels = strapRecord s levels := by
  funext k
  simp only [strapRecord, newRecord, strapCheck_only .., strapCheck_straps, strapsChecked_latched]

theorem strapChecks_latched (is : List Nat) : (strapChecks s levels is).straps.latched = s.straps.latched := by
  induction is generalizing s with
  | nil => rfl
  | cons i is ih => rw [strapChecks, ih, strapCheck_straps, strapsChecked_latched]

theorem strapChecks_sameBall {j : Nat} {is : List Nat} (hj : j ∉ is) :
    SameBall j (strapChecks s levels is).straps s.straps := by
  induction is generalizing s with
  | nil => exact .refl j _
  | cons i is ih =>
    obtain ⟨hne, hmem⟩ : j ≠ i ∧ j ∉ is := by simpa using hj
    have hone : SameBall j (strapCheck s levels i).straps s.straps :=
      strapCheck_straps s levels i ▸ strapsChecked_sameBall s.straps levels i hne
    exact (ih (strapCheck s levels i) hmem).trans hone

/-- A ball that is still to be checked has the same finding before and after the check of another one. -/
theorem strapCheck_sameBall {i j : Nat} {is : List Nat} (hnd : (i :: is).Nodup) (hj : j ∈ is) :
    SameBall j (strapCheck s levels i).straps s.straps :=
  strapCheck_straps s levels i ▸ strapsChecked_sameBall s.straps levels i fun h => (List.nodup_cons.mp hnd).1 (h ▸ hj)

theorem strapChecks_changed {is : List Nat} (hnd : is.Nodup) :
    (strapChecks s levels is).straps.changed = (s.straps.changed || is.any (strapTwice s.straps levels)) := by
  induction is generalizing s with
  | nil => simp [strapChecks]
  | cons i is ih =>
    have hsame : is.any (strapTwice (strapCheck s levels i).straps levels) = is.any (strapTwice s.straps levels) :=
      Bool.eq_iff_iff.mpr <| by
        simp only [List.any_eq_true]
        exact exists_congr fun j => and_congr_right fun hj => by rw [(strapCheck_sameBall s levels hnd hj).twice]
    rw [strapChecks, ih _ hnd.of_cons, hsame, strapCheck_straps, strapsChecked_changed, List.any_cons, Bool.or_assoc]

theorem strapChecks_recr {is : List Nat} (hnd : is.Nodup) : (strapChecks s levels is).recr =
    (is.filter (strapReports s.straps levels)).foldl (fun r i => recrAdd r (strapRecord s levels i)) s.recr := by
  induction is generalizing s with
  | nil => rfl
  | cons i is ih =>
    have hsame : is.filter (strapReports (strapCheck s levels i).straps levels) = is.filter (strapReports s.straps levels) :=
      List.filter_congr fun j hj => (strapCheck_sameBall s levels hnd hj).reports levels
    rw [strapChecks, ih _ hnd.of_cons, hsame, strapRecord_strapCheck, strapCheck_recr, List.filter_cons]
    split <;> rfl

theorem strapChecks_ball {is : List Nat} (hnd : is.Nodup) {j : Nat} (hj : j ∈ is) (hball : HasBall s.straps j) :
    BallChecked levels j (strapChecks s levels is).straps s.straps := by
  induction is generalizing s with
  | nil => exact absurd hj List.not_mem_nil
  | cons i is ih =>
    rcases List.mem_cons.mp hj with rfl | hmem
    · have hkept := strapChecks_sameBall (strapCheck s levels j) levels (List.nodup_cons.mp hnd).1
      rw [strapCheck_straps] at hkept
      have hone := strapsChecked_ball s.straps levels j hball
      intro hopen
      exact hkept.present ▸ hkept.diffs ▸ hkept.recorded ▸ hone hopen
    · have hsame := strapCheck_sameBall s levels hnd hmem
      have hrest := ih (strapCheck s levels i) hnd.of_cons hmem
        (by rw [strapCheck_straps]; exact (strapsChecked_hasBall ..).mpr hball)
      rw [BallChecked, hsame.isOpen, hsame.count, hsame.recorded, hsame.twice] at hrest
      exact hrest

end

/-! The command. -/

theorem exec_strapChangeCheck (s : State) (levels : List Bool) :
    exec (.strapChangeCheck levels) s = execStrapChangeCheck levels s := rfl

theorem strapChangeCheck_next {s : State} (levels : List Bool) (hheld : s.rst.held = false) :
    exec (.strapChangeCheck levels) s = .next (strapChecks s levels (rangeFrom 0 11)) := by
  simp [exec_strapChangeCheck, execStrapChangeCheck, hheld]

theorem strapBalls_nodup : (rangeFrom 0 11).Nodup := by decide

theorem mem_strapBalls {i : Nat} (h : i < 11) : i ∈ rangeFrom 0 11 := by
  revert i
  decide

/-- Settles O4: a raise and the settling of the plant keep the supplies, where the released balls stand, and a strap check finds
each ball as the command found it, whatever other balls it checked before. -/
theorem outputShortsAndPinTests : Obligations.OutputShortsAndPinTests := by
  unfold Obligations.OutputShortsAndPinTests
  refine ⟨fun s row col unit exempt hheld hball => ?_, fun s row col at_ hfind hdue => outShortRetry_runs hfind hdue,
    fun s hheld hfatal hstate => extest_runs_of_may ⟨hheld, hfatal, hstate⟩, fun s hmay => extest_runs_of_not_may hmay,
    fun s levels differs twice hheld hpresent hdiffs hrecorded hdiffers htwice => ?_⟩
  · obtain ⟨t, hexec, hpwr⟩ := outShort_runs hheld hball
    exact ⟨t, hexec, by simp only [hpwr], by simp only [hpwr, mem_shortsAfter]⟩
  · obtain rfl : differs = strapDiffers s.straps levels := funext hdiffers
    obtain rfl : twice = strapTwice s.straps levels := funext htwice
    exact ⟨_, strapChangeCheck_next levels hheld, strapChecks_latched .., strapChecks_changed _ _ strapBalls_nodup,
      fun i hi => strapChecks_ball s levels strapBalls_nodup (mem_strapBalls hi)
        ⟨hpresent.symm ▸ hi, hdiffs.symm ▸ hi, hrecorded.symm ▸ hi⟩,
      strapChecks_recr _ _ strapBalls_nodup⟩

end Sys2Proof.Machine
end

section
/-! PROOFS. The spine under a raise and under the settling of the plant: a block reset of source 12H or 13H resets it, and nothing else
of a raise changes it (R353). -/

namespace Sys2Proof.Machine

open Sys2Proof

/-- The sources whose block reset is that of the spine. -/
def resetsSpine (n : Nat) : Bool := n == 0x12 || n == 0x13

theorem blockReset_spn (s : State) (n : Nat) (p : Word) :
    (blockReset s n p).spn = if resetsSpine n then spineReset s.spn else s.spn := by
  simp only [blockReset]
  split
  · next h => rw [resetsSpine, if_pos h]
  · next h =>
    rw [resetsSpine, if_neg h]
    split
    · rfl
    · simp only [iteU .., ite_self]

/-- What a raise of source n may leave of the spine: all of it, or where the reaction of the source is a block reset of the spine, that
reset. -/
def SpineRaised (n : Nat) (t s : State) : Prop :=
  t.spn = s.spn ∨ (resetsSpine n = true ∧ reactHas (cfgOf s.flt n).2 2 = true ∧ t.spn = spineReset s.spn)

theorem reactTo_spineRaised (s : State) (n : Nat) (p : Word) (c : FClass) : SpineRaised n (reactTo s n p c) s := by
  have hspn : (reactTo s n p c).spn =
      if reactHas (cfgOf s.flt n).2 2 then (if resetsSpine n then spineReset s.spn else s.spn) else s.spn := by
    simp only [reactTo, iteU .., fatalLatch_only .., startFlush_only .., plantResponse_only .., blockReset_spn, ite_self]
  rw [SpineRaised, hspn]
  cases reactHas (cfgOf s.flt n).2 2 <;> cases resetsSpine n <;> simp

theorem raiseNow_spineRaised (s : State) (n : Nat) (p : Word) (k : Nat) : SpineRaised n (raiseNow s n p k) s := by
  simp only [raiseNow]
  split
  · exact .inl (by simp only [mirror_only ..])
  · split
    · exact .inl rfl
    · split
      · exact .inl (by simp only [mirror_only ..])
      · have hreact (t : State) (c : FClass) (hspn : t.spn = s.spn) (hcfg : t.flt.cfg = s.flt.cfg) :
            SpineRaised n (reactTo t n p c) s := by
          have h := reactTo_spineRaised t n p c
          rwa [SpineRaised, hspn, show cfgOf t.flt n = cfgOf s.flt n by simp only [cfgOf, hcfg]] at h
        exact hreact _ _ (by simp only [mirror_only ..]) (by simp only [mirror_only ..]; rfl)

theorem raise_spineRaised (s : State) (n : Nat) (p : Word) (k : Nat) : SpineRaised n (raise s n p k) s := by
  unfold raise
  split
  · exact .inl rfl
  · exact raiseNow_spineRaised s n p k

theorem pulse_spineRaised (s : State) (n : Nat) (p : Word) : SpineRaised n (pulse s n p) s := by
  have h := raise_spineRaised s n p (srcRow n).unit
  simpa only [SpineRaised, pulse, causeOff_only .., raiseU] using h

theorem SpineRaised.spn_eq {n : Nat} {t s : State} (h : SpineRaised n t s) (hn : resetsSpine n = false) : t.spn = s.spn := by
  rcases h with h | ⟨hyes, _⟩
  · exact h
  · simp [hn] at hyes

theorem raiseU_spn {n : Nat} (hn : resetsSpine n = false) (s : State) (p : Word) : (raiseU s n p).spn = s.spn :=
  (raise_spineRaised ..).spn_eq hn

theorem pulse_spn {n : Nat} (hn : resetsSpine n = false) (s : State) (p : Word) : (pulse s n p).spn = s.spn :=
  (pulse_spineRaised ..).spn_eq hn

/-! The settling of the plant raises no source of the spine. -/

theorem plenEvals_spn (s : State) (cs : List HeatCfg) : (plenEvals s cs).spn = s.spn := by
  induction cs generalizing s with
  | nil => rfl
  | cons c cs ih =>
    rw [plenEvals, ih]
    simp only [plenEval, iteU .., raiseU_spn (n := 0x3B) rfl, setHtd_spn, ite_self]

theorem motTripRun_spn {src : Nat} (hsrc : resetsSpine src = false) (s : State) (ch cause : Nat) :
    (motTripRun s ch cause src).spn = s.spn := by
  simp only [motTripRun, motTrip, causeOff_only .., motRelease_only .., setMot_spn, raiseU_spn hsrc]

theorem motEval_spn (s : State) (c : MotorCfg) : (motEval s c).spn = s.spn := by
  have hfull : (fullEval s c).spn = s.spn := by
    simp only [fullEval, iteU .., raiseU_spn (n := 0x43) rfl, setMot_spn, ite_self]
  simp only [motEval, iteU .., motRelease_only .., motorProved_only .., motTripRun_spn (src := 0x41) rfl,
    motTripRun_spn (src := 0x40) rfl, setMot_spn, hfull, ite_self]

theorem motEvals_spn (s : State) (cs : List MotorCfg) : (motEvals s cs).spn = s.spn := by
  induction cs generalizing s with
  | nil => rfl
  | cons c cs ih => rw [motEvals, ih, motEval_spn]

@[simp] theorem settle_spn (s : State) : (settle s).spn = s.spn := by
  have hplen (t : State) : (plenSettle t).spn = t.spn := by
    simp only [plenSettle, iteU .., causeOff_only .., plenEvals_spn, ite_self]
  have hmot (t : State) : (motSettle t).spn = t.spn := by
    simp only [motSettle, iteU .., causeOff_only .., permLoop_only .., routeHolds_only .., motEvals_spn, ite_self]
  simp only [settle, trigSettle_only .., pairTimers_only .., pinSettle_only .., heatTracks_only .., gateSettle_only ..,
    startSettle_only .., hmot, hplen, swSettle_only .., sectSettle_only ..]

/-! The spine's reset: a router port has neither owner nor queue after it. -/

theorem spineReset_arb (x : Spn) {n : Nat} (hn : 256 ≤ n) : (tget {} (spineReset x).arbs n).owner = none := by
  have hall : ∀ t : Tab Arb, (∀ e ∈ t, 256 ≤ e.1 → e.2.owner = none) → (tget {} t n).owner = none := by
    intro t ht
    induction t with
    | nil => rfl
    | cons e t ih =>
      simp only [tget]
      split
      · next h => exact ht e (List.mem_cons_self ..) (h ▸ hn)
      · exact ih fun f hf => ht f (List.mem_cons_of_mem _ hf)
  refine hall _ fun e he hle => ?_
  obtain ⟨f, _, rfl⟩ := List.mem_map.mp he
  simp only [Nat.not_lt.mpr hle, if_false]

end Sys2Proof.Machine
end

section
/-! PROOFS. The arbiters (R185 to R204): an operation on one of them keeps its freeze bit and every requester that it does not name, and
leaves every other as it is. -/

namespace Sys2Proof.Machine

open Sys2Proof

/-! One arbiter. -/

section
variable {a : Arb} {r q : Nat} {back : Bool}

theorem arbHas_iff : arbHas a r = true ↔ r ∈ a.fg ∨ r ∈ a.bg ∨ a.next = some r ∨ a.owner = some r := by
  simp only [arbHas, Bool.or_eq_true, List.contains_iff_mem, beq_iff_eq, or_assoc]

theorem phaseChoose_has (h : arbHas a r = true) : arbHas (phaseChoose a) r = true := by
  rw [arbHas_iff] at h
  unfold phaseChoose
  split
  · exact arbHas_iff.mpr h
  · next hfree =>
    have hnext : a.next = none := by
      cases hn : a.next with
      | none => rfl
      | some _ => simp [hn] at hfree
    split <;> simp only [arbHas_iff, List.mem_filter, bne_iff_ne, Option.some.injEq] <;> grind

theorem phaseServe_has (h : arbHas a r = true) : arbHas (phaseServe a) r = true := by
  rw [arbHas_iff] at h
  unfold phaseServe
  split
  · next hfree =>
    have hown : a.owner = none := by
      cases ho : a.owner with
      | none => rfl
      | some _ => simp [ho] at hfree
    simp only [countGrant, arbHas_iff]
    grind
  · exact arbHas_iff.mpr h

theorem phaseSettle_has (h : arbHas a r = true) : arbHas (phaseSettle a) r = true :=
  phaseChoose_has (phaseServe_has (phaseChoose_has h))

@[simp] theorem phaseChoose_frozen (a : Arb) : (phaseChoose a).frozen = a.frozen := by
  unfold phaseChoose
  repeat' split
  all_goals rfl

@[simp] theorem phaseSettle_frozen (a : Arb) : (phaseSettle a).frozen = a.frozen := by
  have hserve (x : Arb) : (phaseServe x).frozen = x.frozen := by
    unfold phaseServe
    split <;> rfl
  simp only [phaseSettle, phaseChoose_frozen, hserve]

/-- The requester of a request waits, is granted or owns. -/
theorem phaseRequest_has_same (a : Arb) (r : Nat) (back : Bool) : arbHas (phaseRequest a r back) r = true := by
  unfold phaseRequest
  split
  · next h => exact h
  · refine phaseSettle_has (arbHas_iff.mpr ?_)
    cases back <;> simp

theorem phaseRequest_has (h : arbHas a q = true) : arbHas (phaseRequest a r back) q = true := by
  unfold phaseRequest
  split
  · exact h
  · rw [arbHas_iff] at h
    refine phaseSettle_has (arbHas_iff.mpr ?_)
    cases back <;> simp only [Bool.false_eq_true, if_true, if_false, List.mem_append] <;> grind

@[simp] theorem phaseRequest_frozen (a : Arb) (r : Nat) (back : Bool) : (phaseRequest a r back).frozen = a.frozen := by
  unfold phaseRequest
  split
  · rfl
  · cases back <;> exact phaseSettle_frozen _

theorem phaseRelease_has (h : arbHas a q = true) (hne : a.owner ≠ some q) : arbHas (phaseRelease a) q = true := by
  have hrest : q ∈ a.fg ∨ q ∈ a.bg ∨ a.next = some q := by
    rw [arbHas_iff] at h
    grind
  unfold phaseRelease
  split
  · exact h
  · split <;> refine phaseSettle_has (arbHas_iff.mpr ?_) <;> simp only [countDead] <;> grind

@[simp] theorem phaseRelease_frozen (a : Arb) : (phaseRelease a).frozen = a.frozen := by
  unfold phaseRelease
  split
  · rfl
  · split <;> exact phaseSettle_frozen _

theorem phaseWithdraw_has (h : arbHas a q = true) (hne : q ≠ r) : arbHas (phaseWithdraw a r) q = true := by
  rw [arbHas_iff] at h
  unfold phaseWithdraw
  split
  · next hnext => rw [beq_iff_eq] at hnext; rw [arbHas_iff]; grind
  · split
    · next hown =>
      rw [beq_iff_eq] at hown
      refine phaseSettle_has (arbHas_iff.mpr ?_)
      simp only [countDead]
      grind
    · simp only [arbHas_iff, List.mem_filter, bne_iff_ne]
      grind

@[simp] theorem phaseWithdraw_frozen (a : Arb) (r : Nat) : (phaseWithdraw a r).frozen = a.frozen := by
  unfold phaseWithdraw
  split
  · rfl
  · split
    · exact phaseSettle_frozen _
    · rfl

end

/-- The owner goes: after a release of an arbiter that nothing owns nothing has changed. -/
theorem phaseRelease_of_idle {a : Arb} (h : a.owner = none) : phaseRelease a = a := by
  simp [phaseRelease, h]

/-! An arbiter of the state. -/

section
variable (s : State) {m n : Nat} (f : Arb → Arb)

@[simp] theorem getArb_modArb_same : getArb (modArb s n f) n = f (getArb s n) := getArb_setArb_same ..

theorem getArb_modArb_other (h : m ≠ n) : getArb (modArb s n f) m = getArb s m := getArb_setArb_other _ _ h

theorem getArb_of_spn {s t : State} (h : t.spn = s.spn) (n : Nat) : getArb t n = getArb s n := by
  simp only [getArb, h]

end

/-! What the turns of one bank do to the spine: its arbiter moves for the bank's own two ports. -/

/-- The freeze bit is the same, and every requester but a bank's own ports is one still. -/
structure KeepsOthers (x a : Arb) : Prop where
  frozen : x.frozen = a.frozen
  has : ∀ r, r ≠ portFg → r ≠ portBg → arbHas a r = true → arbHas x r = true

theorem KeepsOthers.refl (a : Arb) : KeepsOthers a a := ⟨rfl, fun _ _ _ h => h⟩

theorem KeepsOthers.trans {x a b : Arb} (h : KeepsOthers x a) (h' : KeepsOthers a b) : KeepsOthers x b :=
  ⟨h.frozen.trans h'.frozen, fun r hf hb hr => h.has r hf hb (h'.has r hf hb hr)⟩

theorem phaseRequest_keepsOthers (a : Arb) (r : Nat) (back : Bool) : KeepsOthers (phaseRequest a r back) a :=
  ⟨phaseRequest_frozen .., fun _ _ _ h => phaseRequest_has h⟩

theorem phaseWithdraw_keepsOthers (a : Arb) {r : Nat} (hr : r = portFg ∨ r = portBg) : KeepsOthers (phaseWithdraw a r) a := by
  refine ⟨phaseWithdraw_frozen .., fun q hf hb h => phaseWithdraw_has h ?_⟩
  rintro rfl
  exact hr.elim hf hb

/-- Of the spine and the shared SRAM's turns at most the arbiter of bank b differs, and that keeps the requesters of others. -/
structure MovesBank (b : Nat) (t s : State) : Prop where
  spn : t.spn = { s.spn with arbs := t.spn.arbs }
  others : ∀ m, m ≠ 8 + b → getArb t m = getArb s m
  own : KeepsOthers (getArb t (8 + b)) (getArb s (8 + b))
  sram : t.prf.sramTurns = s.prf.sramTurns

theorem MovesBank.of_eq {b : Nat} {t s : State} (hspn : t.spn = s.spn) (hsram : t.prf.sramTurns = s.prf.sramTurns) :
    MovesBank b t s :=
  ⟨by rw [hspn], fun m _ => getArb_of_spn hspn m, getArb_of_spn hspn (8 + b) ▸ .refl _, hsram⟩

theorem MovesBank.refl (b : Nat) (s : State) : MovesBank b s s := .of_eq rfl rfl

theorem MovesBank.trans {b : Nat} {x y z : State} (h : MovesBank b x y) (h' : MovesBank b y z) : MovesBank b x z :=
  ⟨h.spn.trans (by rw [h'.spn]), fun m hm => (h.others m hm).trans (h'.others m hm), h.own.trans h'.own, h.sram.trans h'.sram⟩

theorem MovesBank.ite {p : Prop} [Decidable p] {b : Nat} {x y s : State} (hx : MovesBank b x s) (hy : MovesBank b y s) :
    MovesBank b (if p then x else y) s := by
  split
  · exact hx
  · exact hy

theorem modArb_movesBank {s : State} {b : Nat} {f : Arb → Arb} (h : KeepsOthers (f (getArb s (8 + b))) (getArb s (8 + b))) :
    MovesBank b (modArb s (8 + b) f) s :=
  ⟨rfl, fun _ hm => getArb_modArb_other s f hm, (getArb_modArb_same s f).symm ▸ h, rfl⟩

theorem bankRequest_movesBank (s : State) (b : Nat) : MovesBank b (bankRequest s b) s := by
  simp only [bankRequest]
  refine modArb_movesBank ?_
  have hask (p : Prop) [Decidable p] (a : Arb) (r : Nat) (back : Bool) :
      KeepsOthers (if p then phaseRequest a r back else a) a := by
    split
    · exact phaseRequest_keepsOthers ..
    · exact .refl a
  exact (hask ..).trans (hask ..)

theorem bankDrop_movesBank (s : State) (b : Nat) : MovesBank b (bankDrop s b) s := by
  simp only [bankDrop]
  refine modArb_movesBank ?_
  have hdrop (p : Prop) [Decidable p] (a : Arb) {r : Nat} (hr : r = portFg ∨ r = portBg) :
      KeepsOthers (if p then a else phaseWithdraw a r) a := by
    split
    · exact .refl a
    · exact phaseWithdraw_keepsOthers a hr
  exact (hdrop _ _ (.inr rfl)).trans (hdrop _ _ (.inl rfl))

theorem startTurn_movesBank (s : State) (b : Nat) (t : Store) (rest : List Store) : MovesBank b (startTurn s b t rest) s := by
  refine .of_eq (by simp only [startTurn_only ..]) ?_
  have hplace (x : State) (u : Store) : (mapPlace x u).1.prf.sramTurns = x.prf.sramTurns := by
    unfold mapPlace
    repeat' split
    all_goals rfl
  simp only [startTurn, iteU .., apply_ite Prf.sramTurns, refuseTurn_only .., refillQueue_only .., readPin_only .., hplace, ite_self]

/-- A bank serves as the owner of its arbiter, or where nothing owns it. -/
theorem nextTurn_owner {s : State} {b : Nat} {x : Store × List Store} (h : nextTurn s b = some x) :
    (getArb s (8 + b)).owner = some portFg ∨ (getArb s (8 + b)).owner = some portBg ∨ (getArb s (8 + b)).owner = none := by
  simp only [nextTurn] at h
  split at h
  · cases h
  split at h
  · next hfg => exact .inl (beq_iff_eq.mp hfg)
  split at h
  · next hbg => exact .inr (.inl (beq_iff_eq.mp hbg))
  split at h
  · next hdrained =>
    simp only [drained, Bool.and_eq_true, Option.isNone_iff_eq_none] at hdrained
    obtain ⟨⟨⟨⟨_, howner⟩, _⟩, _⟩, _⟩ := hdrained
    exact .inr (.inr howner)
  · cases h

theorem release_movesBank {s : State} {b : Nat}
    (h : (getArb s (8 + b)).owner = some portFg ∨ (getArb s (8 + b)).owner = some portBg ∨ (getArb s (8 + b)).owner = none) :
    MovesBank b (modArb s (8 + b) phaseRelease) s := by
  refine modArb_movesBank ⟨phaseRelease_frozen _, fun r hf hb hr => phaseRelease_has hr ?_⟩
  rcases h with h | h | h <;> simp [h, hf.symm, hb.symm]

theorem bankServe_movesBank (b k : Nat) (s : State) : MovesBank b (bankServe b k s) s := by
  induction k generalizing s with
  | zero => exact .refl b s
  | succ k ih =>
    simp only [bankServe]
    split
    · next t rest hnext =>
      have hstart := startTurn_movesBank s b t rest
      have howner := nextTurn_owner hnext
      rw [← getArb_of_spn (startTurn_only s b t rest).2.2.1.2.2.2 (8 + b)] at howner
      exact .ite hstart ((ih _).trans ((bankRequest_movesBank ..).trans ((release_movesBank howner).trans hstart)))
    · exact bankDrop_movesBank s b

theorem bankAsk_movesBank (s : State) (b : Nat) : MovesBank b (bankAsk s b) s :=
  (bankServe_movesBank ..).trans (bankRequest_movesBank s b)

theorem bankRelease_movesBank (s : State) (b : Nat) : MovesBank b (bankRelease s b) s := by
  refine (bankAsk_movesBank ..).trans ?_
  split
  · next h =>
    simp only [Bool.or_eq_true, beq_iff_eq] at h
    exact release_movesBank (h.imp_right .inl)
  · exact .refl b s

/-! Stores of one bank. -/

@[simp] theorem locBank_locOf (b row word : Nat) : locBank (locOf b row word) = b % 4 := by
  unfold locBank locOf
  omega

theorem startStore_movesBank (s : State) {t : Store} {b : Nat} (h : storeBank t = b) : MovesBank b (startStore s t) s := by
  subst h
  exact (bankAsk_movesBank ..).trans (.of_eq rfl rfl)

theorem requestStore_movesBank (s : State) {t : Store} {b : Nat} (h : storeBank t = b) : MovesBank b (requestStore s t) s := by
  unfold requestStore
  split
  · exact .of_eq rfl rfl
  · exact .of_eq rfl rfl
  · exact startStore_movesBank s h

theorem requestErase_movesBank (s : State) (b row : Nat) (o : Owner) : MovesBank b (requestErase s b row o) s :=
  .ite (.of_eq rfl rfl) (.ite (.of_eq rfl rfl) ((requestStore_movesBank (b := b) _ rfl).trans (.of_eq rfl rfl)))

theorem mapStoreAs_movesBank (s : State) (o : Owner) (e : Word) : MovesBank 0 (mapStoreAs s o e) s :=
  .ite (.refl 0 s) (requestStore_movesBank s (locBank_locOf ..))

theorem mapStore_movesBank (s : State) (e : Word) : MovesBank 0 (mapStore s e) s :=
  .ite (.of_eq rfl rfl) (mapStoreAs_movesBank s .repairMap e)

/-! The recorder, whose bank is 2. -/

theorem eraseAhead_movesBank (s : State) (row : Nat) : MovesBank 2 (eraseAhead s row) s :=
  (requestErase_movesBank ..).trans (.of_eq rfl rfl)

theorem aheadCheck_movesBank (s : State) : MovesBank 2 (aheadCheck s) s :=
  .ite (.refl 2 s) (.ite (.of_eq rfl rfl) ((eraseAhead_movesBank ..).trans (.of_eq rfl rfl)))

theorem beginChunk_movesBank {s : State} {t : Store} {xs : List Record} {header : Option (Nat × Word)} {b : Nat}
    (h : storeBank { t with words := chunkWords { recs := (giveSlots s.recr xs).1, header := header } } = b) :
    MovesBank b (beginChunk s t xs header) s := by
  simp only [beginChunk]
  exact (startStore_movesBank _ h).trans (.of_eq rfl rfl)

theorem giveSlots_etched {r : Recr} (h : r.etchedNext < 2048) (x : Record) : (giveSlots r [x]).1 =
    [(r.etchedNext, locOf 2 (r.etchedNext / 64) (5 * (r.etchedNext % 64)), x)] := by
  simp only [giveSlots, if_pos h]

theorem beginChunk_etched_movesBank {s : State} (h : s.recr.etchedNext < 2048) (t : Store) (x : Record) :
    MovesBank 2 (beginChunk s t [x] none) s := by
  refine beginChunk_movesBank ?_
  rw [giveSlots_etched h]
  simp only [chunkWords, List.flatMap_cons, recordWords, storeBank, List.nil_append, List.cons_append, locBank, locOf]
  omega

theorem beginChunk_header_movesBank (s : State) (t : Store) (xs : List Record) (r : Recr) (cleared : Bool) :
    MovesBank 2 (beginChunk s t xs (some (presentHeader r cleared))) s :=
  beginChunk_movesBank (locBank_locOf ..)

/-- The chunk of a clear begins with its header, or with a word of the etched area: both lie in bank 2. -/
theorem startClear_movesBank (s : State) (port : Word) : MovesBank 2 (startClear s port).2 s := by
  simp only [startClear]
  split
  · next h =>
    refine .trans (beginChunk_etched_movesBank ?_ ..) (.of_eq rfl rfl)
    exact h
  · exact (eraseAhead_movesBank ..).trans ((beginChunk_header_movesBank ..).trans (.of_eq rfl rfl))

theorem clearServe_movesBank (k : Nat) (s : State) : MovesBank 2 (clearServe k s) s := by
  have hanswer (t : State) (c : ClearReq) (st n : Nat) : MovesBank 2 (clearAnswer t c st n) t :=
    .of_eq (by simp only [clearAnswer_only ..]) (by simp only [clearAnswer_only ..])
  have hrefused (t : State) (x : Store) : MovesBank 2 (energyRefused t x) t :=
    .of_eq (by simp only [energyRefused_only ..]) (by simp only [energyRefused_only ..])
  have hread (t : State) : MovesBank 2 (readPin t) t := .of_eq rfl rfl
  have hrest (t : State) (cs : List ClearReq) : MovesBank 2 { t with recr := { t.recr with clears := cs } } t := .of_eq rfl rfl
  induction k generalizing s with
  | zero => exact .refl 2 s
  | succ k ih =>
    simp only [clearServe]
    split
    · exact .refl 2 s
    · next c cs _ =>
      split
      · exact (ih _).trans ((hanswer ..).trans (.ite ((hrefused ..).trans (hrest ..)) (hrest ..)))
      · have hahead : MovesBank 2 (if chunkMay s then aheadCheck s else s) s := .ite (aheadCheck_movesBank s) (.refl 2 s)
        refine .ite hahead (.ite ?_ (.ite ?_ ((hread _).trans hahead)))
        · exact (ih _).trans ((hanswer ..).trans ((hrefused ..).trans ((hrest ..).trans ((hread _).trans hahead))))
        · exact (ih _).trans ((hanswer ..).trans ((startClear_movesBank ..).trans ((hrest ..).trans ((hread _).trans hahead))))

theorem readsRun_recRead_movesBank (k : Nat) (s : State) : MovesBank 2 (readsRun 2 .recRead k s) s := by
  induction k generalizing s with
  | zero => exact .refl 2 s
  | succ k ih =>
    simp only [readsRun]
    split
    · exact .refl 2 s
    · next t _ =>
      split
      · next h =>
        have howner : t.owner = .recRead := by
          simp only [Bool.and_eq_true, beq_iff_eq] at h
          exact h.2
        refine (ih _).trans ?_
        simp only [readEnd, howner]
        exact (bankRelease_movesBank ..).trans (.of_eq rfl rfl)
      · exact .refl 2 s

theorem entryFaultsAll_spn (s : State) (ls : List Nat) : (entryFaultsAll s ls).spn = s.spn := by
  have hfound (t : State) (l : Nat) : (wordFound t l).spn = t.spn := by
    have hwant (u : State) (b row : Nat) : (wantRetire u b row).spn = u.spn := by
      simp only [wantRetire, iteU .., raiseU_spn (n := 0x24) rfl, ite_self]
    have hsource : resetsSpine (if uncorrAdvisory l then 0x20 else 0x1F) = false := by split <;> rfl
    unfold wordFound
    split
    · rfl
    · split
      · simp only [uncorrFound, hwant, pulse_spn hsource]
      · simp only [correctedFound_only ..]
      · rfl
  have hall (t : State) (xs : List Nat) : (wordsFound t xs).spn = t.spn := by
    induction xs generalizing t with
    | nil => rfl
    | cons x xs ih => rw [wordsFound, ih, hfound]
  induction ls generalizing s with
  | nil => rfl
  | cons l ls ih =>
    rw [entryFaultsAll, ih, entryFaults]
    split
    · rfl
    · exact hall ..

/-- What follows a turn of a bank looks at the recorder's bank alone (R415). -/
theorem svcStores_movesBank (s : State) : MovesBank 2 (svcStores s) s := by
  have hserve : MovesBank 2 (clearsServe (readsRun 2 .recRead 12 s)) s :=
    (clearServe_movesBank ..).trans (readsRun_recRead_movesBank 12 s)
  simp only [svcStores]
  split
  · exact hserve
  · split
    · refine .ite hserve (.trans ?_ hserve)
      exact .of_eq (by simp only [svcReply_only .., recReply, entryFaultsAll_spn])
        (by simp only [svcReply_only .., recReply, entryFaultsAll_only ..])
    · exact .ite hserve (.trans (.of_eq (by simp only [svcFinish_only ..]) (by simp only [svcFinish_only ..])) hserve)

end Sys2Proof.Machine
end

section
/-! PROOFS. O11: requests, releases, turns, withdrawals, dead cycles and freezes act on the arbiter they name (R186 to R198, R211). -/

namespace Sys2Proof.Machine

open Sys2Proof

/-! Which arbiters are router ports. -/

theorem linkPorts_ge {d p : Nat} (h : p ∈ linkPorts d) : 256 ≤ p := by
  simp only [linkPorts] at h
  repeat' split at h
  all_goals simp only [List.mem_cons, List.not_mem_nil, or_false, portKey] at h; omega

theorem linkEnds_fst_mem {d n : Nat} (h : (linkEnds d).1 = some n) : n ∈ linkPorts d := by
  unfold linkEnds at h
  split at h
  · next hports =>
    rw [hports]
    split at h <;> simp_all
  · next hports =>
    rw [hports]
    split at h <;> simp_all
  · cases h

theorem localPort_ge {s : State} {c : Cross} {d n : Nat} (h : localPort s c d = some n) : 256 ≤ n := by
  unfold localPort at h
  split at h
  · simp only [Option.some.injEq] at h
    omega
  · cases h

/-- The packet that holds a port is on a link that the port drives, or leaves through it the last link of its route. -/
theorem mem_cross_of_packetAt {s : State} {n : Nat} {c : Cross} (h : packetAt s n = some c) :
    ∃ d, (d, some c) ∈ s.spn.cross ∧ ((linkEnds d).1 = some n ∨ localPort s c d = some n) := by
  obtain ⟨⟨d, x⟩, hmem, hx⟩ := List.mem_filterMap.mp (List.mem_of_mem_head? (Option.mem_def.mpr h))
  cases x with
  | none => cases hx
  | some y =>
    simp only [Option.ite_none_right_eq_some, Bool.or_eq_true, beq_iff_eq, Option.some.injEq] at hx
    obtain ⟨hport, rfl⟩ := hx
    exact ⟨d, hmem, hport⟩

theorem portBusy_of_lt (s : State) {n : Nat} (h : n < 256) : portBusy s n = false := by
  rw [portBusy, Option.isSome_eq_false_iff, Option.isNone_iff_eq_none, Option.eq_none_iff_forall_ne_some]
  intro c hc
  obtain ⟨d, _, hend | hlocal⟩ := mem_cross_of_packetAt hc
  · exact absurd (linkPorts_ge (linkEnds_fst_mem hend)) (by omega)
  · exact absurd (localPort_ge hlocal) (by omega)

theorem unassigned_of_lt {n : Nat} (h : n < 256) : unassigned n = false := by
  refine List.any_eq_false.mpr fun e _ he => ?_
  have hmem : n ∈ linkPorts (256 + 2 * e) := (beq_iff_eq.mp he) ▸ List.mem_cons_self ..
  exact absurd (linkPorts_ge hmem) (by omega)

theorem phaseStyle_bank {n : Nat} (h : n < 12) : phaseStyle n = true := by simp [phaseStyle, h]

theorem phaseStyle_ahead {n : Nat} (h : 12 ≤ n) (h' : n < 256) : phaseStyle n = false := by simp [phaseStyle]; omega

theorem bankPort_of_not_bank {n : Nat} (h : ¬(8 ≤ n ∧ n < 12)) (r : Nat) : bankPort n r = false := by simp [bankPort, h]

theorem sramPort_of_bank {n : Nat} (h : 8 ≤ n) (r : Nat) : sramPort n r = false := by simp [sramPort, Nat.not_lt.mpr h]

theorem bankPort_bank {n r : Nat} (h : bankPort n r = true) : 8 ≤ n ∧ n < 12 := by
  simp only [bankPort, Bool.and_eq_true, decide_eq_true_eq] at h
  exact h.1

/-! A phase-separated arbiter moves. -/

section
variable (s : State) {n : Nat} (f : Arb → Arb)

theorem arbMove_bank (h : 8 ≤ n) (h' : n < 12) : arbMove s n f = svcStores (bankAsk (modArb s n f) (n - 8)) := by
  rw [arbMove, arbMoved, if_pos ⟨h, h'⟩]

theorem arbMove_not_bank (h : ¬(8 ≤ n ∧ n < 12)) : arbMove s n f = svcStores (modArb s n f) := by
  rw [arbMove, arbMoved, if_neg h]

theorem getArb_arbMove_same (h : ¬(8 ≤ n ∧ n < 12)) : getArb (arbMove s n f) n = f (getArb s n) := by
  rw [arbMove_not_bank s f h, (svcStores_movesBank _).others n (by omega), getArb_modArb_same]

theorem getArb_arbMove_other (h : ¬(8 ≤ n ∧ n < 12)) {m : Nat} (hm : m ≠ n) (hrec : m ≠ 10) :
    getArb (arbMove s n f) m = getArb s m := by
  rw [arbMove_not_bank s f h, (svcStores_movesBank _).others m hrec, getArb_modArb_other s f hm]

theorem arbMove_sramTurns (h : ¬(8 ≤ n ∧ n < 12)) : (arbMove s n f).prf.sramTurns = s.prf.sramTurns := by
  rw [arbMove_not_bank s f h, (svcStores_movesBank _).sram]
  simp only [modArb_only ..]

end

theorem MovesBank.has {b : Nat} {t s : State} (h : MovesBank b t s) {n r : Nat} (hf : r ≠ portFg) (hb : r ≠ portBg)
    (hr : arbHas (getArb s n) r = true) : arbHas (getArb t n) r = true := by
  by_cases hn : n = 8 + b
  · subst hn
    exact h.own.has r hf hb hr
  · rw [h.others n hn]
    exact hr

/-! Requests (R186, R189). -/

theorem exec_arbRequest (s : State) (n r : Nat) (back : Bool) : exec (.arbRequest n r back) s = execArbRequest n r back s := rfl

theorem arbRequest_next {s : State} {n r : Nat} (back : Bool) (hheld : s.rst.held = false) (hphase : phaseStyle n = true)
    (hport : unassigned n = false) (hbank : bankPort n r = false) (hsram : sramPort n r = false) :
    exec (.arbRequest n r back) s = .next (arbMove s n fun a => phaseRequest a r back) := by
  simp [exec_arbRequest, execArbRequest, hheld, hphase, hport, hbank, hsram]

theorem arbMove_request_has (s : State) {n r : Nat} (back : Bool) (hbank : bankPort n r = false) :
    arbHas (getArb (arbMove s n fun a => phaseRequest a r back) n) r = true := by
  by_cases hn : 8 ≤ n ∧ n < 12
  · have hr : r ≠ portFg ∧ r ≠ portBg := by simpa [bankPort, hn] using hbank
    rw [arbMove_bank s _ hn.1 hn.2]
    refine (svcStores_movesBank _).has hr.1 hr.2 ((bankAsk_movesBank ..).has hr.1 hr.2 ?_)
    rw [getArb_modArb_same]
    exact phaseRequest_has_same ..
  · rw [getArb_arbMove_same s _ hn]
    exact phaseRequest_has_same ..

theorem arbRequest_idle_of_sramPort (s : State) {n r : Nat} (back : Bool) (h : sramPort n r = true) :
    Idle (.arbRequest n r back) s := by
  have hn : n < 8 := by
    simp only [sramPort, Bool.and_eq_true, decide_eq_true_eq] at h
    exact h.1
  simp [Idle, exec_arbRequest, execArbRequest, phaseStyle_bank (show n < 12 by omega),
    bankPort_of_not_bank (show ¬(8 ≤ n ∧ n < 12) by omega), h]

theorem arbRequest_next_of_bankPort {s : State} {n r : Nat} (back : Bool) (hheld : s.rst.held = false)
    (h : bankPort n r = true) : exec (.arbRequest n r back) s = .next (svcStores (bankAsk s (n - 8))) := by
  obtain ⟨_, hlt⟩ := bankPort_bank h
  simp [exec_arbRequest, execArbRequest, hheld, unassigned_of_lt (show n < 256 by omega), phaseStyle_bank hlt, h]

theorem arbRequest_next_of_can {s : State} {n : Nat} (r : Nat) (back : Bool) (hheld : s.rst.held = false) (h : 18 ≤ n)
    (h' : n < 22) : exec (.arbRequest n r back) s = .next (canDecide s (n - 18)) := by
  have hlt : n < 256 := by omega
  simp [exec_arbRequest, execArbRequest, hheld, unassigned_of_lt hlt, phaseStyle_ahead (show 12 ≤ n by omega) hlt, h, h']

theorem arbRequest_idle_of_other (s : State) {n : Nat} (r : Nat) (back : Bool)
    (h : unassigned n = true ∨ (phaseStyle n = false ∧ (n < 18 ∨ 22 < n))) : Idle (.arbRequest n r back) s := by
  rcases h with hport | ⟨hphase, hn⟩
  · simp [Idle, exec_arbRequest, execArbRequest, hport]
  · have hcan : ¬(18 ≤ n ∧ n < 22) := by omega
    have hstb : n ≠ 22 := by omega
    simp [Idle, exec_arbRequest, execArbRequest, hphase, hcan, hstb]

/-- The start budget takes a request that stands and that it does not hold yet (R651). -/
theorem arbRequest_startBudget {s : State} {r : Nat} (back : Bool) (hheld : s.rst.held = false) (hstands : reqStands s r = true)
    (hnew : s.stb.reqs.any (·.1 == r) = false) : Runs (.arbRequest 22 r back) s fun t =>
      t.stb.reqs = s.stb.reqs ++ [(r, s.now)] := by
  refine ⟨startAsk s r, ?_, ?_⟩
  · simp [exec_arbRequest, execArbRequest, execStartRequest, hheld, unassigned_of_lt (show 22 < 256 by decide),
      phaseStyle_ahead (show 12 ≤ 22 by decide) (by decide)]
  · simp [startAsk, hstands, hnew]

/-! The transmit selections (R191, R871 to R875), of index 18 to 21. -/

/-- The choice that controller n's selection prepares, of its mailboxes in state s. -/
def canPrepared (s : State) (n : Nat) : Arb :=
  aheadChoose (getArb s (18 + n)) (mbBest s n) (rrNext (mbWaiting s n 24 8) (getArb s (18 + n)).lastBg)

theorem getArb_canChoose_same (s : State) (n : Nat) : getArb (canChoose s n) (18 + n) = canPrepared s n :=
  getArb_setArb_same ..

theorem getArb_canChoose_other (s : State) {m n : Nat} (h : m ≠ 18 + n) : getArb (canChoose s n) m = getArb s m :=
  getArb_setArb_other _ _ h

/-- A choice is of the next turn: the turn and the dead cycle in progress, and the counts, are the same. -/
theorem aheadChoose_turn (a : Arb) (fg bg : Option Nat) :
    (aheadChoose a fg bg).owner = a.owner ∧ (aheadChoose a fg bg).grants = a.grants ∧
      (aheadChoose a fg bg).dead = a.dead ∧ (aheadChoose a fg bg).deadDue = a.deadDue ∧
      (aheadChoose a fg bg).deads = a.deads ∧ (aheadChoose a fg bg).frozen = a.frozen := by
  unfold aheadChoose
  repeat' split
  all_goals exact ⟨rfl, rfl, rfl, rfl, rfl, rfl⟩

theorem getArb_canDecide_other (s : State) {m n : Nat} (h : m ≠ 18 + n) : getArb (canDecide s n) m = getArb s m := by
  simp only [canDecide]
  split
  · exact getArb_canChoose_other s h
  · rfl

theorem canDecide_dead (s : State) (n : Nat) : (getArb (canDecide s n) (18 + n)).dead = (getArb s (18 + n)).dead := by
  simp only [canDecide]
  split
  · rw [getArb_canChoose_same]
    exact (aheadChoose_turn ..).2.2.1
  · rfl

theorem exec_arbTurnStart (s : State) (n : Nat) : exec (.arbTurnStart n) s = execArbTurnStart n s := rfl

section
variable {s : State} {n : Nat}

theorem arbTurnStart_next (h : 18 ≤ n) (h' : n < 22) (hruns : canRuns s (n - 18) = true)
    (hbus : onBus (getCan s (n - 18)) = true) (hpex : (getCan s (n - 18)).pexWait = false) (howner : (getArb s n).owner = none)
    (hdead : (getArb s n).dead = false) (hdue : (getArb s n).next.isSome = true ∨ (getArb s n).deadDue = true) :
    exec (.arbTurnStart n) s = .next (canChoose (modArb s n aheadServe) (n - 18)) := by
  have hturn : ((getArb s n).next.isSome || (getArb s n).deadDue) = true := Bool.or_eq_true .. ▸ hdue
  simp [exec_arbTurnStart, execArbTurnStart, h, h', hruns, hbus, hpex, howner, hdead, hturn]

/-- The arbiter after a turn has started and the next one is chosen: what the start has made of it, with a choice. -/
theorem getArb_turnStarted (h : 18 ≤ n) : ∃ fg bg,
    getArb (canChoose (modArb s n aheadServe) (n - 18)) n = aheadChoose (aheadServe (getArb s n)) fg bg := by
  obtain ⟨k, rfl⟩ := Nat.exists_eq_add_of_le h
  rw [Nat.add_sub_cancel_left]
  refine ⟨mbBest (modArb s (18 + k) aheadServe) k, rrNext (mbWaiting (modArb s (18 + k) aheadServe) k 24 8)
    (aheadServe (getArb s (18 + k))).lastBg, ?_⟩
  rw [getArb_canChoose_same, canPrepared, getArb_modArb_same]

theorem aheadServe_of_next {a : Arb} {m : Nat} (howner : a.owner = none) (hdead : a.dead = false) (hfrozen : a.frozen = false)
    (hnext : a.next = some m) (hdue : a.deadDue = false) :
    (aheadServe a).owner = some m ∧ (aheadServe a).grants = (a.grants + 1) % 16777216 := by
  simp [aheadServe, countGrant, howner, hdead, hfrozen, hnext, hdue]

theorem aheadServe_of_deadDue {a : Arb} (howner : a.owner = none) (hdead : a.dead = false) (hfrozen : a.frozen = false)
    (hdue : a.deadDue = true) :
    (aheadServe a).dead = true ∧ (aheadServe a).deadDue = false ∧ (aheadServe a).deads = min 65535 (a.deads + 1) := by
  simp [aheadServe, countDead, satAdd, howner, hdead, hfrozen, hdue]

end

/-! Releases (R189). -/

theorem exec_arbRelease (s : State) (n r : Nat) : exec (.arbRelease n r) s = execArbRelease n r s := rfl

section
variable {s : State} {n r : Nat}

theorem arbRelease_next (hheld : s.rst.held = false) (hphase : phaseStyle n = true) (howner : (getArb s n).owner = some r)
    (hbusy : portBusy s n = false) (hturn : bankTurn s n r = none) : exec (.arbRelease n r) s =
      if sramPort n r then fin (sramEnd (arbMove s n phaseRelease) n) else .next (arbMove s n phaseRelease) := by
  simp [exec_arbRelease, execArbRelease, hheld, hphase, howner, hbusy, hturn]

theorem bankTurn_of_not_bank (h : ¬(8 ≤ n ∧ n < 12)) : bankTurn s n r = none := by
  simp [bankTurn, bankPort_of_not_bank h]

theorem sramEntries_movesBank (s : State) (rows : List Nat) : MovesBank 0 (sramEntries s rows) s := by
  induction rows generalizing s with
  | nil => exact .refl 0 s
  | cons row rows ih =>
    exact (ih _).trans (.ite (.refl 0 s) ((mapStore_movesBank ..).trans (.of_eq rfl rfl)))

/-- The scrub's packet at a bank of the shared SRAM ends: its turn is off the list, and of the arbiters at most that of bank 0 of the
array moves, for the map entries. -/
theorem settle_sramEnd (s : State) (b : Nat) :
    (∀ m, m ≠ 8 → getArb (settle (sramEnd s b)) m = getArb s m) ∧
      (settle (sramEnd s b)).prf.sramTurns = s.prf.sramTurns.filter (·.1 != b) := by
  have hend : MovesBank 0 (sramEnd s b)
      { s with prf := { s.prf with sramTurns := s.prf.sramTurns.filter (fun x => x.1 != b) } } := sramEntries_movesBank ..
  refine ⟨fun m hm => ?_, ?_⟩
  · rw [getArb_of_spn (settle_spn _), hend.others m hm]
    rfl
  · simp only [settle_only .., hend.sram]

theorem arbRelease_runs (hheld : s.rst.held = false) (hphase : phaseStyle n = true) (howner : (getArb s n).owner = some r)
    (hbusy : portBusy s n = false) (hn : ¬(8 ≤ n ∧ n < 12)) : Runs (.arbRelease n r) s fun t =>
      getArb t n = phaseRelease (getArb s n) ∧ (sramPort n r = false → ∀ m, m ≠ n → m ≠ 10 → getArb t m = getArb s m) ∧
      (sramPort n r = true → t.prf.sramTurns = s.prf.sramTurns.filter (·.1 != n)) := by
  have hexec := arbRelease_next hheld hphase howner hbusy (bankTurn_of_not_bank hn)
  have hsame := getArb_arbMove_same s phaseRelease hn
  cases hsram : sramPort n r with
  | false =>
    rw [hsram] at hexec
    exact ⟨_, hexec, hsame, fun _ m hm hrec => getArb_arbMove_other s phaseRelease hn hm hrec, fun h => nomatch h⟩
  | true =>
    rw [hsram] at hexec
    obtain ⟨harbs, hturns⟩ := settle_sramEnd (arbMove s n phaseRelease) n
    refine ⟨_, hexec, ?_, (nomatch ·), fun _ => ?_⟩
    · rw [harbs n (by omega), hsame]
    · rw [hturns, arbMove_sramTurns s phaseRelease hn]

theorem arbRelease_next_of_bank (hheld : s.rst.held = false) (h : 8 ≤ n) (h' : n < 12) (howner : (getArb s n).owner = some r)
    (hturn : bankTurn s n r = none) (hbusy : portBusy s n = false) :
    exec (.arbRelease n r) s = .next (svcStores (bankAsk (modArb s n phaseRelease) (n - 8))) := by
  rw [arbRelease_next hheld (phaseStyle_bank h') howner hbusy hturn, sramPort_of_bank h, arbMove_bank s _ h h']
  rfl

theorem arbRelease_next_of_read {q : Store} (hheld : s.rst.held = false) (h' : n < 12) (howner : (getArb s n).owner = some r)
    (hturn : bankTurn s n r = some q) (hkind : q.kind = .read) (hbusy : portBusy s n = false) :
    exec (.arbRelease n r) s = .next (settle (svcStores (readEnd s (n - 8) q))) := by
  simp [exec_arbRelease, execArbRelease, fin, hheld, phaseStyle_bank h', howner, hbusy, hturn, hkind]

end

/-! Withdrawals (R194, R195, R204). -/

theorem exec_arbWithdraw (s : State) (n r : Nat) : exec (.arbWithdraw n r) s = execArbWithdraw n r s := rfl

/-- A packet on its way through a router port keeps it (R178). -/
theorem arbRelease_arbWithdraw_idle {s : State} {n r : Nat} (hbusy : portBusy s n = true) (howner : (getArb s n).owner = some r) :
    Idle (.arbRelease n r) s ∧ Idle (.arbWithdraw n r) s := by
  constructor <;> simp [Idle, exec_arbRelease, execArbRelease, exec_arbWithdraw, execArbWithdraw, hbusy, howner]

section
variable {s : State} {n r : Nat}

theorem arbWithdraw_runs (hheld : s.rst.held = false) (hphase : phaseStyle n = true) (hn : ¬(8 ≤ n ∧ n < 12))
    (hfree : ¬((getArb s n).owner = some r ∧ portBusy s n = true)) : Runs (.arbWithdraw n r) s fun t =>
      getArb t n = phaseWithdraw (getArb s n) r ∧ (∀ m, m ≠ n → m ≠ 10 → getArb t m = getArb s m) ∧
      (sramPort n r = true → t.prf.sramTurns = s.prf.sramTurns.filter (·.1 != n)) := by
  have hgo : ((getArb s n).owner == some r && portBusy s n) = false := by
    rw [Bool.eq_false_iff]
    simpa only [ne_eq, Bool.and_eq_true, beq_iff_eq] using hfree
  cases hsram : sramPort n r with
  | false =>
    refine ⟨arbMove s n fun a => phaseWithdraw a r, ?_, getArb_arbMove_same _ _ hn,
      fun m hm hrec => getArb_arbMove_other _ _ hn hm hrec, (nomatch ·)⟩
    simp [exec_arbWithdraw, execArbWithdraw, hheld, hgo, hphase, bankPort_of_not_bank hn, hsram]
  | true =>
    refine ⟨arbMove { s with prf := { s.prf with sramTurns := s.prf.sramTurns.filter (·.1 != n) } } n
      fun a => phaseWithdraw a r, ?_, getArb_arbMove_same _ _ hn, fun m hm hrec => getArb_arbMove_other _ _ hn hm hrec,
      fun _ => arbMove_sramTurns _ _ hn⟩
    simp [exec_arbWithdraw, execArbWithdraw, hheld, hgo, hphase, bankPort_of_not_bank hn, hsram]

theorem arbWithdraw_next_of_bank (hheld : s.rst.held = false) (h : 8 ≤ n) (h' : n < 12) (hport : bankPort n r = false) :
    exec (.arbWithdraw n r) s = .next (svcStores (bankAsk (modArb s n fun a => phaseWithdraw a r) (n - 8))) := by
  simp [exec_arbWithdraw, execArbWithdraw, hheld, portBusy_of_lt s (show n < 256 by omega), phaseStyle_bank h', hport,
    sramPort_of_bank h, arbMove_bank s _ h h']

theorem arbWithdraw_next_of_bankPort (hheld : s.rst.held = false) (hport : bankPort n r = true) (hturn : bankTurn s n r = none) :
    exec (.arbWithdraw n r) s = .next (modArb s n fun a => phaseWithdraw a r) := by
  obtain ⟨_, hlt⟩ := bankPort_bank hport
  simp [exec_arbWithdraw, execArbWithdraw, hheld, portBusy_of_lt s (show n < 256 by omega), phaseStyle_bank hlt, hport, hturn]

theorem arbWithdraw_eq_mailboxAbort (hheld : s.rst.held = false) (h : 18 ≤ n) (h' : n < 22) :
    exec (.arbWithdraw n r) s = exec (.mailboxAbort (n - 18) r) s := by
  have hlt : n < 256 := by omega
  have hexec : exec (.mailboxAbort (n - 18) r) s = execMailboxAbort (n - 18) r s := rfl
  simp [exec_arbWithdraw, execArbWithdraw, hexec, hheld, portBusy_of_lt s hlt, phaseStyle_ahead (show 12 ≤ n by omega) hlt, h, h']

theorem arbWithdraw_eq_startWithdraw (hheld : s.rst.held = false) :
    exec (.arbWithdraw 22 r) s = exec (.startWithdraw r) s := by
  have hexec : exec (.startWithdraw r) s = execStartWithdraw r s := rfl
  simp [exec_arbWithdraw, execArbWithdraw, hexec, hheld, portBusy_of_lt s (show 22 < 256 by decide),
    phaseStyle_ahead (show 12 ≤ 22 by decide) (by decide)]

end

/-! Dead cycles (R195). -/

theorem exec_deadCycleEnd (s : State) (n : Nat) : exec (.deadCycleEnd n) s = execDeadCycleEnd n s := rfl

section
variable {s : State} {n : Nat}

theorem deadCycleEnd_next (hheld : s.rst.held = false) (hphase : phaseStyle n = true) :
    exec (.deadCycleEnd n) s = .next (arbMove s n phaseDeadEnd) := by
  simp [exec_deadCycleEnd, execDeadCycleEnd, hheld, hphase]

theorem deadCycleEnd_runs_of_can (hheld : s.rst.held = false) (h : 18 ≤ n) (h' : n < 22) (hdead : (getArb s n).dead = true) :
    Runs (.deadCycleEnd n) s fun t => (getArb t n).dead = false ∧ ∀ m, m ≠ n → getArb t m = getArb s m := by
  refine ⟨canDecide (modArb s n fun a => { a with dead := false }) (n - 18), ?_, ?_, fun m hm => ?_⟩
  · simp [exec_deadCycleEnd, execDeadCycleEnd, hheld, phaseStyle_ahead (show 12 ≤ n by omega) (show n < 256 by omega), h, h', hdead]
  · have hcan := canDecide_dead (modArb s n fun a => { a with dead := false }) (n - 18)
    rwa [Nat.add_sub_cancel' h, getArb_modArb_same] at hcan
  · rw [getArb_canDecide_other _ (by omega), getArb_modArb_other s _ hm]

end

/-! Freeze bits (R197, R198). -/

theorem exec_arbFreeze (s : State) (n : Nat) : exec (.arbFreeze n) s = execArbFreeze n s := rfl

theorem exec_arbUnfreeze (s : State) (n : Nat) : exec (.arbUnfreeze n) s = execArbUnfreeze n s := rfl

theorem setFreeze_spn (s : State) (n : Nat) : (setFreeze s n).spn = (modArb s n (arbFreeze n)).spn := by
  simp only [setFreeze, iteU .., setList_only .., ite_self]

theorem getArb_setFreeze_same (s : State) (n : Nat) : getArb (setFreeze s n) n = arbFreeze n (getArb s n) := by
  rw [getArb_of_spn (setFreeze_spn s n), getArb_modArb_same]

theorem getArb_setFreeze_other (s : State) {m n : Nat} (h : m ≠ n) : getArb (setFreeze s n) m = getArb s m := by
  rw [getArb_of_spn (setFreeze_spn s n), getArb_modArb_other s _ h]

@[simp] theorem arbFreeze_frozen (n : Nat) (a : Arb) : (arbFreeze n a).frozen = true := by
  unfold arbFreeze
  split
  · next h => exact h
  · split <;> rfl

/-- An arbiter that is not phase-separated discards its choice as the freeze begins. -/
theorem arbFreeze_next {n : Nat} (h : phaseStyle n = false) {a : Arb} (ha : a.frozen = false) : (arbFreeze n a).next = none := by
  simp [arbFreeze, ha, h]

theorem arbUnfreeze_frozen (n : Nat) (a : Arb) : (arbUnfreeze n a).frozen = false := by
  unfold arbUnfreeze
  split
  · next h => simpa using h
  · split
    · exact phaseSettle_frozen _
    · rfl

theorem canFresh_frozen (s : State) (n : Nat) : (getArb (canFresh s n) (18 + n)).frozen = (getArb s (18 + n)).frozen := by
  simp only [canFresh]
  split
  · rw [getArb_canChoose_same]
    exact (aheadChoose_turn ..).2.2.2.2.2
  · rfl

theorem getArb_canFresh_other (s : State) {m n : Nat} (h : m ≠ 18 + n) : getArb (canFresh s n) m = getArb s m := by
  simp only [canFresh]
  split
  · exact getArb_canChoose_other s h
  · rfl

/-- Where a bank's arbiter has moved, its freeze bit and every other arbiter are the same. -/
theorem arbMoved_frozen (s : State) (n : Nat) :
    (getArb (arbMoved s n) n).frozen = (getArb s n).frozen ∧ ∀ m, m ≠ n → getArb (arbMoved s n) m = getArb s m := by
  unfold arbMoved
  split
  · next h =>
    obtain ⟨b, rfl⟩ := Nat.exists_eq_add_of_le h.1
    rw [Nat.add_sub_cancel_left]
    exact ⟨(bankAsk_movesBank s b).own.frozen, (bankAsk_movesBank s b).others⟩
  · exact ⟨rfl, fun _ _ => rfl⟩

/-- The arbiter whose freeze ends is free of it, and every other arbiter is the same. -/
theorem clearFreeze_arbs (s : State) (n : Nat) :
    (getArb (clearFreeze s n) n).frozen = false ∧ ∀ m, m ≠ n → getArb (clearFreeze s n) m = getArb s m := by
  obtain ⟨hfrozen, hother⟩ := arbMoved_frozen (modArb s n (arbUnfreeze n)) n
  have hmoved : (getArb (arbMoved (modArb s n (arbUnfreeze n)) n) n).frozen = false ∧
      ∀ m, m ≠ n → getArb (arbMoved (modArb s n (arbUnfreeze n)) n) m = getArb s m := by
    refine ⟨?_, fun m hm => (hother m hm).trans (getArb_modArb_other s _ hm)⟩
    rw [hfrozen, getArb_modArb_same, arbUnfreeze_frozen]
  simp only [clearFreeze]
  split
  · split
    · split
      · exact hmoved
      · exact hmoved
    · split
      · next h =>
        have hn : 18 + (n - 18) = n := Nat.add_sub_cancel' h.1
        refine ⟨?_, fun m hm => ?_⟩
        · have hfresh := canFresh_frozen (arbMoved (modArb s n (arbUnfreeze n)) n) (n - 18)
          rw [hn, hmoved.1] at hfresh
          exact hfresh
        · rw [getArb_canFresh_other _ (hn.symm ▸ hm), hmoved.2 m hm]
      · exact hmoved
  · next h => exact ⟨Bool.eq_false_iff.mpr h, fun _ _ => rfl⟩

theorem arbFreeze_runs {s : State} {n : Nat} (hkeeper : keeperRuns s = true) (hn : freezable n = true) :
    Runs (.arbFreeze n) s fun t => (getArb t n).frozen = true ∧
      (n < 12 ∨ 22 ≤ n ∨ (getArb s n).frozen = true ∨ (getArb t n).next = none) ∧ ∀ m, m ≠ n → getArb t m = getArb s m := by
  refine ⟨setFreeze s n, by simp [exec_arbFreeze, execArbFreeze, hkeeper, hn], ?_, ?_, fun m hm => getArb_setFreeze_other s hm⟩
  · rw [getArb_setFreeze_same, arbFreeze_frozen]
  · by_cases hahead : 12 ≤ n ∧ n < 22
    · cases hfrozen : (getArb s n).frozen with
      | true => exact .inr (.inr (.inl rfl))
      | false =>
        refine .inr (.inr (.inr ?_))
        rw [getArb_setFreeze_same]
        exact arbFreeze_next (phaseStyle_ahead hahead.1 (by omega)) hfrozen
    · omega

theorem arbUnfreeze_runs {s : State} {n : Nat} (hkeeper : keeperRuns s = true) (hn : freezable n = true) :
    Runs (.arbUnfreeze n) s fun t => (getArb t n).frozen = false ∧ ∀ m, m ≠ n → getArb t m = getArb s m :=
  ⟨clearFreeze s n, by simp [exec_arbUnfreeze, execArbUnfreeze, hkeeper, hn], clearFreeze_arbs s n⟩

/-! A double grant (R211). -/

theorem arbDouble_settles {s : State} (n : Nat) (hheld : s.rst.held = false) (hraise : Raisable s 0x03) :
    Settles (.arbDouble n) s fun u => (getSrc u.flt 0x03).uncleared = true ∧ (getSrc u.flt 0x03).param = pw n := by
  have hexec : exec (.arbDouble n) s = execArbDouble n s := rfl
  refine ⟨raiseU s 0x03 (pw n), by simp [hexec, execArbDouble, fin, hheld], ?_⟩
  obtain ⟨huncleared, _, _, hparam, _⟩ := raise_src s 0x03 (pw n) (srcRow 0x03).unit hraise.1
  exact ⟨huncleared, (hparam hraise.2).2.1⟩

/-- Settles O11: a turn of a bank moves its own arbiter for its own two ports, so that the recorder's bank 2, which is looked at after
every move, is the only other arbiter that a command changes. -/
theorem arbitersFollowTheirRules : Obligations.ArbitersFollowTheirRules := by
  unfold Obligations.ArbitersFollowTheirRules
  refine ⟨?request, fun s n r back h => arbRequest_idle_of_sramPort s back h,
    fun s n r back hheld h => ⟨_, arbRequest_next_of_bankPort back hheld h, rfl⟩, ?canRequest,
    fun s r back hheld hstands hnew => arbRequest_startBudget back hheld hstands hnew,
    fun s n r back h => arbRequest_idle_of_other s r back h,
    fun s n r hheld hphase howner hbusy hn => arbRelease_runs hheld hphase howner hbusy hn,
    fun s n r hbusy howner => arbRelease_arbWithdraw_idle hbusy howner,
    fun s n r hheld h h' howner hturn hbusy => ⟨_, arbRelease_next_of_bank hheld h h' howner hturn hbusy, rfl⟩,
    fun s n r q hheld _ h' howner hturn hkind hbusy => ⟨_, arbRelease_next_of_read hheld h' howner hturn hkind hbusy, rfl⟩,
    fun s n h h' hruns hbus hpex howner hdead hdue =>
      ⟨_, arbTurnStart_next h h' hruns hbus hpex howner hdead hdue, rfl⟩,
    ?served, ?deadTurn, fun s => rfl,
    fun s n r hheld hphase hn hfree => arbWithdraw_runs hheld hphase hn hfree,
    fun s n r hheld h h' hport => ⟨_, arbWithdraw_next_of_bank hheld h h' hport, rfl⟩,
    fun s n r hheld hport hturn => ⟨_, arbWithdraw_next_of_bankPort hheld hport hturn, getArb_modArb_same .., fun m hm =>
      getArb_modArb_other s _ hm⟩,
    fun s n r hheld h h' => arbWithdraw_eq_mailboxAbort hheld h h', fun s r hheld => arbWithdraw_eq_startWithdraw hheld,
    fun s n hheld hphase hn => ⟨_, deadCycleEnd_next hheld hphase, getArb_arbMove_same s _ hn, fun m hm hrec =>
      getArb_arbMove_other s _ hn hm hrec⟩,
    fun s n hheld h h' => ⟨_, deadCycleEnd_next hheld (phaseStyle_bank h'), arbMove_bank s _ h h'⟩,
    fun s n hheld h h' hdead => deadCycleEnd_runs_of_can hheld h h' hdead,
    fun s n hkeeper hn => arbFreeze_runs hkeeper hn, fun s n hkeeper hn _ => arbUnfreeze_runs hkeeper hn,
    fun s n hheld hraise => arbDouble_settles n hheld hraise⟩
  case request =>
    intro s n r back hheld hphase hport hbank hsram
    exact ⟨_, arbRequest_next back hheld hphase hport hbank hsram, arbMove_request_has s back hbank, fun hn =>
      ⟨getArb_arbMove_same s _ hn, fun m hm hrec => getArb_arbMove_other s _ hn hm hrec⟩⟩
  case canRequest =>
    intro s n r back hheld h h' hbus howner hnext hdue hdead
    obtain ⟨k, rfl⟩ := Nat.exists_eq_add_of_le h
    rw [Nat.add_sub_cancel_left] at *
    refine ⟨canChoose s k, ?_, getArb_canChoose_same s k, fun m hm => getArb_canChoose_other s hm⟩
    rw [arbRequest_next_of_can r back hheld h h', Nat.add_sub_cancel_left]
    simp [canDecide, hbus, howner, hnext, hdue, hdead]
  case served =>
    intro s n m h h' hruns hbus hpex howner hdead hfrozen hnext hdue
    refine ⟨_, arbTurnStart_next h h' hruns hbus hpex howner hdead (.inl (by simp [hnext])), ?_⟩
    obtain ⟨fg, bg, harb⟩ := getArb_turnStarted (s := s) h
    obtain ⟨hturn, hgrants, _⟩ := aheadChoose_turn (aheadServe (getArb s n)) fg bg
    rw [harb, hturn, hgrants]
    exact aheadServe_of_next howner hdead hfrozen hnext hdue
  case deadTurn =>
    intro s n h h' hruns hbus hpex howner hdead hfrozen hdue
    refine ⟨_, arbTurnStart_next h h' hruns hbus hpex howner hdead (.inr hdue), ?_⟩
    obtain ⟨fg, bg, harb⟩ := getArb_turnStarted (s := s) h
    obtain ⟨_, _, hturn, hleft, hcount, _⟩ := aheadChoose_turn (aheadServe (getArb s n)) fg bg
    rw [harb, hturn, hleft, hcount]
    exact aheadServe_of_deadDue howner hdead hfrozen hdue

end Sys2Proof.Machine
end

section
/-! PROOFS. O10: words of packets on the links, corrections and poison (R172, R173, R208, R209), lane swaps (R174) and stalls of router
ports (R210). -/

namespace Sys2Proof.Machine

open Sys2Proof

/-! Of the spine the arbiters alone move. -/

/-- The spine is the same but for its arbiters. -/
structure ArbsOnly (t s : State) : Prop where
  spn : t.spn = { s.spn with arbs := t.spn.arbs }

theorem ArbsOnly.of_eq {t s : State} (h : t.spn = s.spn) : ArbsOnly t s := ⟨by rw [h]⟩

theorem ArbsOnly.refl (s : State) : ArbsOnly s s := .of_eq rfl

theorem ArbsOnly.trans {x y z : State} (h : ArbsOnly x y) (h' : ArbsOnly y z) : ArbsOnly x z :=
  ⟨h.spn.trans (by rw [h'.spn])⟩

theorem ArbsOnly.ite {p : Prop} [Decidable p] {x y s : State} (hx : ArbsOnly x s) (hy : ArbsOnly y s) :
    ArbsOnly (if p then x else y) s := by
  split
  · exact hx
  · exact hy

section
variable {t s : State} (h : ArbsOnly t s)
include h

theorem ArbsOnly.links : t.spn.links = s.spn.links := (congrArg Spn.links h.spn :)
theorem ArbsOnly.cross : t.spn.cross = s.spn.cross := (congrArg Spn.cross h.spn :)
theorem ArbsOnly.bad : t.spn.bad = s.spn.bad := (congrArg Spn.bad h.spn :)
theorem ArbsOnly.swaps : t.spn.swaps = s.spn.swaps := (congrArg Spn.swaps h.spn :)
theorem ArbsOnly.lane : t.spn.lane = s.spn.lane := (congrArg Spn.lane h.spn :)
theorem ArbsOnly.stall : t.spn.stall = s.spn.stall := (congrArg Spn.stall h.spn :)
theorem ArbsOnly.poison : t.spn.poison = s.spn.poison := (congrArg Spn.poison h.spn :)
theorem ArbsOnly.tables : t.spn.tables = s.spn.tables := (congrArg Spn.tables h.spn :)
theorem ArbsOnly.spareLeft : t.spn.spareLeft = s.spn.spareLeft := (congrArg Spn.spareLeft h.spn :)

end

theorem MovesBank.arbsOnly {b : Nat} {t s : State} (h : MovesBank b t s) : ArbsOnly t s := ⟨h.spn⟩

theorem modArb_arbsOnly (s : State) (n : Nat) (f : Arb → Arb) : ArbsOnly (modArb s n f) s := ⟨rfl⟩

theorem releasePort_arbsOnly (s : State) (port : Option Nat) : ArbsOnly (releasePort s port) s := by
  cases port with
  | none => exact .refl s
  | some n => exact modArb_arbsOnly s n phaseRelease

theorem setFreezes_arbsOnly (s : State) (ns : List Nat) : ArbsOnly (setFreezes s ns) s := by
  induction ns generalizing s with
  | nil => exact .refl s
  | cons n ns ih => exact (ih _).trans (.trans (.of_eq (setFreeze_spn s n)) (modArb_arbsOnly ..))

theorem setFreezes_frozen (s : State) {ns : List Nat} {p : Nat} (h : p ∈ ns ∨ (getArb s p).frozen = true) :
    (getArb (setFreezes s ns) p).frozen = true := by
  induction ns generalizing s with
  | nil => exact h.resolve_left List.not_mem_nil
  | cons n ns ih =>
    refine ih _ ?_
    by_cases hp : p = n
    · subst hp
      rw [getArb_setFreeze_same, arbFreeze_frozen]
      exact .inr rfl
    · rw [getArb_setFreeze_other s hp]
      exact h.imp_left fun hmem => (List.mem_cons.mp hmem).resolve_left hp

/-- A router port is no bank and no selection, so that the end of its freeze moves it alone. -/
theorem clearFreeze_arbsOnly (s : State) {n : Nat} (h : 256 ≤ n) : ArbsOnly (clearFreeze s n) s := by
  have hbank : ¬(8 ≤ n ∧ n < 12) := by omega
  have hscan : ¬(12 ≤ n ∧ n < 18) := by omega
  have hcan : ¬(18 ≤ n ∧ n < 22) := by omega
  simp only [clearFreeze, arbMoved, hbank, hscan, hcan, if_false]
  exact .ite (modArb_arbsOnly ..) (.refl s)

theorem clearFreezes_arbsOnly (s : State) {ns : List Nat} (h : ∀ n ∈ ns, 256 ≤ n) : ArbsOnly (clearFreezes s ns) s := by
  induction ns generalizing s with
  | nil => exact .refl s
  | cons n ns ih =>
    obtain ⟨hn, hns⟩ := List.forall_mem_cons.mp h
    exact (ih _ hns).trans (clearFreeze_arbsOnly s hn)

theorem clearFreezes_frozen (s : State) {ns : List Nat} {p : Nat} (h : p ∈ ns ∨ (getArb s p).frozen = false) :
    (getArb (clearFreezes s ns) p).frozen = false := by
  induction ns generalizing s with
  | nil => exact h.resolve_left List.not_mem_nil
  | cons n ns ih =>
    refine ih _ ?_
    obtain ⟨hsame, hother⟩ := clearFreeze_arbs s n
    by_cases hp : p = n
    · exact .inr (hp ▸ hsame)
    · rw [hother p hp]
      exact h.imp_left fun hmem => (List.mem_cons.mp hmem).resolve_left hp

/-! Routes. -/

theorem lastLink_of_tables {t s : State} (h : t.spn.tables = s.spn.tables) (c : Cross) : lastLink t c = lastLink s c := by
  simp only [lastLink, routeOf, h]

theorem localPort_of_tables {t s : State} (h : t.spn.tables = s.spn.tables) (c : Cross) (d : Nat) :
    localPort t c d = localPort s c d := by
  simp only [localPort, lastLink_of_tables h]

theorem packetAt_of_cross {t s : State} (hcross : t.spn.cross = s.spn.cross) (htables : t.spn.tables = s.spn.tables) (n : Nat) :
    packetAt t n = packetAt s n := by
  simp only [packetAt, hcross, localPort_of_tables htables]

theorem lastLink_of_route (s : State) {c x : Cross} (hsrc : x.src = c.src) (hdst : x.dst = c.dst) : lastLink s x = lastLink s c := by
  simp only [lastLink, hsrc, hdst]

/-- The packet that a crossing word belongs to has the route that the word's header names. -/
theorem Crosses.route {s : State} {d : Nat} {c : Cross} (h : Crosses s d c) :
    (crossing s d c).src = c.src ∧ (crossing s d c).dst = c.dst := by
  obtain ⟨_, _, _, _, _, hfits⟩ := h
  unfold crossing
  cases hon : getCross s d with
  | none => exact ⟨rfl, rfl⟩
  | some x =>
    simp only [wordFits, hon] at hfits
    split at hfits
    · cases hfits
    · simp only [Bool.and_eq_true, beq_iff_eq] at hfits
      exact hfits.2

/-! A packet leaves a link (R178). -/

@[simp] theorem getCross_setCross_same (s : State) (d : Nat) (c : Option Cross) : getCross (setCross s d c) d = c := by
  simp only [getCross, setCross, tget_tset_same]

theorem setCross_cross (s : State) (d : Nat) (c : Option Cross) :
    (setCross s d c).spn = { s.spn with cross := tset none s.spn.cross d c } := rfl

theorem leaveLink_arbsOnly (s : State) (d : Nat) : ArbsOnly (leaveLink s d) (setCross s d none) :=
  (releasePort_arbsOnly ..).trans (releasePort_arbsOnly ..)

theorem leaveLinks_keeps (s : State) (ds : List Nat) :
    (leaveLinks s ds).spn.tables = s.spn.tables ∧ (leaveLinks s ds).spn.stall = s.spn.stall := by
  induction ds generalizing s with
  | nil => exact ⟨rfl, rfl⟩
  | cons d ds ih =>
    obtain ⟨htables, hstall⟩ := ih (leaveLink s d)
    exact ⟨htables.trans (leaveLink_arbsOnly s d).tables, hstall.trans (leaveLink_arbsOnly s d).stall⟩

/-- A packet is off every link that it leaves, and no link has gained one. -/
theorem mem_cross_leaveLinks {s : State} {ds : List Nat} {e : Nat × Option Cross} (h : e ∈ (leaveLinks s ds).spn.cross) :
    e ∈ s.spn.cross ∧ e.1 ∉ ds := by
  induction ds generalizing s with
  | nil => exact ⟨h, List.not_mem_nil⟩
  | cons d ds ih =>
    obtain ⟨hmem, hds⟩ := ih h
    rw [(leaveLink_arbsOnly s d).cross, setCross_cross, tset, if_pos rfl, tdel_eq_filter, List.mem_filter, bne_iff_ne] at hmem
    exact ⟨hmem.1, fun hin => (List.mem_cons.mp hin).elim hmem.2 hds⟩

theorem crossLinks_eq_nil_of_subset {t s : State} {c : Cross}
    (h : ∀ e ∈ t.spn.cross, e ∈ s.spn.cross ∧ e.1 ∉ crossLinks s c) : crossLinks t c = [] := by
  refine List.map_eq_nil_iff.mpr (List.filter_eq_nil_iff.mpr fun e he hmatch => ?_)
  obtain ⟨hmem, hout⟩ := h e he
  exact hout (List.mem_map_of_mem (List.mem_filter.mpr ⟨hmem, hmatch⟩))

theorem crossLinks_leaveLinks (s : State) (c : Cross) : crossLinks (leaveLinks s (crossLinks s c)) c = [] :=
  crossLinks_eq_nil_of_subset fun _ => mem_cross_leaveLinks

theorem crossLinks_of_cross {t s : State} (h : t.spn.cross = s.spn.cross) (c : Cross) : crossLinks t c = crossLinks s c := by
  simp only [crossLinks, h]

/-! A tile whose port failed (R209), and the source's second transfer. -/

theorem setTile_movesBank (s : State) (p : Nat) (x : Tile) : MovesBank 0 (setTile s p x) s := .of_eq rfl rfl

theorem pulse_movesBank {n : Nat} (hn : resetsSpine n = false) (s : State) (p : Word) : MovesBank 0 (pulse s n p) s :=
  .of_eq (pulse_spn hn s p) (by simp only [pulse, causeOff_only .., raiseU_only ..])

theorem migrate_movesBank (s : State) (t p minor g : Nat) : MovesBank 0 (migrate s t p minor g) s := by
  unfold migrate
  split
  · exact .of_eq rfl rfl
  · refine .trans (.of_eq (raiseU_spn rfl ..) (by simp only [raiseU_only ..])) ((mapStore_movesBank ..).trans (.of_eq rfl rfl))

theorem retireSpare_movesBank (s : State) (p : Nat) : MovesBank 0 (retireSpare s p) s := by
  have hdefect (t : State) (e : Word) : MovesBank 0 (newDefect t e) t :=
    (pulse_movesBank rfl ..).trans ((mapStore_movesBank ..).trans (.of_eq rfl rfl))
  have hrerun (t : State) : MovesBank 0 (rerunDue t) t := .ite (.of_eq rfl rfl) (.refl 0 t)
  have hassign (t : State) : MovesBank 0 (assignTiles t) t := .of_eq (by simp only [assignTiles]) (by simp only [assignTiles])
  exact (hdefect ..).trans ((MovesBank.ite (hassign _) (.refl 0 _)).trans
    ((MovesBank.ite (hrerun _) (.refl 0 _)).trans (setTile_movesBank ..)))

theorem tableFail_movesBank (s : State) (t p : Nat) : MovesBank 0 (tableFail s t p) s := by
  simp only [tableFail]
  split <;> exact (migrate_movesBank ..).trans (.of_eq rfl rfl)

theorem tileFail_movesBank (s : State) (t : Nat) : MovesBank 0 (tileFail s t) s := by
  unfold tileFail
  split
  · exact .refl 0 s
  · exact .ite (retireSpare_movesBank ..) (.ite (.of_eq rfl rfl) (tableFail_movesBank ..))

theorem loadFail_movesBank (s : State) (l : MigLoad) : MovesBank 0 (loadFail s l) s :=
  (migrate_movesBank ..).trans ((mapStore_movesBank ..).trans (.of_eq rfl rfl))

theorem portTileFail_movesBank (s : State) (port : Nat) : MovesBank 0 (portTileFail s port) s := by
  simp only [portTileFail]
  split
  · exact .refl 0 s
  · split
    · exact loadFail_movesBank ..
    · exact .ite (tileFail_movesBank ..) (.ite (retireSpare_movesBank ..) (.refl 0 s))

/-- What neither a raise nor a tile's failure changes of the spine: its flags and the instants of poisoned transfers; the packets on
their way stand, or are lost in its reset. -/
structure KeepsTransfers (t s : State) : Prop where
  stall : t.spn.stall = s.spn.stall
  poison : t.spn.poison = s.spn.poison
  cross : t.spn.cross = s.spn.cross ∨ t.spn.cross = []

theorem KeepsTransfers.refl (s : State) : KeepsTransfers s s := ⟨rfl, rfl, .inl rfl⟩

theorem KeepsTransfers.trans {x y z : State} (h : KeepsTransfers x y) (h' : KeepsTransfers y z) : KeepsTransfers x z := by
  refine ⟨h.stall.trans h'.stall, h.poison.trans h'.poison, ?_⟩
  rcases h.cross with he | he
  · rw [he]
    exact h'.cross
  · exact .inr he

theorem KeepsTransfers.ite {p : Prop} [Decidable p] {x y s : State} (hx : KeepsTransfers x s) (hy : KeepsTransfers y s) :
    KeepsTransfers (if p then x else y) s := by
  split
  · exact hx
  · exact hy

theorem KeepsTransfers.crossLinks {t s : State} (h : KeepsTransfers t s) {c : Cross} (hs : Machine.crossLinks s c = []) :
    Machine.crossLinks t c = [] := by
  rcases h.cross with he | he
  · rw [crossLinks_of_cross he, hs]
  · simp only [Machine.crossLinks, he, List.filter_nil, List.map_nil]

theorem SpineRaised.keepsTransfers {n : Nat} {t s : State} (h : SpineRaised n t s) : KeepsTransfers t s := by
  rcases h with he | ⟨_, _, he⟩
  · exact ⟨by rw [he], by rw [he], .inl (by rw [he])⟩
  · exact ⟨by rw [he]; rfl, by rw [he]; rfl, .inr (by rw [he]; rfl)⟩

theorem ArbsOnly.keepsTransfers {t s : State} (h : ArbsOnly t s) : KeepsTransfers t s := ⟨h.stall, h.poison, .inl h.cross⟩

theorem portTileFail_keepsTransfers (s : State) (port : Nat) : KeepsTransfers (portTileFail s port) s :=
  (portTileFail_movesBank s port).arbsOnly.keepsTransfers

/-- The state with a poisoned transfer noted, which its source sends once more. -/
def poisonNoted (s : State) (src dst : Nat) : State :=
  let k := 256 * src + dst
  { s with spn := { s.spn with
    poison := tset none s.spn.poison k (some s.now)
    resend := tset 0 s.spn.resend k (tget 0 s.spn.resend k + 1) } }

theorem poisoned_keepsTransfers (s : State) (src dst : Nat) : KeepsTransfers (poisoned s src dst) (poisonNoted s src dst) := by
  have hagain (t : State) (p : Word) :
      KeepsTransfers (portTileFail (portTileFail (pulse { t with spn := { t.spn with uncorr := true } } 0x13 p) src) dst) t :=
    (portTileFail_keepsTransfers ..).trans ((portTileFail_keepsTransfers ..).trans
      ((pulse_spineRaised ..).keepsTransfers.trans ⟨rfl, rfl, .inl rfl⟩))
  exact .ite (hagain ..) (.refl _)

theorem poisoned_poison (s : State) (src dst : Nat) :
    tget none (poisoned s src dst).spn.poison (256 * src + dst) = some s.now := by
  rw [(poisoned_keepsTransfers s src dst).poison]
  simp only [poisonNoted, tget_tset_same]

/-! A word crosses a link (R172, R173, R177). -/

/-- The spine as a word that crosses link d finds its counts: the packet has begun there, a wrong word poisons it, and a header leaves
its source. -/
def wordCounted (s : State) (d : Nat) (c : Cross) (wrong : Bool) : State :=
  let k := 256 * c.src + c.dst
  let x := crossing s d c
  { s with spn := { s.spn with
    begun := tset 0 s.spn.begun (65536 * d + k) x.num
    bad := if wrong && !s.spn.bad.contains (k, x.num) then (k, x.num) :: s.spn.bad else s.spn.bad
    resend := if (getCross s d).isNone && linkBefore d ((routeOf s.spn c.src c.dst).getD []) == none
      then tset 0 s.spn.resend k (tget 0 s.spn.resend k - 1) else s.spn.resend } }

/-- The state with the word across the link, before an arrival is looked at. -/
def wordAcross (s : State) (d : Nat) (c : Cross) (wrong : Bool) : State :=
  let x := crossing s d c
  if x.left ≤ 1 then leaveLink (wordCounted s d c wrong) d
  else setCross (wordCounted s d c wrong) d (some { x with left := x.left - 1 })

section
variable (s : State) (d : Nat) (c : Cross) (wrong : Bool)

theorem wordAcross_only : Only.spn (wordAcross s d c wrong) s := by
  have hcounted : Only.spn (wordCounted s d c wrong) s := by simp [wordCounted, Only.spn]
  simp only [Only.spn] at hcounted ⊢
  simp only [wordAcross, iteU .., leaveLink_only .., setCross_only .., hcounted, ite_self, and_self]

theorem wordAcross_keeps : (wordAcross s d c wrong).spn.links = s.spn.links ∧ (wordAcross s d c wrong).spn.swaps = s.spn.swaps ∧
    (wordAcross s d c wrong).spn.lane = s.spn.lane ∧ (wordAcross s d c wrong).spn.tables = s.spn.tables ∧
    (wordAcross s d c wrong).spn.bad = (wordCounted s d c wrong).spn.bad := by
  simp only [wordAcross]
  split
  · have h := leaveLink_arbsOnly (wordCounted s d c wrong) d
    exact ⟨h.links, h.swaps, h.lane, h.tables, h.bad⟩
  · exact ⟨rfl, rfl, rfl, rfl, rfl⟩

theorem getCross_wordAcross : getCross (wordAcross s d c wrong) d = wordsLeft (crossing s d c) := by
  simp only [wordAcross, wordsLeft]
  split
  · rw [getCross, (leaveLink_arbsOnly ..).cross]
    exact getCross_setCross_same ..
  · exact getCross_setCross_same ..

end

/-- Only the last word of a packet on the last link of its route arrives. -/
theorem crossWord_eq {s : State} {d : Nat} {c : Cross} (wrong : Bool) (hroute : Crosses s d c) : crossWord s d c wrong =
    if (crossing s d c).left ≤ 1 ∧ lastLink s c = some d then arrive (wordAcross s d c wrong) (crossing s d c)
    else wordAcross s d c wrong := by
  obtain ⟨hsrc, hdst⟩ := hroute.route
  have hlink : lastLink (wordAcross s d c wrong) (crossing s d c) = lastLink s c := by
    obtain ⟨_, _, _, htables, _⟩ := wordAcross_keeps s d c wrong
    rw [lastLink_of_tables htables, lastLink_of_route s hsrc hdst]
  by_cases hleft : (crossing s d c).left ≤ 1
  · have hacross : wordAcross s d c wrong = leaveLink (wordCounted s d c wrong) d := if_pos hleft
    have hcross : crossWord s d c wrong =
        if lastLink (leaveLink (wordCounted s d c wrong) d) (crossing s d c) == some d
          then arrive (leaveLink (wordCounted s d c wrong) d) (crossing s d c)
          else leaveLink (wordCounted s d c wrong) d := if_pos hleft
    rw [hcross, ← hacross, hlink]
    simp only [hleft, true_and, beq_iff_eq]
  · have hacross : wordAcross s d c wrong =
        setCross (wordCounted s d c wrong) d (some { crossing s d c with left := (crossing s d c).left - 1 }) := if_neg hleft
    rw [hacross, if_neg fun h => hleft h.1]
    exact if_neg hleft

end Sys2Proof.Machine
end

section
/-! PROOFS. O10, continued: what each command of the links and of the router ports leaves. -/

namespace Sys2Proof.Machine

open Sys2Proof

/-! LINK_WORD_TRANSFER, by the number of wrong bits on the lanes that carry any. -/

theorem exec_linkWordTransfer (s : State) (d : Nat) (w : List Nat) (src : Nat) (head : PacketHead) :
    exec (.linkWordTransfer d w src head) s = execLinkWordTransfer d w src head s := rfl

section
variable {s : State} {d : Nat} {w : List Nat} {c : Cross} (h : Crosses s d c)
include h

theorem Crosses.header : ({ src := c.src, dst := c.dst, len := c.len, back := c.back } : Cross) = c := by
  obtain ⟨src, dst, len, back, num, left⟩ := c
  obtain ⟨rfl, rfl, _⟩ := h
  rfl

theorem linkWord_next_of_sound (hw : w.eraseDups.filter (carries (getLink s d)) = []) :
    exec (.linkWordTransfer d w c.src ⟨c.dst, c.len, c.back⟩) s = .next (settle (crossWord s d c false)) := by
  have hc := h.header
  obtain ⟨_, _, hheld, hexists, hdead, hfits⟩ := h
  simp [exec_linkWordTransfer, execLinkWordTransfer, fin, hc, hheld, hexists, hdead, hfits, hw]

theorem linkWord_next_of_one {l : Nat} (hw : w.eraseDups.filter (carries (getLink s d)) = [l]) :
    exec (.linkWordTransfer d w c.src ⟨c.dst, c.len, c.back⟩) s =
      .next (settle (laneCorrected (crossWord s d c false) d l)) := by
  have hc := h.header
  obtain ⟨_, _, hheld, hexists, hdead, hfits⟩ := h
  simp [exec_linkWordTransfer, execLinkWordTransfer, fin, hc, hheld, hexists, hdead, hfits, hw]

theorem linkWord_next_of_more (hw : 2 ≤ (w.eraseDups.filter (carries (getLink s d))).length) :
    exec (.linkWordTransfer d w c.src ⟨c.dst, c.len, c.back⟩) s = .next (settle (crossWord s d c true)) := by
  have hc := h.header
  obtain ⟨_, _, hheld, hexists, hdead, hfits⟩ := h
  obtain ⟨a, b, rest, hlist⟩ : ∃ a b rest, w.eraseDups.filter (carries (getLink s d)) = a :: b :: rest := by
    match hlist : w.eraseDups.filter (carries (getLink s d)) with
    | [] => simp [hlist] at hw
    | [_] => simp [hlist] at hw
    | a :: b :: rest => exact ⟨a, b, rest, rfl⟩
  simp [exec_linkWordTransfer, execLinkWordTransfer, fin, hc, hheld, hexists, hdead, hfits, hlist]

/-- A word without error leaves its packet sound: nothing is noted where it arrives. -/
theorem crossWord_of_sound (hbad : s.spn.bad.contains (256 * c.src + c.dst, (crossing s d c).num) = false) :
    crossWord s d c false = wordAcross s d c false := by
  obtain ⟨hsrc, hdst⟩ := h.route
  obtain ⟨_, _, _, _, hkept⟩ := wordAcross_keeps s d c false
  have harrive : arrive (wordAcross s d c false) (crossing s d c) = wordAcross s d c false := by
    have hbad' : (wordAcross s d c false).spn.bad.contains (256 * c.src + c.dst, (crossing s d c).num) = false := by
      rw [hkept]
      exact hbad
    simp only [arrive, hsrc, hdst, hbad', Bool.false_eq_true, if_false]
  rw [crossWord_eq false h, harrive, ite_self]

/-- The last word of a packet that holds a poisoned one notes the instant on its route. -/
theorem crossWord_poison {wrong : Bool} (hleft : (crossing s d c).left ≤ 1) (hlast : lastLink s c = some d)
    (hbad : (wordCounted s d c wrong).spn.bad.contains (256 * c.src + c.dst, (crossing s d c).num) = true) :
    tget none (crossWord s d c wrong).spn.poison (256 * c.src + c.dst) = some s.now := by
  obtain ⟨hsrc, hdst⟩ := h.route
  obtain ⟨_, _, _, _, hkept⟩ := wordAcross_keeps s d c wrong
  rw [crossWord_eq wrong h, if_pos ⟨hleft, hlast⟩]
  simp only [arrive, hsrc, hdst, hkept, hbad, if_true, poisoned_poison, wordAcross_only ..]

end

theorem mem_bad_wordCounted (s : State) (d : Nat) (c : Cross) :
    (256 * c.src + c.dst, (crossing s d c).num) ∈ (wordCounted s d c true).spn.bad := by
  simp only [wordCounted, Bool.true_and]
  split
  · exact List.mem_cons_self ..
  · next h => simpa using h

/-! Corrections (R173, R208). -/

/-- The link with one more correction, at a lane, and the instants of the last hour's. -/
def correctedLink (s : State) (d lane : Nat) : Link :=
  let x := getLink s d
  { x with
    corr := satAdd 65535 x.corr 1
    hits := (lane, s.now) :: x.hits.filter (fun h => decide (s.now < h.2 + 3600000000)) }

/-- The state with the 16th correction of a lane noted: its instants begin anew. -/
def laneFlagged (s : State) (d lane : Nat) : State :=
  let x := getLink s d
  let s := setLink s d { x with hits := x.hits.filter (fun h => h.1 != lane) }
  { s with spn := { s.spn with lane := true } }

/-- The state with SPINE_LANE raised, before the keeper acts on it. -/
def laneNoted (s : State) (d lane : Nat) : State := pulse (laneFlagged s d lane) 0x14 (packW [(16, 8, d), (5, 0, lane)])

section
variable (s : State) (d lane : Nat)

theorem laneCorrected_eq : laneCorrected s d lane =
    if ((correctedLink s d lane).hits.filter (fun h => h.1 == lane)).length ≥ 16
      then laneWorn (setLink s d (correctedLink s d lane)) d lane else setLink s d (correctedLink s d lane) := rfl

theorem laneWorn_eq : laneWorn s d lane =
    if lanesUsed (laneNoted s d lane) d < 2 && !(laneNoted s d lane).spn.swaps.contains (d, lane) && keeperRuns (laneNoted s d lane)
      then setFreezes { laneNoted s d lane with
        spn := { (laneNoted s d lane).spn with swaps := (laneNoted s d lane).spn.swaps ++ [(d, lane)] } } (linkPorts d)
      else laneNoted s d lane := rfl

theorem laneNoted_spn : (laneNoted s d lane).spn =
    { s.spn with
      links := tset {} s.spn.links d { getLink s d with hits := (getLink s d).hits.filter (fun h => h.1 != lane) }
      lane := true } := by
  simp only [laneNoted, pulse_spn (n := 0x14) rfl, laneFlagged, setLink]

theorem getLink_laneNoted : getLink (laneNoted s d lane) d =
    { getLink s d with hits := (getLink s d).hits.filter (fun h => h.1 != lane) } := by
  simp only [getLink, laneNoted_spn, tget_tset_same]

/-- The keeper's freezes and its swap list leave the links and the packets as the raise has left them. -/
theorem laneWorn_keeps : (laneWorn s d lane).spn.cross = s.spn.cross ∧ (laneWorn s d lane).spn.lane = true ∧
    (laneWorn s d lane).spn.links = (laneNoted s d lane).spn.links ∧ (laneWorn s d lane).flt = (laneNoted s d lane).flt := by
  have hnoted := laneNoted_spn s d lane
  rw [laneWorn_eq]
  split
  · refine ⟨?_, ?_, ?_, by simp only [setFreezes_only ..]⟩
    · rw [(setFreezes_arbsOnly ..).cross, hnoted]
    · rw [(setFreezes_arbsOnly ..).lane, hnoted]
    · rw [(setFreezes_arbsOnly ..).links]
  · exact ⟨by rw [hnoted], by rw [hnoted], rfl, rfl⟩

theorem keeperRuns_laneWorn : keeperRuns (laneWorn s d lane) = keeperRuns (laneNoted s d lane) := by
  rw [laneWorn_eq]
  split
  · simp only [keeperRuns, isHung, setFreezes_only ..]
  · rfl

theorem lanesUsed_laneNoted : lanesUsed (laneNoted s d lane) d = lanesUsed s d := by
  simp only [lanesUsed, getLink_laneNoted, laneNoted_spn]

theorem laneCorrected_getCross (e : Nat) : getCross (laneCorrected s d lane) e = getCross s e := by
  simp only [getCross, laneCorrected_eq]
  split
  · rw [(laneWorn_keeps ..).1]
    rfl
  · rfl

theorem laneCorrected_corr : (getLink (laneCorrected s d lane) d).corr = min 65535 ((getLink s d).corr + 1) := by
  rw [laneCorrected_eq]
  split
  · rw [getLink, (laneWorn_keeps ..).2.2.1, ← getLink, getLink_laneNoted, getLink_setLink_same]
    rfl
  · rw [getLink_setLink_same]
    rfl

end

/-- The 16th correction of a lane within the hour. -/
theorem laneCorrected_of_worn {s : State} {d lane : Nat}
    (h : 15 ≤ ((getLink s d).hits.filter (fun h => decide (s.now < h.2 + 3600000000) && h.1 == lane)).length) :
    laneCorrected s d lane = laneWorn (setLink s d (correctedLink s d lane)) d lane := by
  rw [laneCorrected_eq, if_pos]
  simp only [correctedLink, List.filter_cons, beq_self_eq_true, if_true, List.filter_filter, List.length_cons]
  simp only [Bool.and_comm] at h
  omega

/-- With a spare lane left, the keeper freezes the ports of the link and lists the swap (R208). -/
theorem laneWorn_swaps {s : State} {d lane : Nat} (hused : lanesUsed s d < 2) (hnew : s.spn.swaps.contains (d, lane) = false)
    (hkeeper : keeperRuns (laneWorn s d lane) = true) : (laneWorn s d lane).spn.swaps = s.spn.swaps ++ [(d, lane)] ∧
      ∀ p ∈ linkPorts d, (getArb (laneWorn s d lane) p).frozen = true := by
  have hswaps : (laneNoted s d lane).spn.swaps = s.spn.swaps := by rw [laneNoted_spn]
  rw [keeperRuns_laneWorn] at hkeeper
  rw [laneWorn_eq, lanesUsed_laneNoted, hkeeper, hswaps, hnew, if_pos (by simpa using hused)]
  exact ⟨(setFreezes_arbsOnly ..).swaps, fun p hp => setFreezes_frozen _ (.inl hp)⟩

/-- What a word across link d leaves for a correction there: the links, the swaps, the clock and the sources are as before. -/
structure LinkWordOf (a s : State) : Prop where
  links : a.spn.links = s.spn.links
  swaps : a.spn.swaps = s.spn.swaps
  now : a.now = s.now
  flt : a.flt = s.flt

theorem wordAcross_linkWordOf (s : State) (d : Nat) (c : Cross) (wrong : Bool) : LinkWordOf (wordAcross s d c wrong) s := by
  obtain ⟨hlinks, hswaps, _⟩ := wordAcross_keeps s d c wrong
  exact ⟨hlinks, hswaps, by simp only [wordAcross_only ..], by simp only [wordAcross_only ..]⟩

theorem laneNoted_raised {s : State} (d lane : Nat) (h : Raisable s 0x14) :
    (getSrc (laneNoted s d lane).flt 0x14).uncleared = true := by
  have hflagged : Raisable (laneFlagged s d lane) 0x14 := h
  obtain ⟨huncleared, _⟩ := pulse_src (laneFlagged s d lane) 0x14 (packW [(16, 8, d), (5, 0, lane)]) hflagged.1 hflagged.2
  exact huncleared

section
variable {a s : State} (h : LinkWordOf a s) (d lane : Nat)
include h

theorem LinkWordOf.getLink : Machine.getLink a d = Machine.getLink s d := by simp only [Machine.getLink, h.links]

/-- The 16th correction of a lane raises SPINE_LANE and, with a spare lane left, lists the swap (R208). -/
theorem LinkWordOf.worn {t : State} (ht : t = laneWorn (setLink a d (correctedLink a d lane)) d lane) : t.spn.lane = true ∧
    (Raisable s 0x14 → (getSrc t.flt 0x14).uncleared = true) ∧
    (lanesUsed s d < 2 → s.spn.swaps.contains (d, lane) = false → keeperRuns t = true →
      t.spn.swaps = s.spn.swaps ++ [(d, lane)] ∧ ∀ p ∈ linkPorts d, (getArb t p).frozen = true) := by
  have hswaps : (setLink a d (correctedLink a d lane)).spn.swaps = s.spn.swaps := h.swaps
  have hlanes : lanesUsed (setLink a d (correctedLink a d lane)) d = lanesUsed s d := by
    simp only [lanesUsed, getLink_setLink_same, hswaps]
    simp only [correctedLink, h.getLink d]
  have hraisable : Raisable (setLink a d (correctedLink a d lane)) 0x14 = Raisable s 0x14 := by
    simp only [Raisable, setLink, h.flt]
  obtain ⟨_, hlane, _, hflt⟩ := laneWorn_keeps (setLink a d (correctedLink a d lane)) d lane
  subst ht
  refine ⟨hlane, fun hraise => ?_, fun hused hnew hkeeper => ?_⟩
  · rw [hflt]
    exact laneNoted_raised d lane (hraisable.mpr hraise)
  · rw [← hswaps]
    exact laneWorn_swaps (hlanes ▸ hused) (hswaps ▸ hnew) hkeeper

end

theorem linkWord_worn_settles {s : State} {d : Nat} {w : List Nat} {c : Cross} {l : Nat} (h : Crosses s d c)
    (hw : w.eraseDups.filter (carries (getLink s d)) = [l])
    (hbad : s.spn.bad.contains (256 * c.src + c.dst, (crossing s d c).num) = false)
    (hworn : 15 ≤ ((getLink s d).hits.filter (fun h => decide (s.now < h.2 + 3600000000) && h.1 == l)).length) :
    Settles (.linkWordTransfer d w c.src ⟨c.dst, c.len, c.back⟩) s fun u => u.spn.lane = true ∧
      (Raisable s 0x14 → (getSrc u.flt 0x14).uncleared = true) ∧
      (lanesUsed s d < 2 → s.spn.swaps.contains (d, l) = false → keeperRuns u = true →
        u.spn.swaps = s.spn.swaps ++ [(d, l)] ∧ ∀ p ∈ linkPorts d, (getArb u p).frozen = true) := by
  have hacross := wordAcross_linkWordOf s d c false
  have hlink := hacross.getLink d
  have hnow := hacross.now
  have hexec := linkWord_next_of_one h hw
  rw [crossWord_of_sound h hbad] at hexec
  generalize wordAcross s d c false = a at *
  rw [← hlink, ← hnow] at hworn
  exact ⟨_, hexec, hacross.worn d l (laneCorrected_of_worn hworn)⟩

/-! SPN_LANE_SWAP (R174, R208). -/

theorem exec_spnLaneSwap (s : State) : exec .spnLaneSwap s = execSpnLaneSwap s := rfl

/-- The state with the steering moved past a lane and the swap off the list, before the ports go on. -/
def laneSwapped (s : State) (d lane : Nat) : State :=
  let s := setLink s d (steer (getLink s d) lane)
  { s with spn := { s.spn with swaps := s.spn.swaps.drop 1, spareLeft := s.spn.spareLeft - 1 } }

/-- The ports of a link that no other swap of the list waits for. -/
def portsFreed (s : State) (d lane : Nat) : List Nat :=
  (linkPorts d).filter (fun p => !((laneSwapped s d lane).spn.swaps.flatMap (fun x => linkPorts x.1)).contains p)

/-- The record and the map entry of a swap. -/
def swapRecorded (s : State) (d lane : Nat) : State :=
  mapStore (addRecord (laneSwapped s d lane) 0x0008 8 (pw (linkReg d)) (pw lane)) (mapEntry 5 (256 * d + lane))

theorem swapLane_eq (s : State) (d lane : Nat) :
    swapLane s d lane = clearFreezes (swapRecorded s d lane) (portsFreed s d lane) := rfl

theorem swapLane_arbsOnly (s : State) (d lane : Nat) : ArbsOnly (swapLane s d lane) (laneSwapped s d lane) := by
  rw [swapLane_eq]
  refine (clearFreezes_arbsOnly _ fun n hn => linkPorts_ge (List.mem_filter.mp hn).1).trans ?_
  exact (mapStore_movesBank ..).arbsOnly.trans (.of_eq (by simp only [addRecord_only ..]))

theorem spnLaneSwap_runs {s : State} {x : Nat × Nat} {xs : List (Nat × Nat)} (hswaps : s.spn.swaps = x :: xs)
    (hkeeper : keeperRuns s = true) (hdrained : (linkPorts x.1).all (fun p => drained (getArb s p)) = true) :
    Runs .spnLaneSwap s fun t => t.spn.swaps = xs ∧ t.spn.spareLeft = s.spn.spareLeft - 1 ∧
      getLink t x.1 = steer (getLink s x.1) x.2 ∧
      ∀ p ∈ linkPorts x.1, xs.any (fun y => (linkPorts y.1).contains p) = false → (getArb t p).frozen = false := by
  have hmoved := swapLane_arbsOnly s x.1 x.2
  have hlist : (laneSwapped s x.1 x.2).spn.swaps = xs := by simp only [laneSwapped, setLink, hswaps, List.drop_one, List.tail_cons]
  refine ⟨swapLane s x.1 x.2, ?_, hmoved.swaps.trans hlist, hmoved.spareLeft, ?_, fun p hp hfree => ?_⟩
  · simp only [exec_spnLaneSwap, execSpnLaneSwap, hswaps, hkeeper, hdrained, Bool.and_self, if_true]
  · rw [getLink, hmoved.links]
    exact getLink_setLink_same ..
  · rw [swapLane_eq]
    refine clearFreezes_frozen _ (.inl (List.mem_filter.mpr ⟨hp, ?_⟩))
    have hnone : (xs.flatMap (fun y => linkPorts y.1)).contains p = false := by
      simpa [List.mem_flatMap] using hfree
    rw [hlist, hnone]
    rfl

/-! SPINE_STALL (R210). -/

theorem exec_spineStall (s : State) (router port : Nat) : exec (.spineStall router port) s = execSpineStall router port s := rfl

/-- The state with a stall of a router port flagged and raised. -/
def stallRaised (s : State) (router port : Nat) : State :=
  pulse { s with spn := { s.spn with stall := true } } 0x12 (packW [(14, 8, router), (2, 0, port)])

theorem spineStall_next {s : State} {router port : Nat} (hheld : s.rst.held = false) (hrouter : router < 72) (hport : port < 5) :
    exec (.spineStall router port) s =
      let n := 256 + 5 * router + port
      let t := stallEnd (stallRaised s router port) n (packetAt s n)
      .next (settle (if port == 0 then portTileFail t (64 + router) else t)) := by
  simp only [exec_spineStall, execSpineStall, hheld, ge_iff_le, Nat.not_le.mpr hrouter, Nat.not_le.mpr hport, decide_false,
    Bool.or_self, Bool.false_eq_true, if_false]
  split <;> rfl

theorem stallRaised_spineRaised (s : State) (router port : Nat) :
    SpineRaised 0x12 (stallRaised s router port) { s with spn := { s.spn with stall := true } } := pulse_spineRaised ..

theorem passLinks_keeps (s : State) (c : Cross) (ds : List Nat) :
    (passLinks s c ds).spn.cross = s.spn.cross ∧ (passLinks s c ds).spn.stall = s.spn.stall := by
  induction ds generalizing s with
  | nil => exact ⟨rfl, rfl⟩
  | cons d ds ih =>
    obtain ⟨hcross, hstall⟩ := ih _
    exact ⟨hcross, hstall⟩

/-- The state with a packet off every link, before its transfer is noted as poisoned. -/
def packetOff (s : State) (c : Cross) : State :=
  let s := passLinks (leaveLinks s (crossLinks s c)) c ((routeOf s.spn c.src c.dst).getD [])
  { s with spn := { s.spn with bad := s.spn.bad.filter (· != (256 * c.src + c.dst, c.num)) } }

theorem endPacket_eq (s : State) (c : Cross) : endPacket s c = poisoned (packetOff s c) c.src c.dst := by
  simp only [endPacket, packetOff]

theorem endPacket_keepsTransfers (s : State) (c : Cross) :
    KeepsTransfers (endPacket s c) (poisonNoted (packetOff s c) c.src c.dst) := by
  rw [endPacket_eq]
  exact poisoned_keepsTransfers ..

theorem endPacket_stall (s : State) (c : Cross) : (endPacket s c).spn.stall = s.spn.stall := by
  rw [(endPacket_keepsTransfers s c).stall]
  exact (passLinks_keeps ..).2.trans (leaveLinks_keeps ..).2

theorem endPacket_crossLinks (s : State) (c : Cross) : crossLinks (endPacket s c) c = [] := by
  refine (endPacket_keepsTransfers s c).crossLinks ?_
  have hcross : (poisonNoted (packetOff s c) c.src c.dst).spn.cross = (leaveLinks s (crossLinks s c)).spn.cross :=
    (passLinks_keeps ..).1
  rw [crossLinks_of_cross hcross, crossLinks_leaveLinks]

theorem endPacket_poison (s : State) (c : Cross) :
    tget none (endPacket s c).spn.poison (256 * c.src + c.dst) = some s.now := by
  rw [endPacket_eq, poisoned_poison]
  simp only [packetOff, passLinks_only .., leaveLinks_only ..]

theorem stallEnd_stall (s : State) (n : Nat) (held : Option Cross) : (stallEnd s n held).spn.stall = s.spn.stall := by
  unfold stallEnd
  split
  · rfl
  · split
    · exact endPacket_stall ..
    · rfl

section
variable {s : State} {router port : Nat} (hheld : s.rst.held = false) (hrouter : router < 72) (hport : port < 5)
include hheld hrouter hport

/-- The stall flag stands, whatever the source's reaction and the end of the packet bring. -/
theorem spineStall_runs {P : State → Prop}
    (hP : ∀ t, KeepsTransfers t
      (stallEnd (stallRaised s router port) (256 + 5 * router + port) (packetAt s (256 + 5 * router + port))) → P t) :
    Runs (.spineStall router port) s fun t => t.spn.stall = true ∧ P t := by
  have htile (t : State) : KeepsTransfers (settle (if port == 0 then portTileFail t (64 + router) else t)) t :=
    (ArbsOnly.of_eq (settle_spn _)).keepsTransfers.trans (.ite (portTileFail_keepsTransfers ..) (.refl t))
  refine ⟨_, spineStall_next hheld hrouter hport, ?_, hP _ (htile _)⟩
  rw [(htile _).stall, stallEnd_stall, (stallRaised_spineRaised ..).keepsTransfers.stall]

theorem spineStall_free_settles (hmesh : 1 ≤ port) (hfree : packetAt s (256 + 5 * router + port) = none) :
    Settles (.spineStall router port) s fun u => (Raisable s 0x12 → (getSrc u.flt 0x12).uncleared = true ∧
        (getSrc u.flt 0x12).param = packW [(14, 8, router), (2, 0, port)]) ∧
      (getArb u (256 + 5 * router + port) = phaseRelease (getArb s (256 + 5 * router + port)) ∨
        (reactHas (cfgOf s.flt 0x12).2 2 = true ∧ (getArb u (256 + 5 * router + port)).owner = none)) := by
  have hlocal : (port == 0) = false := by simp; omega
  refine ⟨modArb (stallRaised s router port) (256 + 5 * router + port) phaseRelease, ?_, fun hraise => ?_, ?_⟩
  · rw [spineStall_next hheld hrouter hport]
    simp only [hfree, hlocal, Bool.false_eq_true, if_false, stallEnd]
  · simp only [modArb_only ..]
    obtain ⟨huncleared, _, hparam⟩ := pulse_src { s with spn := { s.spn with stall := true } } 0x12
      (packW [(14, 8, router), (2, 0, port)]) hraise.1 hraise.2
    exact ⟨huncleared, hparam⟩
  · rw [getArb_modArb_same]
    rcases stallRaised_spineRaised s router port with hspn | ⟨_, hreact, hspn⟩
    · rw [getArb_of_spn hspn]
      exact .inl rfl
    · have howner : (getArb (stallRaised s router port) (256 + 5 * router + port)).owner = none := by
        rw [getArb, hspn]
        exact spineReset_arb _ (by omega)
      rw [phaseRelease_of_idle howner]
      exact .inr ⟨hreact, howner⟩

/-- The packet that holds the stalled port ends: with the spine's reset, or as the router ends it. -/
theorem spineStall_packet_runs {c : Cross} (hpacket : packetAt s (256 + 5 * router + port) = some c) :
    Runs (.spineStall router port) s fun t => t.spn.stall = true ∧ crossLinks t c = [] ∧
      (reactHas (cfgOf s.flt 0x12).2 2 = true ∨ tget none t.spn.poison (256 * c.src + c.dst) = some s.now) := by
  refine spineStall_runs hheld hrouter hport fun t hkeeps => ?_
  rw [hpacket] at hkeeps
  rcases stallRaised_spineRaised s router port with hspn | ⟨_, hreact, hspn⟩
  · have hthere : packetAt (stallRaised s router port) (256 + 5 * router + port) = some c := by
      rw [packetAt_of_cross (s := s) (by rw [hspn]) (by rw [hspn]), hpacket]
    have hend : stallEnd (stallRaised s router port) (256 + 5 * router + port) (some c) =
        endPacket (stallRaised s router port) c := by
      simp only [stallEnd, hthere, Option.isSome_some, if_true]
    rw [hend] at hkeeps
    refine ⟨hkeeps.crossLinks (endPacket_crossLinks ..), .inr ?_⟩
    rw [hkeeps.poison, endPacket_poison]
    simp only [stallRaised, pulse, causeOff_only .., raiseU_only ..]
  · have hgone : (stallRaised s router port).spn.cross = [] := by rw [hspn]; rfl
    have hthere : packetAt (stallRaised s router port) (256 + 5 * router + port) = none := by
      simp only [packetAt, hgone, List.filterMap_nil, List.head?_nil]
    have hend : stallEnd (stallRaised s router port) (256 + 5 * router + port) (some c) = stallRaised s router port := by
      simp only [stallEnd, hthere, Option.isSome_none, Bool.false_eq_true, if_false]
    rw [hend] at hkeeps
    refine ⟨hkeeps.crossLinks ?_, .inl hreact⟩
    simp only [crossLinks, hgone, List.filter_nil, List.map_nil]

end

theorem getCross_settle (s : State) (d : Nat) : getCross (settle s) d = getCross s d := by simp only [getCross, settle_spn]

theorem getLink_settle (s : State) (d : Nat) : getLink (settle s) d = getLink s d := by simp only [getLink, settle_spn]

/-- Settles O10: a word changes the packet of its own link alone until the last one arrives, and what a raise may change of the spine
is its reset, which no correction and no settling of the plant brings. -/
theorem spineLinksCorrectAndPoison : Obligations.SpineLinksCorrectAndPoison := by
  unfold Obligations.SpineLinksCorrectAndPoison
  refine ⟨?sound, ?corrected, fun s d w c l h hw hbad hworn => linkWord_worn_settles h hw hbad hworn, ?poisons,
    fun s d w c h hw hbad hleft hlast => ?arrivesBad, fun s d w c h hw hleft hlast => ?arrivesWrong,
    fun s x xs hswaps hkeeper hdrained => spnLaneSwap_runs hswaps hkeeper hdrained, fun s router port hheld hrouter hport => ?stall,
    fun s router port hheld hrouter hmesh hport hfree => spineStall_free_settles hheld hrouter hport hmesh hfree,
    fun s router port c hheld hrouter hport hpacket => spineStall_packet_runs hheld hrouter hport hpacket⟩
  case sound =>
    intro s d w c h hw hbad
    obtain ⟨hlinks, _, _, _, hkept⟩ := wordAcross_keeps s d c false
    refine ⟨_, linkWord_next_of_sound h hw, ?_⟩
    simp only [crossWord_of_sound h hbad, getCross_settle, settle_spn]
    exact ⟨getCross_wordAcross .., hlinks, hkept⟩
  case corrected =>
    intro s d w c l h hw hbad
    obtain ⟨hlinks, _⟩ := wordAcross_keeps s d c false
    refine ⟨_, linkWord_next_of_one h hw, ?_⟩
    simp only [crossWord_of_sound h hbad, getCross_settle, getLink_settle]
    refine ⟨(laneCorrected_getCross ..).trans (getCross_wordAcross ..), (laneCorrected_corr ..).trans ?_⟩
    simp only [getLink, hlinks]
  case poisons =>
    intro s d w c h hw hway
    obtain ⟨_, _, _, _, hkept⟩ := wordAcross_keeps s d c true
    refine ⟨_, linkWord_next_of_more h hw, ?_⟩
    simp only [crossWord_eq true h, if_neg hway, getCross_settle, settle_spn, hkept]
    exact ⟨getCross_wordAcross .., mem_bad_wordCounted s d c⟩
  case arrivesBad =>
    refine ⟨_, linkWord_next_of_sound h hw, ?_⟩
    simp only [settle_spn]
    exact crossWord_poison h hleft hlast hbad
  case arrivesWrong =>
    refine ⟨_, linkWord_next_of_more h hw, ?_⟩
    simp only [settle_spn]
    exact crossWord_poison h hleft hlast (List.contains_iff_mem.mpr (mem_bad_wordCounted s d c))
  case stall =>
    obtain ⟨t, hexec, hstall, _⟩ := spineStall_runs (P := fun _ => True) hheld hrouter hport fun _ _ => trivial
    exact ⟨t, hexec, hstall⟩

end Sys2Proof.Machine
end

section
/-! PROOFS. O12: toggles, queues, hold-and-flag transfers and probes of the islands (R222 to R226, R231), and the stop of an island
that a probe finds without its clock (R240). -/

namespace Sys2Proof.Machine

open Sys2Proof

/-! The keys of an island's toggles, queues and working registers. -/

theorem islKey_div (i n : Nat) : islKey i n / 4096 = i := by
  unfold islKey
  omega

theorem islKey_ne {i j : Nat} (h : j ≠ i) (m n : Nat) : islKey j m ≠ islKey i n :=
  fun he => h (by rw [← islKey_div j m, he, islKey_div])

/-- Entries left out by their keys leave the others as they are. -/
theorem tget_filter_keys {α : Type} (d : α) (t : Tab α) {p : Nat → Bool} {k : Nat} (h : p k = true) :
    tget d (t.filter fun e => p e.1) k = tget d t k := by
  induction t with
  | nil => rfl
  | cons e t ih =>
    obtain ⟨i, v⟩ := e
    by_cases hk : k = i
    · subst hk
      simp [tget, h]
    · by_cases hi : p i = true <;> simp [tget, hk, hi, ih]

/-! One command, where its island runs. -/

theorem exec_toggleEvent (i n : Nat) (more : Bool) (s : State) :
    exec (.toggleEvent i n more) s = execToggleEvent i n more s := rfl

theorem exec_queueEntry (i n : Nat) (entry : Option Word) (s : State) :
    exec (.queueEntry i n entry) s = execQueueEntry i n entry s := rfl

theorem exec_holdAndFlag (i base : Nat) (words : List Word) (s : State) :
    exec (.holdAndFlag i base words) s = execHoldAndFlag i base words s := rfl

theorem exec_probe (s : State) : exec .probe s = execProbe s := rfl

/-- A toggle after an event: counted where the island raises it while an acknowledge is pending, else sent (R222). -/
def toggled (t : Toggle) (more : Bool) : Toggle :=
  if more then { t with counted := satAdd 255 t.counted 1 } else { level := !t.level, counted := t.counted - 1 }

section
variable {s : State} {i : Nat} (hheld : s.rst.held = false) (hi : i < 10) (hruns : islRuns s i = true)
include hheld hi hruns

theorem toggleEvent_next (n : Nat) (more : Bool) : exec (.toggleEvent i n more) s = .next { s with isl := { s.isl with
    toggles := tset {} s.isl.toggles (islKey i n) (toggled (tget {} s.isl.toggles (islKey i n)) more) } } := by
  simp [exec_toggleEvent, execToggleEvent, toggled, hheld, hruns, Nat.not_le.mpr hi]

theorem queueEntry_put_next {n d : Nat} {f : Bool} (hqueue : queueOf i n = some (d, f)) (w : Word) :
    exec (.queueEntry i n (some w)) s = .next (settle (queuePut s i n d f w)) := by
  simp [exec_queueEntry, execQueueEntry, fin, hheld, hruns, Nat.not_le.mpr hi, hqueue]

theorem queueEntry_take_next {n d : Nat} {f : Bool} (hqueue : queueOf i n = some (d, f)) :
    exec (.queueEntry i n none) s = .next (queueTake s (islKey i n)) := by
  simp [exec_queueEntry, execQueueEntry, hheld, hruns, Nat.not_le.mpr hi, hqueue]

theorem holdAndFlag_next {words : List Word} (hlen : words.length ≤ 4) (base : Nat) : exec (.holdAndFlag i base words) s =
    .next { s with isl := { s.isl with work := putWork s.isl.work (islKey i base) words } } := by
  simp [exec_holdAndFlag, execHoldAndFlag, hheld, hruns, Nat.not_le.mpr hi, Nat.not_lt.mpr hlen]

end

/-! Queues and working registers. -/

section
variable {s : State} {i n d : Nat} {w : Word}

theorem queuePut_of_room {f : Bool} (h : (tget [] s.isl.queues (islKey i n)).length < d) :
    tget [] (queuePut s i n d f w).isl.queues (islKey i n) = tget [] s.isl.queues (islKey i n) ++ [w] := by
  simp [queuePut, h]

theorem queuePut_of_full_fabric (h : d ≤ (tget [] s.isl.queues (islKey i n)).length) :
    tget [] (queuePut s i n d true w).isl.late (islKey i n) = tget [] s.isl.late (islKey i n) ++ [w] := by
  simp [queuePut, Nat.not_lt.mpr h]

theorem queuePut_of_full_island (h : d ≤ (tget [] s.isl.queues (islKey i n)).length) :
    queuePut s i n d false w = islOverflow s i n := by
  simp [queuePut, Nat.not_lt.mpr h]

theorem queueTake_queue {k : Nat} (h : tget [] s.isl.queues k ≠ []) :
    tget [] (queueTake s k).isl.queues k = (tget [] s.isl.queues k).drop 1 ++ (tget [] s.isl.late k).take 1 := by
  simp [queueTake, h]

end

theorem tget_putWork_below (t : Tab Word) {j k : Nat} (h : j < k) (ws : List Word) :
    tget 0#40 (putWork t k ws) j = tget 0#40 t j := by
  induction ws generalizing t k with
  | nil => rfl
  | cons w ws ih => rw [putWork, ih _ (by omega), tget_tset_other _ _ _ (by omega)]

theorem tget_putWork (t : Tab Word) (k : Nat) {j : Nat} {ws : List Word} (h : j < ws.length) :
    tget 0#40 (putWork t k ws) (k + j) = ws.getD j 0#40 := by
  induction ws generalizing t k j with
  | nil => exact absurd h (Nat.not_lt_zero j)
  | cons w ws ih =>
    cases j with
    | zero => exact (tget_putWork_below _ (Nat.lt_succ_self k) ws).trans (tget_tset_same ..)
    | succ j =>
      rw [putWork, show k + (j + 1) = k + 1 + j by omega, ih _ _ (Nat.lt_of_succ_lt_succ h), List.getD_cons_succ]

/-! The islands under a raise whose block reset flushes none of them (R353). -/

theorem blockReset_isl {n : Nat} {p : Word} (h : blockIsland n p = none) (s : State) : (blockReset s n p).isl = s.isl := by
  simp only [blockReset, h, iteU .., ite_self]

theorem raise_isl {n : Nat} {p : Word} (h : blockIsland n p = none) (s : State) (k : Nat) : (raise s n p k).isl = s.isl := by
  have hreact (t : State) (c : FClass) : (reactTo t n p c).isl = t.isl := by
    simp only [reactTo, iteU .., fatalLatch_only .., startFlush_only .., plantResponse_only .., blockReset_isl h, ite_self]
  simp only [raise, raiseNow, iteU .., hreact, mirror_only .., injHold_only .., ite_self]

/-! An island that finds its queue full, and one that stops. -/

theorem getIsl_setIsl_same {s : State} {i : Nat} (h : i < s.isl.isls.length) (x : IslSt) : getIsl (setIsl s i x) i = x :=
  getD_listSet_same h x {}

theorem islOverflow_isl (s : State) (i q : Nat) : (islOverflow s i q).isl =
    (setIsl s i { getIsl s i with overflows := satAdd 65535 (getIsl s i).overflows 1, ovf := true }).isl := by
  simp only [islOverflow, pulse, causeOff_only .., raiseU, raise_isl (n := 0x15) rfl]

theorem islOverflow_ovf {s : State} {i : Nat} (h : i < s.isl.isls.length) (q : Nat) :
    (getIsl (islOverflow s i q) i).ovf = true := by
  have hisl := getIsl_setIsl_same h { getIsl s i with overflows := satAdd 65535 (getIsl s i).overflows 1, ovf := true }
  rw [getIsl, islOverflow_isl, ← getIsl, hisl]

theorem islUnit_isl (s : State) (i : Nat) : (islUnit s i).isl = (islEmpty s i).isl := by
  simp only [islUnit, iteU .., canFlush_only .., pfwRefresh_only .., ite_self]

/-- An island as its stop leaves it (Table 6-7). -/
def stoppedIsl (x : IslSt) : IslSt := { x with st := 3, tmo := true, timeouts := satAdd 255 x.timeouts 1, cfgPend := false }

theorem islStop_isl (s : State) (i : Nat) :
    (islStop s i).isl = (islEmpty (setIsl s i (stoppedIsl (getIsl s i))) i).isl := by
  simp only [islStop, raiseU, raise_isl (n := 0x0A) rfl, islUnit_isl]
  rfl

/-! Probes (R231): each island has its own answer, and a probe of one island leaves every other as it is. -/

/-- Island j, its toggles and its clock are the same in both. -/
structure SameIsland (j : Nat) (t s : State) : Prop where
  state : getIsl t j = getIsl s j
  toggle : ∀ m, tget {} t.isl.toggles (islKey j m) = tget {} s.isl.toggles (islKey j m)
  clock : islClock t j = islClock s j

theorem SameIsland.refl (j : Nat) (s : State) : SameIsland j s s := ⟨rfl, fun _ => rfl, rfl⟩

theorem SameIsland.trans {j : Nat} {x y z : State} (h : SameIsland j x y) (h' : SameIsland j y z) : SameIsland j x z :=
  ⟨h.state.trans h'.state, fun m => (h.toggle m).trans (h'.toggle m), h.clock.trans h'.clock⟩

theorem SameIsland.runs {j : Nat} {t s : State} (h : SameIsland j t s) : islRuns t j = islRuns s j := by
  simp only [islRuns, h.state]

/-- The number of islands, what the monitor measures and the instant of the last probe are the same in both. -/
structure SameMonitor (t s : State) : Prop where
  length : t.isl.isls.length = s.isl.isls.length
  xtOk : t.isl.xtOk = s.isl.xtOk
  probeAt : t.isl.probeAt = s.isl.probeAt

theorem SameMonitor.trans {x y z : State} (h : SameMonitor x y) (h' : SameMonitor y z) : SameMonitor x z :=
  ⟨h.length.trans h'.length, h.xtOk.trans h'.xtOk, h.probeAt.trans h'.probeAt⟩

/-- A probe's answer from island i: the acknowledge where the island has its clock, else its stop. -/
def ProbeAnswers (i : Nat) (t s : State) : Prop :=
  (islRuns s i = true → islClock s i = true → (tget {} t.isl.toggles (islKey i (probeToggle i))).level =
    !(tget {} s.isl.toggles (islKey i (probeToggle i))).level) ∧
  (islRuns s i = true → islClock s i = false → (getIsl t i).st = 3 ∧ (getIsl t i).tmo = true)

theorem ProbeAnswers.of_after {i : Nat} {x t s : State} (hafter : SameIsland i x t) (h : ProbeAnswers i t s) :
    ProbeAnswers i x s := by
  simpa only [ProbeAnswers, hafter.state, hafter.toggle] using h

theorem ProbeAnswers.of_before {i : Nat} {x t s : State} (hbefore : SameIsland i t s) (h : ProbeAnswers i x t) :
    ProbeAnswers i x s := by
  simpa only [ProbeAnswers, hbefore.runs, hbefore.clock, hbefore.toggle] using h

theorem islStop_sameIsland (s : State) {i j : Nat} (h : j ≠ i) : SameIsland j (islStop s i) s where
  state := by
    simp only [getIsl, islStop_isl]
    exact getD_listSet_other _ h _ _
  toggle m := by
    simp only [islStop_isl]
    exact tget_filter_keys (p := fun k => !(k / 4096 == i)) _ _ (by simp [islKey_div, h])
  clock := by
    simp only [islClock, islStop_isl, islStop_only .., islEmpty, setIsl]

theorem islStop_sameMonitor (s : State) (i : Nat) : SameMonitor (islStop s i) s where
  length := by
    simp only [islStop_isl]
    exact length_listSet ..
  xtOk := by rw [islStop_isl]; rfl
  probeAt := by rw [islStop_isl]; rfl

theorem islStop_stops {s : State} {i : Nat} (h : i < s.isl.isls.length) :
    (getIsl (islStop s i) i).st = 3 ∧ (getIsl (islStop s i) i).tmo = true := by
  have hisl := getIsl_setIsl_same h (stoppedIsl (getIsl s i))
  have hkept : getIsl (islStop s i) i = getIsl (setIsl s i (stoppedIsl (getIsl s i))) i := by
    rw [getIsl, islStop_isl]
    rfl
  rw [hkept, hisl]
  exact ⟨rfl, rfl⟩

/-- The level of an island's probe toggle changes. -/
def probeAcked (s : State) (i : Nat) : State :=
  let t := tget {} s.isl.toggles (islKey i (probeToggle i))
  { s with isl := { s.isl with toggles := tset {} s.isl.toggles (islKey i (probeToggle i)) { t with level := !t.level } } }

theorem probeIsl_eq (s : State) (i : Nat) :
    probeIsl s i = if islRuns s i then (if islClock s i then probeAcked s i else islStop s i) else s := by
  cases h : islRuns s i <;> simp [probeIsl, probeAcked, h]

theorem probeIsl_sameIsland (s : State) {i j : Nat} (h : j ≠ i) : SameIsland j (probeIsl s i) s := by
  have hacked : SameIsland j (probeAcked s i) s := ⟨rfl, fun m => tget_tset_other _ _ _ (islKey_ne h m _), rfl⟩
  rw [probeIsl_eq]
  split
  · split
    · exact hacked
    · exact islStop_sameIsland s h
  · exact .refl j s

theorem probeIsl_sameMonitor (s : State) (i : Nat) : SameMonitor (probeIsl s i) s := by
  rw [probeIsl_eq]
  split
  · split
    · exact ⟨rfl, rfl, rfl⟩
    · exact islStop_sameMonitor s i
  · exact ⟨rfl, rfl, rfl⟩

theorem probeIsl_answers {s : State} {i : Nat} (h : i < s.isl.isls.length) : ProbeAnswers i (probeIsl s i) s := by
  refine ⟨fun hruns hclock => ?_, fun hruns hclock => ?_⟩
  · simp [probeIsl_eq, hruns, hclock, probeAcked]
  · simpa [probeIsl_eq, hruns, hclock] using islStop_stops h

theorem probeIsls_sameIsland (s : State) {j : Nat} {is : List Nat} (h : j ∉ is) : SameIsland j (probeIsls s is) s := by
  induction is generalizing s with
  | nil => exact .refl j s
  | cons i is ih =>
    obtain ⟨hne, hmem⟩ : j ≠ i ∧ j ∉ is := by simpa using h
    exact (ih _ hmem).trans (probeIsl_sameIsland s hne)

theorem probeIsls_sameMonitor (s : State) (is : List Nat) : SameMonitor (probeIsls s is) s := by
  induction is generalizing s with
  | nil => exact ⟨rfl, rfl, rfl⟩
  | cons i is ih => exact (ih _).trans (probeIsl_sameMonitor s i)

theorem probeIsls_answers {s : State} {j : Nat} {is : List Nat} (hnd : is.Nodup) (hj : j ∈ is)
    (hlen : j < s.isl.isls.length) : ProbeAnswers j (probeIsls s is) s := by
  induction is generalizing s with
  | nil => exact absurd hj List.not_mem_nil
  | cons i is ih =>
    obtain ⟨hfresh, hrest⟩ := List.nodup_cons.mp hnd
    by_cases hji : j = i
    · subst hji
      exact (probeIsl_answers hlen).of_after (probeIsls_sameIsland (probeIsl s j) hfresh)
    · have hmem : j ∈ is := (List.mem_cons.mp hj).resolve_left hji
      exact (ih hrest hmem ((probeIsl_sameMonitor s i).length.symm ▸ hlen)).of_before (probeIsl_sameIsland s hji)

theorem probed_nodup : (rangeFrom 0 10).Nodup := by decide

theorem mem_probed {i : Nat} (h : i < 10) : i ∈ rangeFrom 0 10 := by
  revert i
  decide

theorem probeDue_iff (s : State) : probeDue s = true ↔ ∀ at_, s.isl.probeAt = some at_ → at_ + 10000 ≤ s.now := by
  unfold probeDue
  split <;> simp_all

/-- The instant of a probe is noted. -/
def probeNoted (s : State) : State := { s with isl := { s.isl with probeAt := some s.now } }

theorem probe_next {s : State} (hheld : s.rst.held = false) (hdue : probeDue s = true) :
    exec .probe s = .next (settle (probeIsls (probeNoted s) (rangeFrom 0 10))) := by
  simp [exec_probe, execProbe, probeNoted, fin, hheld, hdue]

theorem probe_idle {s : State} (h : probeDue s = false) : Idle .probe s := by
  simp [Idle, exec_probe, execProbe, h]

/-- Settles O12: each clause reads back what its command wrote; islands are probed one after the other, and the probe of one leaves
the others, their toggles and every clock as they are. -/
theorem crossingsCarryEvents : Obligations.CrossingsCarryEvents := by
  unfold Obligations.CrossingsCarryEvents
  refine ⟨fun s i n more hheld hi hruns => ?toggle, fun s i n d f w hheld hi hruns hlen hqueue => ?put,
    fun s i n d f hheld hi hruns hqueue hentry => ⟨_, queueEntry_take_next hheld hi hruns hqueue, queueTake_queue hentry⟩,
    fun s i base words hheld hi hruns hlen =>
      ⟨_, holdAndFlag_next hheld hi hruns hlen base, fun k hk => tget_putWork _ _ hk⟩,
    fun s hheld hdue hlen => ?probe, fun s at_ hat hearly => probe_idle ?early⟩
  case toggle =>
    refine ⟨_, toggleEvent_next hheld hi hruns n more, ?_, fun k hk => tget_tset_other _ _ _ hk⟩
    rw [tget_tset_same]
    rfl
  case put =>
    refine ⟨_, queueEntry_put_next hheld hi hruns hqueue w, queuePut_of_room, fun hfull hfabric => ?_, fun hfull hisland => ?_⟩
    · subst hfabric
      exact queuePut_of_full_fabric hfull
    · subst hisland
      rw [queuePut_of_full_island hfull]
      exact islOverflow_ovf (hlen.symm ▸ hi) n
  case probe =>
    obtain ⟨_, hxt, hat⟩ := probeIsls_sameMonitor (probeNoted s) (rangeFrom 0 10)
    have hanswers {i : Nat} (hi : i < 10) : ProbeAnswers i (probeIsls (probeNoted s) (rangeFrom 0 10)) (probeNoted s) :=
      probeIsls_answers probed_nodup (mem_probed hi) (hlen.symm ▸ hi : i < s.isl.isls.length)
    exact ⟨_, probe_next hheld ((probeDue_iff s).mpr hdue), hat, hxt, fun i hi => (hanswers hi).1, fun i hi => (hanswers hi).2⟩
  case early =>
    simp only [probeDue, hat, decide_eq_false_iff_not]
    omega

end Sys2Proof.Machine
end

section
/-! PROOFS. O13 fails: a line break asserts source 09H, XT40_STOP, without a stop of the crystal (R349), and that cause goes with
the break (R379). On the way: a cause that goes leaves every other source alone, and so does the settling of a block without a plate. -/

namespace Sys2Proof.Machine

open Sys2Proof

/-! The end of a cause changes no source but its own. -/

theorem tryClear_getSrc_other (s : State) {m n : Nat} (h : m ≠ n) : getSrc (tryClear s n).flt m = getSrc s.flt m := by
  simp only [tryClear]
  split
  · simp only [mirror_only .., getSrc_setSrc_other _ _ _ _ h]
  · rfl

theorem causeOff_getSrc_other (s : State) {m n : Nat} (h : m ≠ n) : getSrc (causeOff s n).flt m = getSrc s.flt m := by
  simp only [causeOff, causeOffNow]
  split
  · rfl
  · split
    · rfl
    · split
      · exact getSrc_setSrc_other _ _ _ _ h
      · exact (tryClear_getSrc_other _ h).trans (getSrc_setSrc_other _ _ _ _ h)

/-- Without a plate there is no channel to look at: settling ends the causes of PLENUM_HIGH and BIN_FULL, and no other. -/
theorem settle_getSrc_of_no_plate {s : State} (hplt : s.plt = {}) {n : Nat} (hplen : n ≠ 0x3B) (hfull : n ≠ 0x43) :
    getSrc (settle s).flt n = getSrc s.flt n := by
  have hgate {t : State} (ht : t.plt = {}) : gateSettle t = t := by simp only [gateSettle, ht, gateEvals]
  have hstart {t : State} (ht : t.plt = {}) : startSettle t = t := by simp only [startSettle, ht, startAsks]
  have hmot {t : State} (ht : t.plt = {}) : getSrc (motSettle t).flt n = getSrc t.flt n := by
    simp only [motSettle, ht, motEvals, routeHolds, routeStops, List.map_nil, List.length_nil, permLoop, ite_self]
    split
    · exact causeOff_getSrc_other _ hfull
    · rfl
  have hplenum {t : State} (ht : t.plt = {}) : getSrc (plenSettle t).flt n = getSrc t.flt n := by
    simp only [plenSettle, ht, plenEvals, List.any_nil]
    split
    · exact causeOff_getSrc_other _ hplen
    · rfl
  simp only [settle, trigSettle_only .., pairTimers_only .., pinSettle_only .., heatTracks_only .., hgate, hstart, hmot, hplenum,
    motSettle_only .., plenSettle_only .., swSettle_only .., sectSettle_only .., hplt]

/-! The counterexample. -/

theorem exec_faultCauseGone (n : Nat) (s : State) : exec (.faultCauseGone n) s = execFaultCauseGone n s := rfl

/-- The block with the unit of source n recovered and the rails of its line mended, as the collector looks for the cause. -/
def unitMended (s : State) (n : Nat) : State := unitRecovers (lineMended s n) n

theorem faultCauseGone_next {s : State} {n : Nat} (hheld : s.rst.held = false) (hsrc : isSrc n = true) (hrails : noRails n = false)
    (hinj : injected s.flt n = false) (hgone : causeStands (unitMended s n) n = false) :
    exec (.faultCauseGone n) s = .next (settle (causeOff (unitMended s n) n)) := by
  rw [unitMended] at hgone
  simp [exec_faultCauseGone, execFaultCauseGone, fin, unitMended, hheld, hsrc, hrails, hinj, hgone]

/-- The block 1 s after a break of the line of XT40_STOP, which came right after reset; its crystal has never stopped. -/
def xtLineBroken : State := { lineBreak State.reset 0x09 with now := 1000000 }

/-- The counterexample is what LINE_BREAK leaves of the block right after reset, but for the second that passes. -/
theorem xtLineBroken_of_lineBreak :
    ∃ t, exec (.lineBreak 0x09) State.reset = .next t ∧ xtLineBroken = { t with now := 1000000 } :=
  ⟨_, rfl, by decide +kernel⟩

/-- Refutes O13: right after reset the line of source 09H breaks, and the collector takes the source as asserted (R349) while the
crystal runs. Once the rails have held opposite levels for 1 s the cause is gone, so it does not stay as it was. -/
theorem not_islandsStopAndFlush : ¬ Obligations.IslandsStopAndFlush := by
  unfold Obligations.IslandsStopAndFlush
  rintro ⟨_, _, _, _, _, _, hrecovers⟩
  obtain ⟨u, hexec, _, _, hstays⟩ := hrecovers xtLineBroken (by decide) (by decide)
  have hbefore : (getSrc xtLineBroken.flt 0x09).cause = true := by decide
  have hafter : (getSrc (causeOff (unitMended xtLineBroken 0x09) 0x09).flt 0x09).cause = false := by decide
  have hplate : (causeOff (unitMended xtLineBroken 0x09) 0x09).plt = {} := by decide
  rw [faultCauseGone_next (by decide) (by decide) (by decide) (by decide) (by decide)] at hexec
  have hsettle : settle (causeOff (unitMended xtLineBroken 0x09) 0x09) = settle u := by injection hexec
  have huplate : u.plt = {} := by
    have hkept (t : State) : (settle t).plt = t.plt := by simp only [settle_only ..]
    rw [← hkept u, ← hsettle, hkept, hplate]
  have hsame : getSrc u.flt 0x09 = getSrc (causeOff (unitMended xtLineBroken 0x09) 0x09).flt 0x09 := by
    rw [← settle_getSrc_of_no_plate huplate (by decide) (by decide), ← hsettle,
      settle_getSrc_of_no_plate hplate (by decide) (by decide)]
  rw [← hsame, hstays hbefore] at hafter
  exact absurd hafter (by decide)

end Sys2Proof.Machine
end

section
/-! PROOFS. O57: a producer's write and its age, a force, and the end of a session that forces values (R278, R282). -/

namespace Sys2Proof.Machine

open Sys2Proof

/-! A producer's write. -/

theorem getVal_putVal_same {s : State} {i : Nat} (hforced : (getVal s i).forced = false) (w : Word) (q : Quality) (k : Nat) :
    getVal (putVal s i w q k) i = ⟨w, q, k, some s.now, false⟩ := by
  rw [putVal, if_neg (by simp [hforced]), getVal, tget_tset_same]

theorem putVal_of_forced {s : State} {i : Nat} (hforced : (getVal s i).forced = true) (w : Word) (q : Quality) (k : Nat) :
    putVal s i w q k = s := by
  rw [putVal, if_pos hforced]

/-! Ages. -/

theorem valAge_of_forced (s : State) {v : Val} (hforced : v.forced = true) : valAge s v = 0 := by
  rw [valAge, if_pos hforced]

theorem valAge_of_written (s : State) {v : Val} {a : Nat} (hforced : v.forced = false) (hat : v.at_ = some a) :
    valAge s v = min 16777215 ((s.now - a) / 1000) := by
  rw [valAge, if_neg (by simp [hforced]), hat]
  rfl

/-! The end of a force, and of every force of a session. -/

/-- A value as the end of its force leaves it. -/
def unforcedVal (v : Val) (now : Nat) : Val := { v with q := .stale, unit := 0x20, at_ := some now, forced := false }

theorem getVal_of_eng {s t : State} (h : t.eng = s.eng) (i : Nat) : getVal t i = getVal s i := by
  simp only [getVal, h]

theorem getVal_unforce_same (s : State) (n : Nat) : getVal (unforce s n) n = unforcedVal (getVal s n) s.now :=
  tget_tset_same ..

theorem getVal_unforce_other (s : State) {m n : Nat} (h : m ≠ n) : getVal (unforce s n) m = getVal s m :=
  tget_tset_other _ _ _ h

theorem getVal_unforces_of_not_mem (s : State) {ns : List Nat} {m : Nat} (h : m ∉ ns) : getVal (unforces s ns) m = getVal s m := by
  induction ns generalizing s with
  | nil => rfl
  | cons n ns ih =>
    obtain ⟨hne, hrest⟩ := not_or.mp (mt List.mem_cons.mpr h)
    rw [unforces, ih _ hrest, getVal_unforce_other s hne]

/-- However often the list names the value: a second end of the force finds it as the first one left it. -/
theorem getVal_unforces_of_mem (s : State) {ns : List Nat} {m : Nat} (h : m ∈ ns) :
    getVal (unforces s ns) m = unforcedVal (getVal s m) s.now := by
  induction ns generalizing s with
  | nil => exact absurd h List.not_mem_nil
  | cons n ns ih =>
    by_cases hrest : m ∈ ns
    · rw [unforces, ih _ hrest, show (unforce s n).now = s.now by simp only [unforce_only ..]]
      by_cases hmn : m = n
      · subst hmn
        rw [getVal_unforce_same]
        rfl
      · rw [getVal_unforce_other s hmn]
    · obtain rfl : m = n := (List.mem_cons.mp h).resolve_right hrest
      rw [unforces, getVal_unforces_of_not_mem _ hrest, getVal_unforce_same]

/-- Of the values, the end of a session touches those that the session forces. -/
theorem getVal_endSession {s : State} {x : Sess} (hsess : s.svc.sess = some x) (r i : Nat) :
    getVal (endSession s r) i = getVal (unforces (endOverrides s) s.svc.forces) i := by
  refine getVal_of_eng ?_ i
  simp only [endSession, hsess, sessRelease, svcEvent_only .., imgAbandon_only .., imgAnswer_only .., pltAbandon_only ..,
    pltAnswer_only .., dropStage_only .., iteU .., sessionFreeze_only .., ite_self]

theorem getVal_endSession_of_forced {s : State} {x : Sess} (hsess : s.svc.sess = some x) {i : Nat} (hforce : i ∈ s.svc.forces)
    (r : Nat) : getVal (endSession s r) i = unforcedVal (getVal s i) s.now := by
  have heng : (endOverrides s).eng = s.eng := by simp only [endOverrides_only ..]
  rw [getVal_endSession hsess, getVal_unforces_of_mem _ hforce, getVal_of_eng heng]
  simp only [endOverrides_only ..]

/-- Settles O57: each clause reads the value back after the write or after the end of the session's forces. -/
theorem agesAndForcesOfValues : Obligations.AgesAndForcesOfValues := by
  unfold Obligations.AgesAndForcesOfValues
  refine ⟨fun s i w q k hforced => ⟨getVal_putVal_same hforced w q k, ?_⟩, fun s i a hforced hat => valAge_of_written s hforced hat,
    fun s i w q k hforced => ⟨putVal_of_forced hforced w q k, valAge_of_forced s hforced⟩, fun s x i r hsess hforce => ?_⟩
  · rw [getVal_putVal_same hforced, valAge_of_written _ rfl rfl, putVal_only .. |>.1.1]
    simp
  · rw [getVal_endSession_of_forced hsess hforce]
    exact ⟨rfl, rfl, rfl, rfl⟩

end Sys2Proof.Machine
end

section
/-! PROOFS. The start, the tiles and the proof's unit under a raised fault and under a store of the repair map: a plant response stops
sections and writes their run requests (R353, R447), a stored entry takes an index (R476), and nothing else of them changes. -/

namespace Sys2Proof.Machine

open Sys2Proof

/-- Of the start at most the sections differ, of the tiles' unit at most the values, and of the proof's unit at most the counts of its
map entries; the last persistent pass is the same. -/
structure KeepsStart (t s : State) : Prop where
  start : t.start = { s.start with sects := t.start.sects }
  eng : t.eng = { s.eng with vals := t.eng.vals }
  prf : t.prf = { s.prf with indices := t.prf.indices, lateMap := t.prf.lateMap, newN := t.prf.newN }
  lastPass : t.nvm.lastPass = s.nvm.lastPass

namespace KeepsStart

theorem of_eq {t s : State} (hstart : t.start = s.start) (heng : t.eng = s.eng) (hprf : t.prf = s.prf)
    (hpass : t.nvm.lastPass = s.nvm.lastPass) : KeepsStart t s :=
  ⟨by rw [hstart], by rw [heng], by rw [hprf], hpass⟩

theorem refl (s : State) : KeepsStart s s := .of_eq rfl rfl rfl rfl

theorem trans {a b c : State} (h : KeepsStart a b) (h' : KeepsStart b c) : KeepsStart a c :=
  ⟨h.start.trans (by rw [h'.start]), h.eng.trans (by rw [h'.eng]), h.prf.trans (by rw [h'.prf]), h.lastPass.trans h'.lastPass⟩

theorem andThen {t b s : State} (h : KeepsStart b s) (hstart : t.start = b.start) (heng : t.eng = b.eng) (hprf : t.prf = b.prf)
    (hpass : t.nvm.lastPass = b.nvm.lastPass) : KeepsStart t s :=
  (of_eq hstart heng hprf hpass).trans h

theorem ite {p : Prop} [Decidable p] {a b s : State} (ha : KeepsStart a s) (hb : KeepsStart b s) :
    KeepsStart (if p then a else b) s := by
  split
  · exact ha
  · exact hb

section
variable {t s : State} (h : KeepsStart t s)
include h

theorem step : t.start.step = s.start.step := by rw [h.start]
theorem state : t.start.state = s.start.state := by rw [h.start]
theorem armedAt : t.start.armedAt = s.start.armedAt := by rw [h.start]
theorem lastTick : t.eng.lastTick = s.eng.lastTick := by rw [h.eng]
theorem framesOn : t.eng.framesOn = s.eng.framesOn := by rw [h.eng]
theorem frames : t.eng.frames = s.eng.frames := by rw [h.eng]
theorem chain : t.eng.chain = s.eng.chain := by rw [h.eng]
theorem voting : t.eng.voting = s.eng.voting := by rw [h.eng]
theorem kRetired : t.eng.kRetired = s.eng.kRetired := by rw [h.eng]
theorem loads : t.prf.loads = s.prf.loads := by rw [h.prf]
theorem migCount : t.prf.migCount = s.prf.migCount := by rw [h.prf]
theorem sramNoted : t.prf.sramNoted = s.prf.sramNoted := by rw [h.prf]
theorem lt (n : Nat) : getLt t n = getLt s n := by rw [getLt, h.eng]; rfl
theorem tile (p : Nat) : getTile t p = getTile s p := by rw [getTile, h.prf]; rfl

end

end KeepsStart

/-! A raise, and the end of a cause. -/

theorem putVal_keepsStart (s : State) (i : Nat) (w : Word) (q : Quality) (k : Nat) : KeepsStart (putVal s i w q k) s :=
  .ite (.refl s) ⟨rfl, rfl, rfl, rfl⟩

theorem setSect_keepsStart (s : State) (n : Nat) (x : Sect) : KeepsStart (setSect s n x) s := ⟨rfl, rfl, rfl, rfl⟩

theorem writeRun_keepsStart (s : State) (n : Nat) (b : Bool) : KeepsStart (writeRun s n b) s := by
  simp only [writeRun]
  split
  · exact setSect_keepsStart ..
  · exact (putVal_keepsStart ..).trans (setSect_keepsStart ..)

theorem stopSect_keepsStart (s : State) (n reason : Nat) : KeepsStart (stopSect s n reason) s :=
  ((writeRun_keepsStart ..).trans (setSect_keepsStart ..)).andThen rfl rfl rfl rfl

theorem faultStopSects_keepsStart (s : State) (src : Nat) (ns : List Nat) : KeepsStart (faultStopSects s src ns) s := by
  induction ns generalizing s with
  | nil => exact .refl s
  | cons n ns ih => exact (ih _).trans (.ite ((stopSect_keepsStart ..).trans (setSect_keepsStart ..)) (.refl s))

theorem reactTo_keepsStart (s : State) (n : Nat) (p : Word) (c : FClass) : KeepsStart (reactTo s n p c) s := by
  have hflush (t : State) (b : Bool) : KeepsStart (if b then t else startFlush t) t := .ite (.refl t) (.of_eq rfl rfl rfl rfl)
  have hblock (t : State) (b : Bool) : KeepsStart (if b then blockReset t n p else t) t :=
    .ite (by apply KeepsStart.of_eq <;> simp only [blockReset_only ..]) (.refl t)
  have hplant (t : State) (b : Bool) : KeepsStart (if b then plantResponse t n else t) t :=
    .ite (.ite (.refl t) (.ite (.of_eq rfl rfl rfl rfl) (faultStopSects_keepsStart ..))) (.refl t)
  have hreset (t : State) (b : Bool) : KeepsStart
      (if b then startFlush { t with flt := { t.flt with resetAt := some t.now, resetFor := n, resetOk := false } } else t) t :=
    .ite (.of_eq rfl rfl rfl rfl) (.refl t)
  have hfatal (t : State) (b : Bool) : KeepsStart (if b then fatalLatch t n p else t) t :=
    .ite (by apply KeepsStart.of_eq <;> simp only [fatalLatch_only ..]) (.refl t)
  unfold reactTo
  exact (hfatal _ _).trans ((hreset _ _).trans ((hplant _ _).trans ((hblock _ _).trans (hflush s _))))

theorem raiseNow_keepsStart (s : State) (n : Nat) (p : Word) (k : Nat) : KeepsStart (raiseNow s n p k) s :=
  .ite (.of_eq rfl rfl rfl rfl)
    (.ite (.of_eq rfl rfl rfl rfl) (.ite (.of_eq rfl rfl rfl rfl) ((reactTo_keepsStart ..).trans (.of_eq rfl rfl rfl rfl))))

theorem raise_keepsStart (s : State) (n : Nat) (p : Word) (k : Nat) : KeepsStart (raise s n p k) s :=
  .ite (.of_eq rfl rfl rfl rfl) (raiseNow_keepsStart ..)

theorem raiseU_keepsStart (s : State) (n : Nat) (p : Word) : KeepsStart (raiseU s n p) s := raise_keepsStart ..

theorem causeOn_keepsStart (s : State) (n : Nat) (p : Word) : KeepsStart (causeOn s n p) s :=
  .ite (.refl s) (raiseU_keepsStart ..)

theorem causeOff_keepsStart (s : State) (n : Nat) : KeepsStart (causeOff s n) s := by
  apply KeepsStart.of_eq <;> simp only [causeOff_only ..]

theorem pulse_keepsStart (s : State) (n : Nat) (p : Word) : KeepsStart (pulse s n p) s :=
  (causeOff_keepsStart ..).trans (raiseU_keepsStart ..)

/-- A raise shows in a state that has the faults of one where no injection replaces the source. -/
theorem raiseU_uncleared {t s : State} (h : t.flt = s.flt) {n : Nat} (hinj : injected s.flt n = false) (p : Word) :
    (getSrc (raiseU t n p).flt n).uncleared = true := (raiseU_src t n p (h ▸ hinj)).1

/-! A store of the repair map. -/

@[simp] theorem setBank_lastPass (n : Nvm) (b : Nat) (x : Bank) : (setBank n b x).lastPass = n.lastPass := by
  unfold setBank
  split <;> rfl

theorem modArb_keepsStart (s : State) (n : Nat) (f : Arb → Arb) : KeepsStart (modArb s n f) s := .of_eq rfl rfl rfl rfl

theorem mapPlace_keepsStart (s : State) (t : Store) : KeepsStart (mapPlace s t).1 s := by
  unfold mapPlace
  split
  · split
    · exact ⟨rfl, rfl, rfl, rfl⟩
    · exact .refl s
  · exact .refl s

theorem refuseTurn_keepsStart (s : State) (b : Nat) (t : Store) : KeepsStart (refuseTurn s b t) s := by
  have hrefused : KeepsStart (energyRefused s t) s := by
    apply KeepsStart.of_eq <;> simp only [energyRefused_only ..]
  have hqueued (u : State) : KeepsStart (enqueue u b t) u := by
    apply KeepsStart.of_eq <;> simp only [enqueue_only ..]
  exact .ite (hrefused.andThen rfl rfl rfl rfl) (.ite hrefused ((hqueued _).trans hrefused))

/-- The turn that a bank takes in hand, and those that wait behind it. -/
theorem takeTurn_keepsStart (s : State) (b : Nat) (h : Option Store) (rest : List Store) :
    KeepsStart { s with nvm := setBank s.nvm b { getBank s.nvm b with hand := h, turns := rest } } s :=
  .of_eq rfl rfl rfl (setBank_lastPass ..)

theorem startTurn_keepsStart (s : State) (b : Nat) (t : Store) (rest : List Store) : KeepsStart (startTurn s b t rest) s := by
  have hread : KeepsStart (readPin s) s := .of_eq rfl rfl rfl rfl
  have hplaced := (takeTurn_keepsStart (mapPlace (readPin s) t).1 b
    (some { (mapPlace (readPin s) t).2 with started := true }) rest).trans ((mapPlace_keepsStart (readPin s) t).trans hread)
  unfold startTurn
  refine .ite (takeTurn_keepsStart ..) (.ite ?_ (.ite ?_ (.ite ?_ hplaced)))
  · exact (refuseTurn_keepsStart ..).trans ((takeTurn_keepsStart ..).trans hread)
  · exact (takeTurn_keepsStart ..).trans hread
  · exact hplaced.andThen rfl rfl rfl rfl

theorem bankRequest_keepsStart (s : State) (b : Nat) : KeepsStart (bankRequest s b) s := by
  simp only [bankRequest]
  exact modArb_keepsStart ..

theorem bankServe_keepsStart (b k : Nat) (s : State) : KeepsStart (bankServe b k s) s := by
  induction k generalizing s with
  | zero => exact .refl s
  | succ k ih =>
    simp only [bankServe]
    split
    · exact .ite (startTurn_keepsStart ..)
        ((ih _).trans ((bankRequest_keepsStart ..).trans ((modArb_keepsStart ..).trans (startTurn_keepsStart ..))))
    · simp only [bankDrop]
      exact modArb_keepsStart ..

theorem requestStore_keepsStart (s : State) (t : Store) : KeepsStart (requestStore s t) s := by
  unfold requestStore
  split
  · exact .of_eq rfl rfl rfl rfl
  · exact .of_eq rfl rfl rfl rfl
  · exact (bankServe_keepsStart ..).trans ((bankRequest_keepsStart ..).trans (.of_eq rfl rfl rfl (setBank_lastPass ..)))

theorem mapStore_keepsStart (s : State) (e : Word) : KeepsStart (mapStore s e) s :=
  .ite ⟨rfl, rfl, rfl, rfl⟩ (.ite (.refl s) (requestStore_keepsStart ..))

theorem newDefect_keepsStart (s : State) (e : Word) : KeepsStart (newDefect s e) s :=
  (pulse_keepsStart ..).trans ((mapStore_keepsStart ..).trans ⟨rfl, rfl, rfl, rfl⟩)

theorem sparesLow_keepsStart (s : State) : KeepsStart (sparesLow s) s := .ite (raiseU_keepsStart ..) (.refl s)

/-! Words that a read meets, and the wear of rows. -/

theorem wantRetire_keepsStart (s : State) (b row : Nat) : KeepsStart (wantRetire s b row) s :=
  .ite (.refl s) (.ite (raiseU_keepsStart ..) (.of_eq rfl rfl rfl rfl))

theorem wordFound_keepsStart (s : State) (l : Nat) : KeepsStart (wordFound s l) s := by
  refine .ite (.refl s) ?_
  split
  · exact (wantRetire_keepsStart ..).trans ((pulse_keepsStart ..).trans (.of_eq rfl rfl rfl (setBank_lastPass ..)))
  · exact .of_eq rfl rfl rfl (setBank_lastPass ..)
  · exact .refl s

theorem wordsFound_keepsStart (s : State) (ls : List Nat) : KeepsStart (wordsFound s ls) s := by
  induction ls generalizing s with
  | nil => exact .refl s
  | cons l ls ih => exact (ih _).trans (wordFound_keepsStart s l)

theorem checkWear_keepsStart (s : State) (b row : Nat) : KeepsStart (checkWear s b row) s := by
  have hraised : KeepsStart (if rowCycles s b row ≥ 900000 && !s.nvm.wearRaised.contains (locOf b row 0) then
      pulse { s with nvm := { s.nvm with wearRaised := locOf b row 0 :: s.nvm.wearRaised } } 0x22 (pw (locOf b row 0)) else s) s :=
    .ite ((pulse_keepsStart ..).trans (.of_eq rfl rfl rfl rfl)) (.refl s)
  exact .ite ((wantRetire_keepsStart ..).trans hraised) hraised

theorem checkWears_keepsStart (s : State) (xs : List (Nat × Nat)) : KeepsStart (checkWears s xs) s := by
  induction xs generalizing s with
  | nil => exact .refl s
  | cons x xs ih => exact (ih _).trans (checkWear_keepsStart ..)

end Sys2Proof.Machine
end

section
/-! PROOFS. O14: the tick, the chain that takes over when it is lost, and the entries of the frame in hand (R265, R266, R288, R292). -/

namespace Sys2Proof.Machine

open Sys2Proof

/-! Lists of numbers. -/

theorem rangeFrom_eq_range' (a k : Nat) : rangeFrom a k = List.range' a k := by
  induction k generalizing a with
  | zero => rfl
  | succ k ih => rw [rangeFrom, ih, List.range'_succ]

theorem rangeFrom_nodup (a k : Nat) : (rangeFrom a k).Nodup := rangeFrom_eq_range' a k ▸ List.nodup_range'

theorem mem_rangeFrom {a k i : Nat} : i ∈ rangeFrom a k ↔ a ≤ i ∧ i < a + k := by
  rw [rangeFrom_eq_range', List.mem_range'_1]

theorem mem_allTiles {p : Nat} : p ∈ allTiles ↔ p < 72 := by
  rw [allTiles, mem_rangeFrom]
  omega

/-! Background segments (R482). -/

theorem bgSegments_bg (s : State) {ps : List Nat} (hnd : ps.Nodup) (p : Nat) :
    (getTile (bgSegments s ps) p).bg = (getTile s p).bg + (if p ∈ ps then 1 else 0) := by
  induction ps generalizing s with
  | nil => simp [bgSegments]
  | cons q qs ih =>
    obtain ⟨hfresh, hrest⟩ := List.nodup_cons.mp hnd
    rw [bgSegments, ih _ hrest]
    by_cases hpq : p = q
    · subst hpq
      simp [hfresh]
    · simp [getTile_setTile_other _ _ hpq, hpq]

theorem bgTiles_nodup (s : State) : (bgTiles s).Nodup := (rangeFrom_nodup 0 72).filter _

/-! The clock of the minor frames: the instant of the last tick, whether frames run, the frame's number and the chain. -/

def frameClock (g : Eng) : Nat × Bool × Nat × Bool := (g.lastTick, g.framesOn, g.frames, g.chain)

theorem KeepsStart.clock {t s : State} (h : KeepsStart t s) : frameClock t.eng = frameClock s.eng := by
  rw [h.eng]
  rfl

theorem tileFrame_clock (s : State) (t g : Nat) : frameClock (tileFrame s t g).eng = frameClock s.eng := by
  unfold tileFrame
  dsimp only
  split
  · rfl
  split
  · rfl
  split
  · rfl
  split
  · rfl
  split
  · rfl
  · exact (raiseU_keepsStart ..).clock

theorem tileFrames_clock (s : State) (g : Nat) (ts : List Nat) : frameClock (tileFrames s g ts).eng = frameClock s.eng := by
  induction ts generalizing s with
  | nil => rfl
  | cons t ts ih => rw [tileFrames, ih, tileFrame_clock]

/-- The number of the frame that a tick or the chain begins. -/
def frameNext (g : Eng) : Nat := if g.framesOn then g.frames + 1 else 0

theorem nextFrame_clock (s : State) : frameClock (nextFrame s).eng = (s.now, true, frameNext s.eng, s.eng.chain) := by
  have hcause (t : State) (p : Prop) [Decidable p] : frameClock (if p then causeOff t 0x0C else t).eng = frameClock t.eng := by
    simp only [iteU .., causeOff_only .., ite_self]
  have hran : (if s.eng.framesOn then bgSegments s (bgTiles s) else s).eng = s.eng := by
    simp only [iteU .., bgSegments_only .., ite_self]
  have hnow : (if s.eng.framesOn then bgSegments s (bgTiles s) else s).now = s.now := by
    simp only [iteU .., bgSegments_only .., ite_self]
  simp only [nextFrame]
  rw [hcause, tileFrames_clock]
  simp only [frameClock, hran, hnow, frameNext]

/-- What a frame's begin leaves of the clock. -/
theorem nextFrame_begins (s : State) : (nextFrame s).eng.lastTick = s.now ∧ (nextFrame s).eng.framesOn = true ∧
    (nextFrame s).eng.frames = frameNext s.eng ∧ (nextFrame s).eng.chain = s.eng.chain := by
  simpa only [frameClock, Prod.mk.injEq] using nextFrame_clock s

/-! Ticks. -/

theorem exec_frameTickLost (s : State) : exec .frameTickLost s = execFrameTickLost s := rfl

theorem exec_chainFrameBoundary (s : State) : exec .chainFrameBoundary s = execChainFrameBoundary s := rfl

theorem exec_taskEntry (s : State) (t corr : Nat) : exec (.taskEntry t corr) s = execTaskEntry t corr s := rfl

/-- A tick is soon where it comes within 49 ms of the last one while frames run on ticks (R293). -/
def tickSoon (s : State) : Bool := s.eng.framesOn && !s.eng.chain && decide (s.now < s.eng.lastTick + 49000)

theorem tickSoon_eq_false {s : State} (h : s.eng.framesOn = true → s.eng.chain = false → s.eng.lastTick + 49000 ≤ s.now) :
    tickSoon s = false := by
  cases hon : s.eng.framesOn <;> cases hchain : s.eng.chain <;> simp [tickSoon, hon, hchain]
  exact h hon hchain

theorem tilesIdle_of_tilesRun {s : State} (h : tilesRun s = true) : tilesIdle s = false := by
  simp only [tilesRun, tablesHeld, Bool.and_eq_true, Bool.or_eq_true, beq_iff_eq] at h
  obtain ⟨_, _, hstarting | harmed⟩ := h
  · simp [tilesIdle, hstarting]
  · simp [tilesIdle, harmed]

/-- The tiles' background tests while no frames run: one segment ends on each that has run it since the tick before (R499). -/
def idleTick (s : State) : State :=
  let t := if s.eng.lastTick == 0 then s else bgSegments s (bgTiles s)
  { t with eng := { t.eng with lastTick := t.now } }

/-- The chain has ended, and with it the cause of FRAME_TICK_LOST. -/
def chainEnded (s : State) : State := causeOff { s with eng := { s.eng with chain := false } } 0x0B

theorem exec_minorFrameTick (s : State) : exec .minorFrameTick s =
    if !islRuns s 5 || tickSoon s then .next s
    else if tilesIdle s then .next (idleTick s)
    else if !tilesRun s then .next s
    else if s.eng.chain then (if (getIsl s 5).st == 2 then .next (settle (nextFrame (chainEnded s))) else .next s)
    else .next (settle (nextFrame s)) := rfl

theorem tick_next_of_idle {s : State} (hruns : islRuns s 5 = true) (hsoon : tickSoon s = false) (hidle : tilesIdle s = true) :
    exec .minorFrameTick s = .next (idleTick s) := by
  simp [exec_minorFrameTick, hruns, hsoon, hidle]

theorem tick_next_of_run {s : State} (hruns : islRuns s 5 = true) (hsoon : tickSoon s = false) (hrun : tilesRun s = true)
    (hchain : s.eng.chain = false) : exec .minorFrameTick s = .next (settle (nextFrame s)) := by
  simp [exec_minorFrameTick, hruns, hsoon, hrun, tilesIdle_of_tilesRun hrun, hchain]

theorem tick_next_of_chain {s : State} (hconfigured : (getIsl s 5).st = 2) (hrun : tilesRun s = true) (hchain : s.eng.chain = true) :
    exec .minorFrameTick s = .next (settle (nextFrame (chainEnded s))) := by
  simp [exec_minorFrameTick, tickSoon, islRuns, hconfigured, hrun, tilesIdle_of_tilesRun hrun, hchain]

theorem tick_idle_of_soon {s : State} (h : tickSoon s = true) : Idle .minorFrameTick s := by
  simp [Idle, exec_minorFrameTick, h]

theorem idleTick_eng (s : State) : (idleTick s).eng = { s.eng with lastTick := s.now } := by
  simp only [idleTick, iteU .., bgSegments_only .., ite_self]

theorem idleTick_bg (s : State) (p : Nat) : (getTile (idleTick s) p).bg =
    (getTile s p).bg + (if s.eng.lastTick ≠ 0 ∧ p ∈ bgTiles s then 1 else 0) := by
  have hprf (t : State) (x : Eng) : getTile { t with eng := x } p = getTile t p := rfl
  by_cases hfirst : s.eng.lastTick = 0
  · simp [idleTick, hprf, hfirst]
  · simp [idleTick, hprf, hfirst, bgSegments_bg s (bgTiles_nodup s)]

theorem tickLost_next {s : State} (hrun : tilesRun s = true) (hon : s.eng.framesOn = true) (hchain : s.eng.chain = false)
    (hdue : s.eng.lastTick + 55000 ≤ s.now) :
    exec .frameTickLost s = .next (settle (raiseU { s with eng := { s.eng with chain := true } } 0x0B (pw 9))) := by
  simp [exec_frameTickLost, execFrameTickLost, fin, hrun, hon, hchain, Nat.not_lt.mpr hdue]

theorem chainBoundary_next {s : State} (hrun : tilesRun s = true) (hchain : s.eng.chain = true)
    (hdue : s.eng.lastTick + 47500 ≤ s.now) : exec .chainFrameBoundary s = .next (settle (nextFrame s)) := by
  simp [exec_chainFrameBoundary, execChainFrameBoundary, fin, hrun, hchain, Nat.not_lt.mpr hdue]

/-! Entries of the frame in hand. -/

theorem countSats_ltiles (s : State) (src k : Nat) (ws : List Word) : (countSats s src k ws).eng.ltiles = s.eng.ltiles := by
  induction ws generalizing s with
  | nil => rfl
  | cons w ws ih =>
    rw [countSats, ih]
    simp only [countSat]
    split <;> rfl

theorem afterRun_ltiles (s : State) (tile : Nat) (log : RunLog) : (afterRun s tile log).eng.ltiles = s.eng.ltiles := by
  induction log generalizing s with
  | nil => rfl
  | cons x xs ih => rw [afterRun, ih]; exact countSats_ltiles ..

theorem runEntry_ran {s : State} {task : Nat} (hfind : (s.plt.plate.tasks.find? (·.task == task)).isSome = true) (tile f : Nat) :
    (getLt (runEntry s tile f task) tile).ran = (getLt s tile).ran + 1 := by
  obtain ⟨t, ht⟩ := Option.isSome_iff_exists.mp hfind
  simp only [runEntry, ht, getLt_setLt_same]
  rw [getLt, afterRun_ltiles, ← getLt]

/-- An entry that is not the frame's last: the tile goes on with the next one. -/
theorem tileEntry_ran {s : State} {t f : Nat} (hmore : (getLt s t).ran + 1 < (entriesAt s t f).length)
    (htask : ∀ e, (entriesAt s t f)[(getLt s t).ran]? = some e →
      (s.plt.plate.tasks.find? (·.task == e.task)).isSome = true) :
    (getLt (tileEntry s t f) t).ran = (getLt s t).ran + 1 := by
  have hentry := List.getElem?_eq_getElem (show (getLt s t).ran < (entriesAt s t f).length by omega)
  have hran := runEntry_ran (htask _ hentry) t f
  simp only [tileEntry, hentry, hran, ge_iff_le, Nat.not_le.mpr hmore, if_false]

theorem taskEntry_next {s : State} {t f p : Nat} (hframe : (getLt s t).frame = some f) (hphys : physOf s t = some p)
    (hrun : tilesRun s = true) (hst : (getTile s p).st = 0) (htable : tableOk s t p = true) (hlost : (getLt s t).lost = false)
    (hloads : s.prf.loads.any (fun l => l.logical == t) = false) (hmore : (getLt s t).ran < (entriesAt s t f).length) :
    exec (.taskEntry t 0) s = .next (settle (tileEntry s t f)) := by
  have hdone : frameDone s t (getLt s t) = false := by simp [frameDone, hframe, hmore]
  simp only [exec_taskEntry, execTaskEntry, hframe, hphys, hrun, hst, htable, hlost, hloads, hdone, corrections, fin]
  rfl

/-- Settles O14: every tick and boundary that begins a frame leaves the clock of `nextFrame_begins`, which neither a raise nor the end
of a cause moves. -/
theorem minorFramesAdvance : Obligations.MinorFramesAdvance := by
  unfold Obligations.MinorFramesAdvance
  refine ⟨fun s hruns hsoon hidle => ?idle, fun s hruns hsoon hrun hchain => ?run, fun s hconfigured hrun hchain => ?back,
    fun s hon hchain hsoon => tick_idle_of_soon ?soon, fun s hrun hon hchain hdue => ?lost, fun s hrun hchain hdue => ?boundary,
    fun s t f p hframe hphys hrun hst htable hlost hloads hmore htask =>
      ⟨_, taskEntry_next hframe hphys hrun hst htable hlost hloads (Nat.lt_of_succ_lt hmore), tileEntry_ran hmore htask⟩⟩
  case idle =>
    have heng := idleTick_eng s
    exact ⟨_, tick_next_of_idle hruns (tickSoon_eq_false hsoon) hidle, by rw [heng], by rw [heng], fun p _ => idleTick_bg s p⟩
  case run =>
    obtain ⟨htick, hon, hframes, _⟩ := nextFrame_begins s
    exact ⟨_, tick_next_of_run hruns (tickSoon_eq_false fun hon _ => hsoon hon) hrun hchain, htick, hon, hframes⟩
  case back =>
    obtain ⟨htick, _, hframes, hoff⟩ := nextFrame_begins (chainEnded s)
    simp only [chainEnded, causeOff_only ..] at htick hframes hoff
    exact ⟨_, tick_next_of_chain hconfigured hrun hchain, hoff, htick, hframes⟩
  case soon => simp [tickSoon, hon, hchain, hsoon]
  case lost =>
    exact ⟨_, tickLost_next hrun hon hchain hdue, (raiseU_keepsStart ..).chain, fun hinj => raiseU_uncleared (by rfl) hinj _⟩
  case boundary =>
    obtain ⟨htick, _, hframes, _⟩ := nextFrame_begins s
    exact ⟨_, chainBoundary_next hrun hchain hdue, htick, hframes⟩

end Sys2Proof.Machine
end

section
/-! PROOFS. The keeper's vote and its tiles (R260 to R263, R289, R291). -/

namespace Sys2Proof.Machine

open Sys2Proof

/-! Tiles out of the vote. -/

theorem keeperCause_eng (s : State) : (keeperCause s).eng = s.eng := by simp only [keeperCause_only ..]

theorem keeperRetire_voting (s : State) (k : Nat) : (keeperRetire s k).eng.voting = listSet s.eng.voting k false :=
  (raiseU_keepsStart ..).voting

theorem keeperRetire_kRetired (s : State) (k : Nat) : (keeperRetire s k).eng.kRetired = listSet s.eng.kRetired k true :=
  (raiseU_keepsStart ..).kRetired

/-- A tile that miscompares leaves the vote, whether or not it retires. -/
theorem miscompare_voting (s : State) (k port : Nat) : (miscompare s k port).eng.voting = listSet s.eng.voting k false := by
  simp only [miscompare]
  split
  · rw [keeperCause_eng, keeperRetire_voting, (raiseU_keepsStart ..).voting]
    simp only [listSet_eq_set, List.set_set]
  · exact (raiseU_keepsStart ..).voting

theorem lt_length_of_voter {s : State} {k : Nat} (h : k ∈ voters s) : k < s.eng.voting.length := by
  have hvote : s.eng.voting.getD k false = true := (List.mem_filter.mp h).2
  refine Nat.lt_of_not_le fun hk => ?_
  rw [List.getD_eq_getElem?_getD, List.getElem?_eq_none hk] at hvote
  exact Bool.false_ne_true hvote

theorem miscompare_not_voting {s : State} {k : Nat} (h : k ∈ voters s) (port : Nat) :
    (miscompare s k port).eng.voting.getD k true = false := by
  rw [miscompare_voting, getD_listSet_same (lt_length_of_voter h)]

/-! The vote (Table 7-1). -/

theorem exec_keeperPacketVote (s : State) (port : Nat) (cs : List (Nat × Word)) :
    exec (.keeperPacketVote port cs) s = execKeeperPacketVote port cs s := rfl

theorem exec_voteTimeout (s : State) (port : Nat) (cs : List (Nat × Word)) :
    exec (.voteTimeout port cs) s = execVoteTimeout port cs s := rfl

section
variable {s : State} (port : Nat)

theorem keeperPacketVote_next (hruns : keeperRuns s = true) (cs : List (Nat × Word)) :
    exec (.keeperPacketVote port cs) s = .next (settle (vote s port false cs)) := by
  rw [exec_keeperPacketVote, execKeeperPacketVote, if_pos hruns, fin]

theorem voteTimeout_next (hruns : keeperRuns s = true) (cs : List (Nat × Word)) :
    exec (.voteTimeout port cs) s = .next (settle (vote s port true cs)) := by
  rw [exec_voteTimeout, execVoteTimeout, if_pos hruns, fin]

theorem vote_three (hvoters : voters s = [0, 1, 2]) (a b c : Word) : vote s port false [(0, a), (1, b), (2, c)] =
    if a = b then (if c = a then s else miscompare s 2 port)
    else if c = a then miscompare s 1 port else if c = b then miscompare s 0 port else keeperSplit s := by
  simp [vote, hvoters]

theorem vote_two_late (hvoters : voters s = [0, 1, 2]) (a b : Word) : vote s port true [(0, a), (1, b)] =
    if a = b then miscompare s 2 port else keeperSplit s := by
  simp [vote, hvoters]

end

/-! The return to the vote. -/

theorem exec_keeperTileReturn (s : State) (k : Nat) (ok : Bool) :
    exec (.keeperTileReturn k ok) s = execKeeperTileReturn k ok s := rfl

theorem returnDue_of_boundary {s : State} {k : Nat} (hloads : s.prf.loads = [])
    (hframes : s.eng.framesOn = true → s.eng.frames % 1200 = 0 ∧ ∀ g, s.eng.leftIn.getD k none = some g → g < s.eng.frames) :
    returnDue s k = true := by
  cases hon : s.eng.framesOn with
  | false => simp [returnDue, hloads, hon]
  | true =>
    obtain ⟨hmajor, hleft⟩ := hframes hon
    cases hg : s.eng.leftIn.getD k none with
    | none =>
      rw [List.getD_eq_getElem?_getD] at hg
      simp [returnDue, hloads, hmajor, hg]
    | some g =>
      have hearlier := hleft g hg
      rw [List.getD_eq_getElem?_getD] at hg
      simp [returnDue, hloads, hmajor, hg, hearlier]

theorem returnDue_of_within {s : State} (hon : s.eng.framesOn = true) (hframes : s.eng.frames % 1200 ≠ 0) (k : Nat) :
    returnDue s k = false := by
  simp [returnDue, hon, hframes]

/-- What a keeper tile's return leaves: a vote more, or one tile that is retired. -/
def tileReturned (s : State) (k : Nat) (ok : Bool) : State :=
  keeperCause (if ok then addRecord { s with eng := { s.eng with voting := listSet s.eng.voting k true } } 0x000C 1 (pw k) 0#40
    else keeperRetire s k)

theorem keeperTileReturn_next {s : State} {k : Nat} (hruns : keeperRuns s = true) (hk : k < 3)
    (hout : s.eng.voting.getD k true = false) (hkept : s.eng.kRetired.getD k false = false) (hdue : returnDue s k = true) (ok : Bool) :
    exec (.keeperTileReturn k ok) s = .next (settle (tileReturned s k ok)) := by
  have hmay : (!keeperRuns s || decide (k ≥ 3) || s.eng.voting.getD k true || s.eng.kRetired.getD k false ||
      !returnDue s k) = false := by
    rw [hruns, hout, hkept, hdue]
    simpa using hk
  rw [exec_keeperTileReturn, execKeeperTileReturn, hmay]
  cases ok <;> rfl

theorem keeperTileReturn_idle {s : State} {k : Nat} (h : returnDue s k = false) (ok : Bool) : Idle (.keeperTileReturn k ok) s := by
  simp only [Idle, exec_keeperTileReturn, execKeeperTileReturn, h, Bool.not_false, Bool.or_true, if_true]

theorem tileReturned_voting (s : State) (k : Nat) (ok : Bool) : (tileReturned s k ok).eng.voting = listSet s.eng.voting k ok := by
  rw [tileReturned, keeperCause_eng]
  cases ok with
  | true => rfl
  | false => exact keeperRetire_voting s k

theorem tileReturned_kRetired (s : State) (k : Nat) :
    (tileReturned s k false).eng.kRetired = listSet s.eng.kRetired k true := by
  rw [tileReturned, keeperCause_eng]
  exact keeperRetire_kRetired s k

theorem keeperRetire_raises {s : State} (hinj : injected s.flt 0x0E = false) (k : Nat) :
    (getSrc (keeperRetire s k).flt 0x0E).uncleared = true := raiseU_uncleared (by rfl) hinj _

theorem tileReturned_raises {s : State} (hinj : injected s.flt 0x0E = false) (k : Nat) :
    (getSrc (tileReturned s k false).flt 0x0E).uncleared = true := by
  have hcause (t : State) : getSrc (keeperCause t).flt 0x0E = getSrc t.flt 0x0E := by
    unfold keeperCause
    split
    · exact causeOff_getSrc_other t (by decide)
    · rfl
  rw [tileReturned, hcause]
  exact keeperRetire_raises hinj k

end Sys2Proof.Machine
end

section
/-! PROOFS. Tiles that fail: retirement, the load of a spare with its end, and the loss of a logical tile (R467, R481 to R497). -/

namespace Sys2Proof.Machine

open Sys2Proof

/-! Sorting. -/

theorem insertBy_perm {α : Type} (le : α → α → Bool) (x : α) (xs : List α) : (insertBy le x xs).Perm (x :: xs) := by
  induction xs with
  | nil => exact .refl _
  | cons y ys ih =>
    rw [insertBy]
    split
    · exact .refl _
    · exact (ih.cons y).trans (.swap x y ys)

theorem sortBy_perm {α : Type} (le : α → α → Bool) (xs : List α) : (sortBy le xs).Perm xs := by
  induction xs with
  | nil => exact .refl _
  | cons x xs ih => exact (insertBy_perm le x _).trans (ih.cons x)

/-! Logical tiles and spares. -/

theorem physOf_spec {s : State} {t p : Nat} (h : physOf s t = some p) : p < 72 ∧ (getTile s p).logical = t ∧ t < 64 := by
  have hmem := List.mem_of_find?_eq_some h
  have hprop := List.find?_some h
  simp only [Bool.and_eq_true, beq_iff_eq, decide_eq_true_eq] at hprop
  exact ⟨mem_allTiles.mp hmem, hprop⟩

theorem mem_sparesLeft {s : State} {q : Nat} :
    q ∈ sparesLeft s ↔ q < 72 ∧ (getTile s q).st = 1 ∧ ∀ l ∈ s.prf.loads, l.spare ≠ q := by
  simp [sparesLeft, mem_allTiles]

theorem sparesLeft_of_prf {s t : State} (h : t.prf = s.prf) : sparesLeft t = sparesLeft s := by
  simp only [sparesLeft, getTile, h]

theorem getTile_of_prf {s t : State} (h : t.prf = s.prf) (p : Nat) : getTile t p = getTile s p := by
  simp only [getTile, h]

/-- The physical tile p in state 4 of Table 12-11. -/
def tileFailed (s : State) (p : Nat) : State := setTile s p { getTile s p with st := 4 }

/-- A tile that fails is no spare any more. -/
theorem mem_sparesLeft_tileFailed {s : State} {p q : Nat} : q ∈ sparesLeft (tileFailed s p) ↔ q ∈ sparesLeft s ∧ q ≠ p := by
  rw [mem_sparesLeft, mem_sparesLeft, tileFailed]
  by_cases hqp : q = p
  · subst hqp
    simp
  · have hloads (x : Tile) : (setTile s p x).prf.loads = s.prf.loads := rfl
    simp [getTile_setTile_other s _ hqp, hqp, hloads]

/-! A tile that retires as a spare does. -/

theorem withLogical_eq_self {v : Tile} (h : v.logical = 127) : { v with logical := 127 } = v := by
  cases v
  cases h
  rfl

/-- The numbering of the logical tiles passes over a tile that has retired. -/
theorem assignTile_retired {x : Tab Tile × Nat} {p : Nat} (hst : 2 ≤ (tget {} x.1 p).st) (hlogical : (tget {} x.1 p).logical = 127)
    (q : Nat) : tget {} (assignTile x q).1 p = tget {} x.1 p := by
  by_cases hpq : p = q
  · subst hpq
    rw [assignTile, if_pos hst]
    exact (tget_tset_same ..).trans (withLogical_eq_self hlogical)
  · simp only [assignTile]
    repeat' split
    all_goals simp only [tget_tset_other _ _ _ hpq]

theorem assignTiles_retired {s : State} {p : Nat} (hst : 2 ≤ (getTile s p).st) (hlogical : (getTile s p).logical = 127) :
    getTile (assignTiles s) p = getTile s p := by
  have hall (ps : List Nat) (x : Tab Tile × Nat) (hx : tget {} x.1 p = getTile s p) :
      tget {} (ps.foldl assignTile x).1 p = getTile s p := by
    induction ps generalizing x with
    | nil => exact hx
    | cons q qs ih => exact ih _ ((assignTile_retired (hx ▸ hst) (hx ▸ hlogical) q).trans hx)
  simp only [assignTiles]
  generalize allTiles = ps
  exact hall ps (s.prf.tiles, 0) rfl

theorem retireSpare_tile (s : State) (p : Nat) :
    getTile (retireSpare s p) p = { getTile s p with st := 4, logical := 127 } := by
  have hnumbered {t : State} (b : Bool) (ht : getTile t p = { getTile s p with st := 4, logical := 127 }) :
      getTile (if b then assignTiles t else t) p = { getTile s p with st := 4, logical := 127 } := by
    cases b with
    | false => exact ht
    | true => exact (assignTiles_retired (by simp [ht]) (by simp [ht])).trans ht
  have hrerun (t : State) (c : Prop) [Decidable c] : (if c then rerunDue t else t).prf = t.prf := by
    simp only [iteU .., rerunDue_only .., ite_self]
  rw [retireSpare, (newDefect_keepsStart ..).tile]
  exact hnumbered _ ((getTile_of_prf (hrerun _ _) p).trans (getTile_setTile_same ..))

/-! The load of a spare, or the loss (R484, R490, R496). -/

/-- The load that joins the list stands in it, with whatever spare the order of the loads gives it. -/
theorem exists_mem_addLoad (ls : List MigLoad) (x : MigLoad) :
    ∃ l ∈ addLoad ls x, l.logical = x.logical ∧ l.retired = x.retired := by
  simp only [addLoad]
  generalize (ls.drop 1).filter (fun l => l.minor == x.minor) = move
  have hperm := sortBy_perm (fun a b : MigLoad => decide (a.logical ≤ b.logical)) (move ++ [x])
  generalize sortBy (fun a b : MigLoad => decide (a.logical ≤ b.logical)) (move ++ [x]) = sorted at hperm
  have hlength : sorted.length ≤ ((move ++ [x]).map (·.spare)).length := by simp [hperm.length_eq]
  have hx : x ∈ (sorted.zip ((move ++ [x]).map (·.spare))).map Prod.fst := by
    rw [List.map_fst_zip hlength, hperm.mem_iff]
    simp
  obtain ⟨y, hy, rfl⟩ := List.mem_map.mp hx
  exact ⟨{ y.1 with spare := y.2 }, List.mem_append_right _ (List.mem_map.mpr ⟨y, hy, rfl⟩), rfl, rfl⟩

theorem migrate_tile (s : State) (t p minor g x : Nat) : getTile (migrate s t p minor g) x = getTile s x := by
  unfold migrate
  split
  · rfl
  · exact ((raiseU_keepsStart ..).tile x).trans ((mapStore_keepsStart ..).tile x)

theorem migrate_loads {s : State} {q : Nat} (hspare : q ∈ sparesLeft s) (t p minor g : Nat) :
    ∃ l ∈ (migrate s t p minor g).prf.loads, l.logical = t ∧ l.retired = p := by
  unfold migrate
  split
  · exact exists_mem_addLoad ..
  · next hnone => simp [List.head?_eq_none_iff.mp hnone] at hspare

theorem migrate_lost {s : State} (hnone : sparesLeft s = []) (t p minor g : Nat) :
    (getLt (migrate s t p minor g) t).lost = true := by
  simp only [migrate, hnone, List.head?_nil]
  rw [(raiseU_keepsStart ..).lt, (mapStore_keepsStart ..).lt]
  exact congrArg LTile.lost (getLt_setLt_same ..)

/-- A tile that holds its cycle table fails: with the frame in hand withheld, a spare is loaded or the logical tile is lost. -/
theorem tableFail_migrates (s : State) (t p : Nat) :
    ∃ u minor g, tableFail s t p = migrate u t p minor g ∧
      u.prf = (tileFailed s p).prf ∧ u.start = s.start ∧ u.nvm = s.nvm := by
  simp only [tableFail]
  split <;> exact ⟨_, _, _, rfl, rfl, rfl, rfl⟩

theorem tableFail_tile (s : State) (t p : Nat) : (getTile (tableFail s t p) p).st = 4 := by
  obtain ⟨u, minor, g, heq, hprf, _⟩ := tableFail_migrates s t p
  rw [heq, migrate_tile, getTile_of_prf hprf, tileFailed, getTile_setTile_same]

theorem tableFail_loads {s : State} {p q : Nat} (hspare : q ∈ sparesLeft s) (hother : q ≠ p) (t : Nat) :
    ∃ l ∈ (tableFail s t p).prf.loads, l.logical = t ∧ l.retired = p := by
  obtain ⟨u, minor, g, heq, hprf, _⟩ := tableFail_migrates s t p
  rw [heq]
  exact migrate_loads (q := q) (by rw [sparesLeft_of_prf hprf]; exact mem_sparesLeft_tileFailed.mpr ⟨hspare, hother⟩) ..

theorem tableFail_lost {s : State} (hnone : sparesLeft s = []) (t p : Nat) : (getLt (tableFail s t p) t).lost = true := by
  obtain ⟨u, minor, g, heq, hprf, _⟩ := tableFail_migrates s t p
  have hleft : sparesLeft u = [] := by
    rw [sparesLeft_of_prf hprf, List.eq_nil_iff_forall_not_mem]
    intro q hq
    simpa [hnone] using mem_sparesLeft_tileFailed.mp hq
  rw [heq]
  exact migrate_lost hleft ..

/-! The runtime check (R481, R557). -/

/-- A tile that fails in step 8 after the second admission run waits for the arming. -/
def tileLate (s : State) (t p : Nat) : State :=
  let u := withhold (tileFailed s p) t
  { u with adm := { u.adm with late := u.adm.late ++ [t] } }

theorem tileFail_eq {s : State} {t p : Nat} (hphys : physOf s t = some p) : tileFail s t =
    if !tablesHeld s || (s.start.step == 8 && !s.adm.reran) then retireSpare s p
    else if s.start.step == 8 then tileLate s t p else tableFail s t p := by
  rw [tileFail, hphys]
  rfl

theorem exec_runtimeCheckFail (s : State) (t : Nat) (pub : Bool) :
    exec (.runtimeCheckFail t pub) s = execRuntimeCheckFail t pub s := rfl

theorem runtimeCheckFail_next {s : State} {t : Nat} (hruns : keeperRuns s = true) (hdone : s.prf.done = true)
    (hlost : (getLt s t).lost = false) (hload : s.prf.loads.find? (fun l => l.logical == t) = none)
    (hlate : s.adm.late.contains t = false) (pub : Bool) :
    exec (.runtimeCheckFail t pub) s = .next (settle (tileFail s t)) := by
  simp only [exec_runtimeCheckFail, execRuntimeCheckFail, hruns, hdone, hlost, hload, hlate, fin]
  rfl

/-- What a failed runtime check of the logical tile t on tile p leaves, by whether tables are held and which step the start is in. -/
structure FailsRuntime (u s : State) (t p : Nat) : Prop where
  failed : (getTile u p).st = 4
  loads : tablesHeld s = true → s.start.step ≠ 8 → (∃ q, q ∈ sparesLeft s ∧ q ≠ p) →
    ∃ l ∈ u.prf.loads, l.logical = t ∧ l.retired = p
  lost : tablesHeld s = true → s.start.step ≠ 8 → sparesLeft s = [] → (getLt u t).lost = true
  late : tablesHeld s = true → s.start.step = 8 → s.adm.reran = true → t ∈ u.adm.late
  unnumbered : tablesHeld s = false → (getTile u p).logical = 127

theorem tileFail_failsRuntime {s : State} {t p : Nat} (hphys : physOf s t = some p) : FailsRuntime (tileFail s t) s t p := by
  rw [tileFail_eq hphys]
  split
  · next hretire =>
    have htile := retireSpare_tile s p
    simp only [Bool.or_eq_true, Bool.and_eq_true, Bool.not_eq_true', beq_iff_eq] at hretire
    have hstep (hheld : tablesHeld s = true) : s.start.step = 8 := (hretire.resolve_left (by simp [hheld])).1
    have hran (hheld : tablesHeld s = true) : s.adm.reran = false := (hretire.resolve_left (by simp [hheld])).2
    exact ⟨by rw [htile], fun hheld hne _ => absurd (hstep hheld) hne, fun hheld hne _ => absurd (hstep hheld) hne,
      fun hheld _ h => by simp [hran hheld] at h, fun _ => by rw [htile]⟩
  · next hkeep =>
    have hheld : tablesHeld s = true := eq_true_of_ne_false fun h => hkeep (by rw [h]; rfl)
    split
    · next hstep =>
      have hstep := beq_iff_eq.mp hstep
      refine ⟨?_, fun _ h => absurd hstep h, fun _ h => absurd hstep h, fun _ _ _ => ?_, fun h => by simp [hheld] at h⟩
      · exact congrArg Tile.st (getTile_setTile_same s p { getTile s p with st := 4 })
      · exact List.mem_append_right _ (List.mem_singleton_self t)
    · next hstep =>
      refine ⟨tableFail_tile s t p, fun _ _ ⟨q, hspare, hother⟩ => tableFail_loads hspare hother t,
        fun _ _ hnone => tableFail_lost hnone t p, fun _ h => absurd (beq_iff_eq.mpr h) hstep, fun h => by simp [hheld] at h⟩

/-! The end of a load. -/

theorem exec_migrationLoadEnd (s : State) : exec .migrationLoadEnd s = execMigrationLoadEnd s := rfl

theorem migrationLoadEnd_next {s : State} {l : MigLoad} {ls : List MigLoad} (hloads : s.prf.loads = l :: ls)
    (hruns : keeperRuns s = true) : exec .migrationLoadEnd s = .next (settle (loadEnd s l)) := by
  simp only [exec_migrationLoadEnd, execMigrationLoadEnd, hloads, hruns, fin, if_true]

/-- The map as the end of the load x leaves it: the spare is the logical tile, with its table. -/
def loadMapped (s : State) (x : MigLoad) : State :=
  let u := setTile (setTile s x.retired { getTile s x.retired with logical := 127 }) x.spare
    { getTile s x.spare with st := 0, logical := x.logical }
  loadTable u x.logical x.spare

/-- The load off the list and counted, with the report of the migration (Table 12-12). -/
def loadTaken (s : State) (x : MigLoad) : State :=
  let u := loadMapped s x
  migNote (migEnds { u with prf := { u.prf with loads := u.prf.loads.drop 1, migCount := satAdd 255 u.prf.migCount 1 } }) x.logical
    x.retired x.spare x.minor

/-- A load that ends late withholds the frame in hand (R490). -/
def loadWithheld (s : State) (x : MigLoad) : State :=
  if s.eng.lastTick + 8000 < s.now then withhold s x.logical else s

theorem loadEnd_keepsStart (s : State) (x : MigLoad) : KeepsStart (loadEnd s x) (loadWithheld (loadTaken s x) x) := by
  have heq : loadEnd s x = sparesLow (pulse (mapStore (loadWithheld (loadTaken s x) x) (mapEntry 1 x.retired)) 0x17
      (packW [(6, 0, x.logical), (14, 8, x.retired), (22, 16, x.spare)])) := by
    simp only [loadEnd, loadWithheld, decide_eq_true_eq]
    rfl
  rw [heq]
  exact (sparesLow_keepsStart ..).trans ((pulse_keepsStart ..).trans (mapStore_keepsStart ..))

theorem loadWithheld_prf (s : State) (x : MigLoad) : (loadWithheld s x).prf = s.prf := by
  simp only [loadWithheld, iteU .., withhold_only .., ite_self]

theorem loadEnd_tile (s : State) (x : MigLoad) (p : Nat) : getTile (loadEnd s x) p = getTile (loadMapped s x) p := by
  have htiles : (loadTaken s x).prf.tiles = (loadMapped s x).prf.tiles := rfl
  rw [(loadEnd_keepsStart s x).tile, getTile, loadWithheld_prf, htiles, getTile]

theorem loadEnd_loads (s : State) (x : MigLoad) : (loadEnd s x).prf.loads = s.prf.loads.drop 1 := by
  rw [(loadEnd_keepsStart s x).loads, loadWithheld_prf]
  rfl

theorem loadEnd_migCount (s : State) (x : MigLoad) : (loadEnd s x).prf.migCount = min 255 (s.prf.migCount + 1) := by
  rw [(loadEnd_keepsStart s x).migCount, loadWithheld_prf]
  rfl

theorem loadMapped_spare {s : State} {x : MigLoad} : getTile (loadMapped s x) x.spare =
    { getTile s x.spare with st := 0, logical := x.logical, crc := tget 0 s.adm.crcs x.logical } := by
  simp only [loadMapped, loadTable, getTile_setTile_same, setTile_adm]

theorem loadMapped_retired {s : State} {x : MigLoad} (h : x.retired ≠ x.spare) :
    (getTile (loadMapped s x) x.retired).logical = 127 := by
  simp only [loadMapped, loadTable, getTile_setTile_other _ _ h, getTile_setTile_same]

/-! The test of a spare. -/

theorem exec_spareTileTestFail (s : State) (p : Nat) : exec (.spareTileTestFail p) s = execSpareTileTestFail p s := rfl

theorem spareTileTestFail_next {s : State} {p : Nat} (hruns : keeperRuns s = true) (hspare : (sparesLeft s).contains p = true) :
    exec (.spareTileTestFail p) s = .next (settle (retireSpare s p)) := by
  simp only [exec_spareTileTestFail, execSpareTileTestFail, hruns, hspare, Bool.and_self, if_true, fin]

end Sys2Proof.Machine
end

section
/-! PROOFS. O15: the votes and failures of the sections before, and the scrub of the shared SRAM (R489). -/

namespace Sys2Proof.Machine

open Sys2Proof

/-! The scrub asks at every bank. -/

/-- A bank at which the scrub asks: its port is a requester there, and what its packet finds is noted for the turn's end. -/
def sramAsked (s : State) (bad : List Nat) (b : Nat) : State :=
  modArb { s with prf := { s.prf with sramTurns := s.prf.sramTurns ++ [(b, bad.filter (fun r => r / 128 == b))] } } b
    (fun a => phaseRequest a portSram true)

theorem sramAsks_cons (s : State) (bad : List Nat) (b : Nat) (bs : List Nat) : sramAsks s bad (b :: bs) =
    sramAsks (if arbHas (getArb s b) portSram then s else sramAsked s bad b) bad bs := by
  rw [sramAsks]
  split <;> rfl

/-- The scrub's questions change of the proof's unit the turns alone. -/
theorem sramAsks_prf (s : State) (bad bs : List Nat) :
    (sramAsks s bad bs).prf = { s.prf with sramTurns := (sramAsks s bad bs).prf.sramTurns } := by
  induction bs generalizing s with
  | nil => rfl
  | cons b bs ih =>
    rw [sramAsks_cons, ih]
    split <;> rfl

theorem sramAsks_sramTurns {s : State} {x : Nat × List Nat} (h : x ∈ s.prf.sramTurns) (bad bs : List Nat) :
    x ∈ (sramAsks s bad bs).prf.sramTurns := by
  induction bs generalizing s with
  | nil => exact h
  | cons b bs ih =>
    rw [sramAsks_cons]
    split
    · exact ih h
    · exact ih (List.mem_append_left _ h)

theorem sramAsks_getArb_other (s : State) (bad : List Nat) {bs : List Nat} {b : Nat} (h : b ∉ bs) :
    getArb (sramAsks s bad bs) b = getArb s b := by
  induction bs generalizing s with
  | nil => rfl
  | cons c bs ih =>
    obtain ⟨hne, hrest⟩ := not_or.mp (mt List.mem_cons.mpr h)
    rw [sramAsks_cons, ih _ hrest]
    split
    · rfl
    · exact getArb_modArb_other _ _ hne

theorem sramAsks_asks {s : State} {b : Nat} {bs : List Nat} (hfree : arbHas (getArb s b) portSram = false) (hnd : bs.Nodup)
    (hb : b ∈ bs) (bad : List Nat) : arbHas (getArb (sramAsks s bad bs) b) portSram = true ∧
      (b, bad.filter (fun r => r / 128 == b)) ∈ (sramAsks s bad bs).prf.sramTurns := by
  induction bs generalizing s with
  | nil => exact absurd hb List.not_mem_nil
  | cons c bs ih =>
    obtain ⟨hfresh, hrest⟩ := List.nodup_cons.mp hnd
    rw [sramAsks_cons]
    rcases List.mem_cons.mp hb with rfl | hmem
    · rw [if_neg (by simp [hfree])]
      refine ⟨?_, sramAsks_sramTurns (List.mem_append_right _ (List.mem_singleton_self _)) bad bs⟩
      rw [sramAsks_getArb_other _ _ hfresh, sramAsked, getArb_modArb_same]
      exact phaseRequest_has_same ..
    · have hne : b ≠ c := fun h => hfresh (h ▸ hmem)
      refine ih ?_ hrest hmem
      split
      · exact hfree
      · rw [sramAsked, getArb_modArb_other _ _ hne]
        exact hfree

/-- The scrub counts its packet, with its instant. -/
def scrubCounted (s : State) : State :=
  { s with prf := { s.prf with sramScrub := (s.prf.sramScrub + 1) % 2048, sramScrubAt := some s.now } }

theorem exec_sharedSramScrub (s : State) (bad : List Nat) : exec (.sharedSramScrub bad) s = execSharedSramScrub bad s := rfl

theorem sramDue_iff (s : State) : sramDue s = true ↔ ∀ at_, s.prf.sramScrubAt = some at_ → at_ + 10000 ≤ s.now := by
  unfold sramDue
  split <;> simp_all

theorem sharedSramScrub_next {s : State} (hruns : keeperRuns s = true) (hdue : sramDue s = true) (bad : List Nat) :
    exec (.sharedSramScrub bad) s = .next (sramAsks (scrubCounted s) bad (rangeFrom 0 8)) := by
  simp only [exec_sharedSramScrub, execSharedSramScrub, hruns, hdue, Bool.and_self, if_true]
  rfl

theorem sharedSramScrub_idle {s : State} (h : sramDue s = false) (bad : List Nat) : Idle (.sharedSramScrub bad) s := by
  simp [Idle, exec_sharedSramScrub, execSharedSramScrub, h]

/-! The end of the scrub's turn at a bank. -/

theorem sramEntries_noted_of_noted {s : State} {row : Nat} (h : row ∈ s.prf.sramNoted) (rows : List Nat) :
    row ∈ (sramEntries s rows).prf.sramNoted := by
  induction rows generalizing s with
  | nil => exact h
  | cons r rs ih =>
    refine ih ?_
    rw [sramEntry]
    split
    · exact h
    · rw [(mapStore_keepsStart ..).sramNoted]
      exact List.mem_cons_of_mem _ h

theorem sramEntry_noted (s : State) {row : Nat} (h : row < 1024) : row ∈ (sramEntry s row).prf.sramNoted := by
  rw [sramEntry]
  split
  · next hout =>
    rw [Bool.or_eq_true, decide_eq_true_eq] at hout
    exact List.contains_iff_mem.mp (hout.resolve_right (Nat.not_le.mpr h))
  · rw [(mapStore_keepsStart ..).sramNoted]
    exact List.mem_cons_self ..

theorem sramEntries_noted (s : State) {row : Nat} {rows : List Nat} (hmem : row ∈ rows) (h : row < 1024) :
    row ∈ (sramEntries s rows).prf.sramNoted := by
  induction rows generalizing s with
  | nil => exact absurd hmem List.not_mem_nil
  | cons r rs ih =>
    rcases List.mem_cons.mp hmem with rfl | hrest
    · exact sramEntries_noted_of_noted (sramEntry_noted s h) rs
    · exact ih _ hrest

theorem sramEnd_noted {s : State} {e : Nat × List Nat} (hturn : e ∈ s.prf.sramTurns) {row : Nat} (hrow : row ∈ e.2)
    (h : row < 1024) : row ∈ (sramEnd s e.1).prf.sramNoted :=
  sramEntries_noted _ (List.mem_flatMap.mpr ⟨e, List.mem_filter.mpr ⟨hturn, beq_self_eq_true e.1⟩, hrow⟩) h

theorem arbRelease_next_of_sram {s : State} {n : Nat} (hheld : s.rst.held = false) (hn : n < 8)
    (howner : (getArb s n).owner = some portSram) :
    exec (.arbRelease n portSram) s = .next (settle (sramEnd (arbMove s n phaseRelease) n)) := by
  have hport : sramPort n portSram = true := by simp [sramPort, hn]
  rw [arbRelease_next hheld (phaseStyle_bank (by omega)) howner (portBusy_of_lt s (by omega)) (bankTurn_of_not_bank (by omega)), hport]
  rfl

/-- Settles O15: the vote by its table, a failed tile by the cases of `FailsRuntime`, the end of a load by the map that it leaves, and
the scrub by the requests that it makes and the rows that the end of its turns enters. -/
theorem keeperVotesAndTilesFail : Obligations.KeeperVotesAndTilesFail := by
  unfold Obligations.KeeperVotesAndTilesFail
  refine ⟨fun s port w x y hruns hvoters hxw hyw hxy => ?vote, fun s port w x hruns hvoters hxw => ?late,
    fun s k ok hruns hk hout hkept hloads hframes => ?returns,
    fun s k ok hon hframes => keeperTileReturn_idle (returnDue_of_within hon hframes k) ok,
    fun s t p pub hruns hdone hlost hload hphys hlate => ?fails, fun s l ls hloads hruns hne => ?ends,
    fun s p hruns hspare => ⟨_, spareTileTestFail_next hruns hspare, by rw [retireSpare_tile], by rw [retireSpare_tile]⟩,
    fun s bad hruns hdue => ?scrub, fun s n e hheld hn howner hturn he => ?release,
    fun s bad at_ hat hearly => sharedSramScrub_idle ?early bad⟩
  case vote =>
    have hnext := fun a b c => (keeperPacketVote_next port hruns [(0, a), (1, b), (2, c)]).trans (by rw [vote_three port hvoters])
    have hvoter {k : Nat} (hk : k ∈ [0, 1, 2]) := miscompare_not_voting (hvoters.symm ▸ hk) port
    refine ⟨⟨_, hnext w w w, ?_⟩, ⟨_, hnext w w x, ?_⟩, ⟨_, hnext w x w, ?_⟩, ⟨_, hnext x w w, ?_⟩, ⟨_, hnext w x y, ?_⟩⟩
    · simp
    · simpa [hxw] using hvoter (k := 2) (by decide)
    · simpa [hxw.symm] using hvoter (k := 1) (by decide)
    · simpa [hxw, hxw.symm] using hvoter (k := 0) (by decide)
    · simp [hxw.symm, hyw, hxy.symm]
  case late =>
    have hnext := fun a b => (voteTimeout_next port hruns [(0, a), (1, b)]).trans (by rw [vote_two_late port hvoters])
    refine ⟨⟨_, hnext w w, ?_⟩, ⟨_, hnext w x, ?_⟩⟩
    · simpa using miscompare_not_voting (hvoters.symm ▸ (by decide : 2 ∈ [0, 1, 2])) port
    · simp [hxw.symm]
  case returns =>
    refine ⟨_, keeperTileReturn_next hruns hk hout hkept (returnDue_of_boundary hloads hframes) ok, tileReturned_voting s k ok, ?_⟩
    rintro rfl
    exact ⟨tileReturned_kRetired s k, fun hinj => tileReturned_raises hinj k⟩
  case fails =>
    obtain ⟨hfailed, hmoves, hgone, hwaits, hunnumbered⟩ := tileFail_failsRuntime hphys
    exact ⟨_, runtimeCheckFail_next hruns hdone hlost hload hlate pub, hfailed, hmoves, hgone, hwaits, hunnumbered⟩
  case ends =>
    refine ⟨_, migrationLoadEnd_next hloads hruns, by rw [loadEnd_loads, hloads]; rfl, loadEnd_migCount s l, ?_⟩
    rw [loadEnd_tile, loadEnd_tile, loadMapped_spare, loadMapped_retired hne]
    exact ⟨rfl, rfl, rfl, rfl⟩
  case scrub =>
    have hprf := sramAsks_prf (scrubCounted s) bad (rangeFrom 0 8)
    refine ⟨_, sharedSramScrub_next hruns ((sramDue_iff s).mpr hdue) bad, by rw [hprf]; rfl, by rw [hprf]; rfl, fun b hb hfree => ?_⟩
    exact sramAsks_asks (s := scrubCounted s) hfree (rangeFrom_nodup 0 8) (mem_rangeFrom.mpr (by omega)) bad
  case release =>
    subst he
    refine ⟨_, arbRelease_next_of_sram hheld hn howner, fun row hrow h => ?_⟩
    rw [← arbMove_sramTurns s (n := e.1) phaseRelease (by omega)] at hturn
    simp only [settle_only ..]
    exact sramEnd_noted hturn hrow h
  case early =>
    rw [Bool.eq_false_iff, ne_eq, sramDue_iff]
    exact fun h => absurd (h at_ hat) (by omega)

end Sys2Proof.Machine
end

section
/-! PROOFS. O6: the start from step 6 to the armed plant (R296, R425, R437, R443, R444, R449, R451, R534, R557, R605). -/

namespace Sys2Proof.Machine

open Sys2Proof

/-! Step 6. -/

theorem calAtStart_keepsStart (s : State) : KeepsStart (calAtStart s) s := by
  have hvalid : KeepsStart (if s.cal.valid then s else causeOn s 0x4E (pw s.cal.why)) s := .ite (.refl s) (causeOn_keepsStart ..)
  exact .ite ((causeOn_keepsStart ..).trans hvalid) hvalid

theorem keeperStart_step (s : State) : (keeperStart s).start.step = 6 := by
  have hread (t : State) (ls : List Nat) : (wordsFound t ls).start.step = t.start.step := (wordsFound_keepsStart ..).step
  have hwear (t : State) (xs : List (Nat × Nat)) : (checkWears t xs).start.step = t.start.step := (checkWears_keepsStart ..).step
  have hcal (t : State) : (calAtStart t).start.step = t.start.step := (calAtStart_keepsStart t).step
  simp only [keeperStart, hread, restartErases_only .., mapLates_only .., hwear, resumeScrub_only .., resumeRetire_only .., hcal,
    iteU .., addRecord_only .., ite_self]

theorem proofTiles_step (s : State) (ps : List Nat) : (proofTiles s ps).start.step = s.start.step := by
  induction ps generalizing s with
  | nil => rfl
  | cons p ps ih =>
    rw [proofTiles, ih, proofTile]
    split
    · rfl
    · exact (newDefect_keepsStart ..).step

theorem loadTiles_step (s : State) (bad : List Nat) : (loadTiles s bad).start.step = s.start.step := by
  have hread (t : State) (ls : List Nat) : (wordsFound t ls).start.step = t.start.step := (wordsFound_keepsStart ..).step
  have hlow (t : State) : (sparesLow t).start.step = t.start.step := (sparesLow_keepsStart t).step
  simp only [loadTiles]
  generalize (if imgCrcOk _ _ then bad else _) = failed
  split
  · exact hread ..
  · simp only [hlow, assignTiles_only .., proofTiles_step, hread]

theorem exec_keeperStart (s : State) (bad : List Nat) : exec (.keeperStart bad) s = execKeeperStart bad s := rfl

/-- The keeper runs, with the tiles that load its engine image; while moored it configures two islands (R254). -/
def keeperStarted (s : State) (bad : List Nat) : State :=
  let t := loadTiles (keeperStart s) bad
  if t.start.state == .moored then moorIslands t else t

theorem keeperStart_next {s : State} (bad : List Nat) (hheld : s.rst.held = false) (hfatal : s.flt.fatal = false)
    (hstate : s.start.state = .starting ∨ s.start.state = .moored) (hstep : s.start.step = 5) (hdone : s.prf.done = true) :
    exec (.keeperStart bad) s = .next (settle (keeperStarted s bad)) := by
  rcases hstate with hstate | hstate <;>
    simp [exec_keeperStart, execKeeperStart, keeperStarted, fin, hheld, hfatal, hstate, hstep, hdone]

theorem keeperStarted_step (s : State) (bad : List Nat) : (keeperStarted s bad).start.step = 6 := by
  simp only [keeperStarted, iteU .., moorIslands_only .., ite_self]
  rw [loadTiles_step, keeperStart_step]

/-! Step 7. -/

theorem exec_plateRead (s : State) (ok e4 a4 : Bool) (op d : Nat) :
    exec (.plateRead ok e4 a4 op d) s = execPlateRead ok e4 a4 op d s := rfl

/-- The flash facts of step 7: those at hand where plate A is read, else those of that reading. -/
def factsHeld (s : State) (facts : FlashFacts) : FlashFacts := if slotTried s = 0 then facts else s.plt.facts

theorem plateRead_next {s : State} (hstart : starting s = true) (htest : testmode s = false) (hruns : keeperRuns s = true)
    (hstep : s.start.step ≤ 8) (hcand : s.plt.cand = none) (hadmitted : s.plt.admitted = false) (ok e4 a4 : Bool) (op d : Nat) :
    exec (.plateRead ok e4 a4 op d) s = .next (settle (readPlate s ⟨ok && islRuns s 9, e4, a4, op, d⟩)) := by
  have hmay : (!starting s || testmode s || !keeperRuns s || decide (s.start.step > 8) || s.plt.cand.isSome ||
      s.plt.admitted) = false := by
    rw [hstart, htest, hruns, hcand, hadmitted, decide_eq_false (Nat.not_lt.mpr hstep)]
    rfl
  simp only [exec_plateRead, execPlateRead, hmay, Bool.false_eq_true, if_false, fin]

theorem plateRefused_plt (s : State) (slot step : Nat) : (plateRefused s slot step).plt = { s.plt with cand := none } := by
  simp only [plateRefused, iteU .., moor_only .., raiseU_only .., ite_self]

theorem setResult_plt (s : State) (slot : Nat) (w : Word) : (setResult s slot w).plt.facts = s.plt.facts ∧
    (setResult s slot w).plt.candSlot = s.plt.candSlot := by
  unfold setResult
  split <;> exact ⟨rfl, rfl⟩

/-- What step 7 leaves of the plate port: the slot tried with the facts, and the plate where it passes validation. -/
theorem readPlate_plt (s : State) (facts : FlashFacts) :
    let words := slotWords (pltAccess s.straps) s.plt.flash (slotTried s)
    (readPlate s facts).plt.facts = factsHeld s facts ∧ (readPlate s facts).plt.candSlot = slotTried s ∧
    (readPlate s facts).plt.cand =
      if (validatePlate (plateEnv s (factsHeld s facts)) words).isNone then some (decodePlate words) else none := by
  have hfacts : (if slotTried s == 0 then facts else s.plt.facts) = factsHeld s facts := by simp [factsHeld]
  have henv (x : Plt) (n : Nat) (f : FlashFacts) :
      plateEnv { s with plt := x, start := { s.start with step := n } } f = plateEnv s f := rfl
  simp only [readPlate, hfacts, henv]
  split
  · next r hfound =>
    simp only [hfound, plateRefused_plt, addRecord_only .., setResult_plt, wordsFound_only .., Option.isNone_some,
      Bool.false_eq_true, if_false, and_self]
  · next hfound =>
    simp only [hfound, setResult_plt, wordsFound_only .., Option.isNone_none, if_true, and_self]

/-! Step 8. -/

theorem exec_admission (s : State) (ms : Nat) : exec (.admission ms) s = execAdmission ms s := rfl

theorem exec_admissionRerun (s : State) (ms : Nat) : exec (.admissionRerun ms) s = execAdmissionRerun ms s := rfl

/-- The calculation looks at the proof's unit alone. -/
theorem admitNow_of_prf {s t : State} (h : t.prf = s.prf) (p : Plate) (full : Bool) : admitNow t p full = admitNow s p full := by
  simp only [admitNow, slicesIn, h]

theorem admComplete_admitted (s : State) (p : Plate) (slot : Nat) : (admComplete s p slot).plt.admitted = true := by
  simp only [admComplete, wordsFound_only .., addRecord_only .., loadFix_only .., mixRecords_only .., loadLayout_only ..]

theorem admitStep_admitted (s : State) (p : Plate) (ms : Nat) (full : Bool) :
    (admitStep s p ms full).plt.admitted = (admitNow s p full).fail.isNone := by
  simp only [admitStep]
  split
  · next f hfail =>
    rw [hfail, admRefuse, plateRefused_plt]
    rfl
  · next hfail => rw [hfail, admComplete_admitted, Option.isNone_none]

theorem admitStep_adm (s : State) (p : Plate) (ms : Nat) (full : Bool) :
    (admitStep s p ms full).adm.durMs = min 4095 ms ∧ (admitStep s p ms full).adm.reran = s.adm.reran := by
  simp only [admitStep]
  split
  · simp only [admRefuse, plateRefused_only .., addRecord_only .., satTo, and_self]
  · simp only [admComplete_only .., admPass, loadTables_only .., satTo, and_self]

/-- Step 8 begins with the first run. -/
def admitting (s : State) : State :=
  { s with start := { s.start with step := 8 }, adm := { s.adm with rerun := false, reran := false, late := [] } }

theorem admission_next {s : State} {p : Plate} (hstart : starting s = true) (hstep : s.start.step = 7) (hcand : s.plt.cand = some p)
    (ms : Nat) : exec (.admission ms) s = .next (settle (admitStep (admitting s) p ms true)) := by
  simp [exec_admission, execAdmission, admitting, fin, hstart, hstep, hcand]

/-- The second run numbers the tiles afresh, and where it refuses the plate undoes what the first one had loaded (R557). -/
def readmitting (s : State) (p : Plate) : State :=
  let t := assignTiles { s with adm := { s.adm with reran := true } }
  if (admitNow t p false).fail.isNone then t else unloadPlate t

theorem admissionRerun_next {s : State} {p : Plate} (hstart : starting s = true) (hstep : s.start.step = 8)
    (hadmitted : s.plt.admitted = true) (hcand : s.plt.cand = some p) (hrerun : s.adm.rerun = true) (hreran : s.adm.reran = false)
    (ms : Nat) : exec (.admissionRerun ms) s = .next (settle (admitStep (readmitting s p) p ms false)) := by
  have hmay : (!starting s || s.start.step != 8 || !s.plt.admitted || !s.adm.rerun || s.adm.reran) = false := by
    simp [hstart, hstep, hadmitted, hrerun, hreran]
  rw [exec_admissionRerun, execAdmissionRerun, hmay, hcand]
  simp only [readmitting, fin, Bool.false_eq_true, if_false]
  split
  · next hpass => simp only [hpass, Option.isNone_none, if_true]
  · next f hfail => simp only [hfail, Option.isNone_some, Bool.false_eq_true, if_false]

theorem readmitting_prf (s : State) (p : Plate) : (readmitting s p).prf = (assignTiles s).prf := by
  simp only [readmitting]
  split <;> rfl

theorem readmitting_reran (s : State) (p : Plate) : (readmitting s p).adm.reran = true := by
  simp only [readmitting]
  split <;> rfl

/-! Step 9. -/

theorem blankEntries_grid (s : State) (cs : List ScanCfg) : (blankEntries s cs).fe.grid = s.fe.grid := by
  induction cs generalizing s with
  | nil => rfl
  | cons c cs ih => simp only [blankEntries, ih, blankEntry, iteU .., setQuality_only .., ite_self]

theorem feStart_grid (s : State) : (feStart s).fe.grid = true := by
  simp only [feStart, listsStart, blankEntries_grid]

theorem exec_islandConfiguration (s : State) : exec .islandConfiguration s = execIslandConfiguration s := rfl

/-- The nodes that the plate declares, none of which has reported. -/
def nodesDeclared (p : Plate) : Tab NodeSt :=
  p.nodes.foldl (fun (t : Tab NodeSt) c => tset {} t (nodeKey c.bus c.node) { st := 1 }) []

theorem islandConfiguration_settles {s : State} (hstart : starting s = true) (hstep : s.start.step = 8)
    (hadmitted : s.plt.admitted = true) (hruns : s.adm.rerun = true → s.adm.reran = true) :
    Settles .islandConfiguration s fun u => u.start.step = 10 ∧ u.start.step9At = s.now ∧ u.fe.grid = true ∧
      u.syn.nodes = nodesDeclared s.plt.plate := by
  have hmay : (!starting s || s.start.step != 8 || !s.plt.admitted || (s.adm.rerun && !s.adm.reran)) = false := by
    simpa [hstart, hstep, hadmitted] using hruns
  rw [Settles, exec_islandConfiguration, execIslandConfiguration, hmay]
  refine ⟨_, rfl, ?_⟩
  simp only [nodesDeclared, iteU .., vanaFaults_only .., ite_self, feStart_grid, feStart_only .., islConfigures_only .., and_self]

/-! Steps 10 and 11. -/

theorem exec_firstValuesTimeout (s : State) : exec .firstValuesTimeout s = execFirstValuesTimeout s := rfl

theorem exec_identityCheckTimeout (s : State) : exec .identityCheckTimeout s = execIdentityCheckTimeout s := rfl

theorem firstValuesTimeout_next {s : State} (hstart : starting s = true) (hstep : 10 ≤ s.start.step) (hwaits : s.start.step10 = false)
    (hend : listsDelivered s = true ∨ s.start.step9At + 1000000 ≤ s.now) :
    exec .firstValuesTimeout s = .next (settle { s with start := stepNow { s.start with step10 := true } }) := by
  simp [exec_firstValuesTimeout, execFirstValuesTimeout, fin, hstart, Nat.not_lt.mpr hstep, hwaits, hend]

theorem identityCheckTimeout_next {s : State} (hstart : starting s = true) (hstep : 10 ≤ s.start.step)
    (hwaits : s.start.step11 = false) (hend : nodesSilent s = [] ∨ s.start.step9At + 5000000 ≤ s.now) :
    exec .identityCheckTimeout s = .next (settle { nodesLose s (nodesSilent s) with
      start := { (nodesLose s (nodesSilent s)).start with step11 := true } }) := by
  simp [exec_identityCheckTimeout, execIdentityCheckTimeout, fin, hstart, Nat.not_lt.mpr hstep, hwaits, hend]

/-! Step 12. -/

/-- What the arming notes of itself: state and step of the start, the instant, and that of the persistent pass. -/
def armingMarks (s : State) : SysState × Nat × Nat × Nat := (s.start.state, s.start.step, s.start.armedAt, s.nvm.lastPass)

theorem KeepsStart.marks {t s : State} (h : KeepsStart t s) : armingMarks t = armingMarks s := by
  simp only [armingMarks, h.state, h.step, h.armedAt, h.lastPass]

theorem migrate_marks (s : State) (t p minor g : Nat) : armingMarks (migrate s t p minor g) = armingMarks s := by
  unfold migrate
  split
  · rfl
  · exact ((raiseU_keepsStart ..).trans (mapStore_keepsStart ..)).marks

theorem tableFail_marks (s : State) (t p : Nat) : armingMarks (tableFail s t p) = armingMarks s := by
  obtain ⟨u, minor, g, heq, _, hstart, hnvm⟩ := tableFail_migrates s t p
  rw [heq, migrate_marks]
  simp only [armingMarks, hstart, hnvm]

theorem lateFails_marks (s : State) (ts : List Nat) : armingMarks (lateFails s ts) = armingMarks s := by
  induction ts generalizing s with
  | nil => rfl
  | cons t ts ih =>
    simp only [lateFails]
    rw [ih]
    split
    · rfl
    · exact tableFail_marks ..

theorem sendNow_marks (s : State) (cs : List (Nat × Nat)) : armingMarks (sendNow s cs) = armingMarks s := by
  simp only [armingMarks, sendNow_only ..]

theorem exec_armed (s : State) : exec .armed s = execArmed s := rfl

theorem armed_settles {s : State} (hstart : starting s = true) (hstep : 10 ≤ s.start.step) (hvalues : s.start.step10 = true)
    (hnodes : s.start.step11 = true) : Settles .armed s fun u => armingMarks u = (.armed, 12, s.now, s.now) := by
  have hmay : (!starting s || decide (s.start.step < 10) || !s.start.step10 || !s.start.step11) = false := by
    simp [hstart, Nat.not_lt.mpr hstep, hvalues, hnodes]
  rw [Settles, exec_armed, execArmed, hmay]
  refine ⟨_, rfl, ?_⟩
  rw [sendNow_marks, lateFails_marks]
  rfl

/-! Auto-start rules, and the keeper's values. -/

theorem getSect_of_start {s t : State} (h : t.start = s.start) (n : Nat) : getSect t n = getSect s n := by
  simp only [getSect, h]

theorem writeRun_sect (s : State) (n : Nat) (b : Bool) : getSect (writeRun s n b) n = { getSect s n with run := b } := by
  have hput (t : State) (i : Nat) (w : Word) (q : Quality) (k : Nat) : getSect (putVal t i w q k) n = getSect t n :=
    getSect_of_start (by simp only [putVal_only ..]) n
  simp only [writeRun]
  split
  · exact getSect_setSect_same ..
  · rw [hput, getSect_setSect_same]

/-- A section as its accepted start leaves it (R445, R446). -/
theorem sectStarts_sect (s : State) (n origin : Nat) : getSect (sectStarts s n origin) n =
    { getSect s n with st := 2, lastStart := origin, faultStop := false, stopAt := none, run := true } := by
  have hrecord (t : State) (code k : Nat) (a b : Word) : getSect (addRecord t code k a b) n = getSect t n :=
    getSect_of_start (by simp only [addRecord_only ..]) n
  simp only [sectStarts]
  rw [hrecord, writeRun_sect, getSect_setSect_same]

/-- The rule of section n has fired, whatever becomes of it. -/
def ruleFired (s : State) (n : Nat) : State := setSect s n { getSect s n with fired := true }

theorem exec_autoStartArmed (s : State) (n : Nat) : exec (.autoStartArmed n) s = execAutoStartArmed n s := rfl

theorem autoStartArmed_next {s : State} {n : Nat} {c : SectCfg} (hcfg : sectCfg s n = some c) (harmed : isArmed s = true)
    (hauto : c.auto = 1) (hfirst : (getSect s n).fired = false) (hdue : s.start.armedAt + c.delayS * 1000000 ≤ s.now) :
    exec (.autoStartArmed n) s = .next (settle (fireRule (ruleFired s n) n)) := by
  simp [exec_autoStartArmed, execAutoStartArmed, fin, ruleFired, hcfg, harmed, hauto, hfirst, Nat.not_lt.mpr hdue]

theorem fireRule_fired {s : State} {n : Nat} (h : (getSect s n).fired = true) : (getSect (fireRule s n) n).fired = true := by
  unfold fireRule
  split
  · rw [sectStarts_sect]
    exact h
  · exact h

theorem fireRule_starts {s : State} {n : Nat} (harmed : isArmed s = true) (hidle : (getSect s n).st = 1) (hfog : s.fan.fog = false)
    (hbars : tripBars s n = false) : (getSect (fireRule s n) n).st = 2 := by
  have hmay : (isArmed s && (getSect s n).st == 1 && !s.fan.fog && !tripBars s n) = true := by simp [harmed, hidle, hfog, hbars]
  rw [fireRule, if_pos hmay, sectStarts_sect]

theorem exec_keeperValueWrite (s : State) : exec .keeperValueWrite s = execKeeperValueWrite s := rfl

theorem keeperValueWrite_next {s : State} (hwrites : keeperWrites s = true) (hdue : s.start.lastKeeperWrite + 1000000 ≤ s.now) :
    exec .keeperValueWrite s = .next (settle { plantPuts s true with
      start := { (plantPuts s true).start with lastKeeperWrite := (plantPuts s true).now } }) := by
  simp [exec_keeperValueWrite, execKeeperValueWrite, fin, hwrites, hdue]

/-- Settles O6: each step of the timeline answers the state named in its own lemma, and neither a raised fault nor a store of the
repair map moves the start but for its sections. -/
theorem startTimelineToArmed : Obligations.StartTimelineToArmed := by
  unfold Obligations.StartTimelineToArmed
  refine ⟨fun s bad hheld hfatal hstate hstep hdone =>
      ⟨_, keeperStart_next bad hheld hfatal hstate hstep hdone, keeperStarted_step s bad⟩,
    fun s ok e4 a4 op d hstart htest hruns hstep hcand hadmitted => ?read, fun s ms p hstart hstep hcand => ?admission,
    fun s ms p hstart hstep hadmitted hcand hrerun hreran => ?rerun,
    fun s hstart hstep hadmitted hruns => islandConfiguration_settles hstart hstep hadmitted hruns,
    fun s hstart hstep hwaits hend => ⟨_, firstValuesTimeout_next hstart hstep hwaits hend, rfl⟩,
    fun s hstart hstep hwaits hend => ⟨_, identityCheckTimeout_next hstart hstep hwaits hend, rfl⟩,
    fun s hstart hstep hvalues hnodes => ?armed, fun s n c hcfg harmed hauto hfirst hdue => ?rule,
    fun s hwrites hdue => ⟨_, keeperValueWrite_next hwrites hdue, by simp only [plantPuts_only ..]⟩⟩
  case read =>
    refine ⟨_, plateRead_next hstart htest hruns hstep hcand hadmitted ok e4 a4 op d, ?_⟩
    simp only [settle_only ..]
    exact readPlate_plt s _
  case admission =>
    refine ⟨_, admission_next hstart hstep hcand ms, ?_, ?_⟩
    · simp only [settle_only .., admitStep_admitted]
      rw [admitNow_of_prf (s := s) (t := admitting s) rfl]
    · simp only [settle_only .., admitStep_adm]
  case rerun =>
    refine ⟨_, admissionRerun_next hstart hstep hadmitted hcand hrerun hreran ms, ?_, ?_⟩
    · simp only [settle_only .., admitStep_admitted]
      rw [admitNow_of_prf (readmitting_prf s p)]
    · simp only [settle_only .., admitStep_adm, readmitting_reran]
  case armed =>
    obtain ⟨u, hexec, hmarks⟩ := armed_settles hstart hstep hvalues hnodes
    exact ⟨u, hexec, by simpa only [armingMarks, Prod.mk.injEq] using hmarks⟩
  case rule =>
    have hsect : getSect (ruleFired s n) n = { getSect s n with fired := true } := getSect_setSect_same ..
    refine ⟨_, autoStartArmed_next hcfg harmed hauto hfirst hdue, fireRule_fired (by rw [hsect]), fun hidle hfog hbars => ?_⟩
    exact fireRule_starts harmed (by rw [hsect]; exact hidle) hfog hbars

end Sys2Proof.Machine
end

section
/-! PROOFS. O5: the start from its images to the end of the proof (R64, R96, R432, R433, R469, Table 2-10). -/

namespace Sys2Proof.Machine

open Sys2Proof

/-! Service states. -/

theorem bootService_state (s : State) : (bootService s).start.state = .bootService := rfl

theorem moorEnter_start (s : State) (why : Nat) :
    (moorEnter s why).start = { s.start with state := .moored, moorWhy := why } := rfl

/-! Step 2. -/

/-- What the pairing notes of itself: the step reached, the results of the four images, and the preferred slot. -/
def imgMarks (s : State) : Nat × List ImgRes × Bool := (s.start.step, s.start.imgs, s.start.preferred)

theorem KeepsStart.imgMarks_eq {t s : State} (h : KeepsStart t s) : imgMarks t = imgMarks s := by
  unfold imgMarks
  rw [h.start]

theorem runPair_imgMarks (s : State) (q : Nat) : imgMarks (runPair s q) = imgMarks s := rfl

theorem bootService_imgMarks (s : State) : imgMarks (bootService s) = imgMarks s := rfl

/-- The results of the images as step 2 finds them in the array. -/
def imgsFound (n : Nvm) : List ImgRes := (rangeFrom 0 4).map (imgResult n)

theorem pairImages_imgMarks (s : State) :
    imgMarks (pairImages s) = (s.start.step, imgsFound s.nvm, preferredB s.nvm) := by
  simp only [pairImages]
  split
  · rw [runPair_imgMarks]
    rfl
  · split
    · rw [(raiseU_keepsStart ..).imgMarks_eq]
      rfl
    · rw [bootService_imgMarks, (raiseU_keepsStart ..).imgMarks_eq]
      rfl

/-- With neither pair eligible the choice ends in boot-ROM service, whichever slot is preferred (R432). -/
theorem pairImages_state_of_noPair {s : State} (hA : pairWhy (imgsFound s.nvm) 0 ≠ 0) (hB : pairWhy (imgsFound s.nvm) 1 ≠ 0) :
    (pairImages s).start.state = .bootService := by
  have hslot (b : Bool) : pairWhy (imgsFound s.nvm) (b2n b) ≠ 0 ∧ pairWhy (imgsFound s.nvm) (1 - b2n b) ≠ 0 := by
    cases b
    · exact ⟨hA, hB⟩
    · exact ⟨hB, hA⟩
  obtain ⟨hpreferred, hother⟩ := hslot (preferredB s.nvm)
  simp only [imgsFound] at hpreferred hother
  simp only [pairImages, beq_iff_eq, if_neg hpreferred, if_neg hother, bootService_state]

/-- The state in which the pairing looks at the images: the recorder's areas are located (R432, R436). -/
def pairingBegun (s : State) : State :=
  locate { s with
    start := { s.start with step := 2 }
    fan := { s.fan with tripT := if s.fan.trip then some (s.fan.tripT.getD s.cal.opSec) else s.fan.tripT } }

theorem exec_imagePairing (s : State) : exec .imagePairing s = execImagePairing s := rfl

theorem imagePairing_next {s : State} (hstart : starting s = true) (hstep : s.start.step = 1) :
    exec .imagePairing s = .next (pairImages (pairingBegun s)) := by
  simp [exec_imagePairing, execImagePairing, pairingBegun, hstart, hstep]

theorem pairingBegun_step (s : State) : (pairingBegun s).start.step = 2 := by simp only [pairingBegun, locate_only ..]

theorem pairingBegun_nvm (s : State) : (pairingBegun s).nvm = s.nvm := by simp only [pairingBegun, locate_only ..]

/-! Step 3. -/

/-- No reading of the gate is taken: the start has ended, none is due, or the gate has passed. -/
def gateIgnores (s : State) : Bool :=
  !(!s.rst.held && !s.flt.fatal && (s.start.state == .starting || s.start.state == .bootService)) ||
    !(s.start.step == 2 || (s.start.step == 3 && decide (s.now ≥ s.pwr.gateFrom + 10000 * s.pwr.gateReads))) || s.pwr.gate

/-- Step 3 with a reading counted, the first of them from its own instant. -/
def gateRead (s : State) (code : Nat) : State :=
  let t := senseHoldup { s with start := { s.start with step := 3 } } code
  { t with pwr := { t.pwr with
    gateFrom := if s.start.step == 2 then t.now else t.pwr.gateFrom
    gateReads := (if s.start.step == 2 then 0 else t.pwr.gateReads) + 1 } }

/-- An open HU_CLASS ball is noted and ends the start in boot-ROM service (Table 2-10). -/
def gateBarred (s : State) : State :=
  let t := { s with start := { s.start with huOpen := true } }
  if t.start.state == .starting then bootService t else t

theorem exec_holdupGateReading (s : State) (code : Nat) : exec (.holdupGateReading code) s =
    if gateIgnores s then .next s
    else if huOpen (gateRead s code) then .next (gateBarred (gateRead s code))
    else if (gateRead s code).pwr.energyUj ≥ eGate && !(gateRead s code).pwr.pfwPin then .next (gatePass (gateRead s code))
    else .next (gateRead s code) := rfl

theorem gateRead_huOpen (s : State) (code : Nat) : huOpen (gateRead s code) = huOpen s := rfl

theorem gateRead_start (s : State) (code : Nat) : (gateRead s code).start = { s.start with step := 3 } := rfl

theorem gateRead_step (s : State) (code : Nat) : (gateRead s code).start.step = 3 := by rw [gateRead_start]

/-- A reading is judged by the energy of its own code (R90), and leaves PFW_N and the gate as they were. -/
theorem gateRead_pwr (s : State) (code : Nat) : (gateRead s code).pwr.energyUj = energyOf s (min 4095 code) ∧
    (gateRead s code).pwr.pfwPin = s.pwr.pfwPin ∧ (gateRead s code).pwr.gate = s.pwr.gate := by
  have hsat : satTo 4095 (satTo 4095 code) = min 4095 code := by simp [satTo]
  rw [← hsat]
  exact ⟨rfl, rfl, rfl⟩

theorem gateRead_first {s : State} (hstep : s.start.step = 2) (code : Nat) : (gateRead s code).pwr.gateReads = 1 := by
  simp [gateRead, hstep]

theorem gateBarred_start {s : State} (hstate : s.start.state = .starting) :
    (gateBarred s).start.state = .bootService ∧ (gateBarred s).start.step = s.start.step := by
  simp only [gateBarred, hstate, BEq.rfl, if_true]
  exact ⟨rfl, rfl⟩

theorem holdupGateReading_next {s : State} (hheld : s.rst.held = false) (hfatal : s.flt.fatal = false)
    (hstate : s.start.state = .starting) (hstep : s.start.step = 2) (hgate : s.pwr.gate = false) (code : Nat) :
    exec (.holdupGateReading code) s = .next
      (if huOpen s = true then gateBarred (gateRead s code)
      else if eGate ≤ energyOf s (min 4095 code) ∧ s.pwr.pfwPin = false then gatePass (gateRead s code)
      else gateRead s code) := by
  have hmay : gateIgnores s = false := by simp [gateIgnores, hheld, hfatal, hstate, hstep, hgate]
  obtain ⟨henergy, hpfw, -⟩ := gateRead_pwr s code
  simp only [exec_holdupGateReading, hmay, gateRead_huOpen, henergy, hpfw, apply_ite Host.Outcome.next, Bool.false_eq_true,
    if_false, ge_iff_le, Bool.and_eq_true, decide_eq_true_eq, Bool.not_eq_true']

theorem gatePass_step (s : State) : (gatePass s).start.step = 4 := rfl

/-! Steps 4 and 5. -/

/-- The chip as phases 1 and 2 of the proof leave it, over the repair map just loaded (R469, R478). -/
def fabricProved (s : State) (lanes keepers : List Nat) : State :=
  let m := mapLoad { s with start := { s.start with step := 5 }, nvm := journalFrom s.nvm }
  proofFabric { m with prf := { m.prf with nvmSet := m.pwr.powerCycles % 9 } } lanes keepers

/-- The proof goes on to its end; under TESTMODE the moored state follows (R64). -/
def proofCompleted (s : State) (ms : Nat) (tiles : List Nat) (rows sram weak : List (Nat × Nat)) (slices : List SliceRef) :
    State :=
  let t := proofEnd (proofUnits s tiles rows sram weak slices) ms
  if testmode t then moorEnter (addRecord t 0x0002 1 0#40 0#40) 1 else t

theorem exec_proof (s : State) (ms : Nat) (lanes keepers tiles : List Nat) (rows sram weak : List (Nat × Nat))
    (slices : List SliceRef) : exec (.proof ms lanes keepers tiles rows sram weak slices) s =
      execProof ms lanes keepers tiles rows sram weak slices s := rfl

theorem proof_next {s : State} (hstart : starting s = true) (hstep : s.start.step = 4) (hstored : s.pwr.pccStored = true)
    (ms : Nat) (lanes keepers tiles : List Nat) (rows sram weak : List (Nat × Nat)) (slices : List SliceRef) :
    exec (.proof ms lanes keepers tiles rows sram weak slices) s = .next
      (if (fabricProved s lanes keepers).rst.held = true ∨ (fabricProved s lanes keepers).flt.fatal = true
        then fabricProved s lanes keepers
        else proofCompleted (fabricProved s lanes keepers) ms tiles rows sram weak slices) := by
  have hmay : (!starting s || s.start.step != 4 || !s.pwr.pccStored) = false := by simp [hstart, hstep, hstored]
  have hbranches : exec (.proof ms lanes keepers tiles rows sram weak slices) s =
      if ((fabricProved s lanes keepers).rst.held || (fabricProved s lanes keepers).flt.fatal) = true
      then .next (fabricProved s lanes keepers)
      else .next (proofCompleted (fabricProved s lanes keepers) ms tiles rows sram weak slices) := by
    rw [exec_proof, execProof, hmay]
    rfl
  rw [hbranches, apply_ite Host.Outcome.next]
  simp only [Bool.or_eq_true]

theorem proofEnd_prf (s : State) (ms : Nat) : (proofEnd s ms).prf.done = true ∧ (proofEnd s ms).prf.durMs = min 1023 ms := by
  simp only [proofEnd, addRecord_only .., satTo, and_self]

theorem proofCompleted_prf (s : State) (ms : Nat) (tiles : List Nat) (rows sram weak : List (Nat × Nat)) (slices : List SliceRef) :
    (proofCompleted s ms tiles rows sram weak slices).prf.done = true ∧
    (proofCompleted s ms tiles rows sram weak slices).prf.durMs = min 1023 ms := by
  simp only [proofCompleted, iteU .., moorEnter_only .., addRecord_only .., ite_self]
  exact proofEnd_prf ..

theorem proofCompleted_moored {s : State} (htest : testmode s = true) (ms : Nat) (tiles : List Nat)
    (rows sram weak : List (Nat × Nat)) (slices : List SliceRef) :
    (proofCompleted s ms tiles rows sram weak slices).start.state = .moored ∧
    (proofCompleted s ms tiles rows sram weak slices).start.moorWhy = 1 := by
  have hkept : testmode (proofEnd (proofUnits s tiles rows sram weak slices) ms) = true := by
    rw [← htest]
    simp only [testmode, proofEnd_only .., proofUnits_only ..]
  simp only [proofCompleted, hkept, if_true, moorEnter_start, and_self]

/-- Settles O5: the pairing, the gate's reading and the proof each answer the state that their own lemmas name; neither a raised fault
nor a record moves what the pairing noted, and the later phases of the proof leave the straps that TESTMODE is read from. -/
theorem startTimelineToProof : Obligations.StartTimelineToProof := by
  unfold Obligations.StartTimelineToProof
  refine ⟨fun s hstart hstep => ?pairing, fun s code hheld hfatal hstate hstep hgate => ?gate,
    fun s ms lanes keepers tiles rows sram weak slices hstart hstep hstored => ?proof⟩
  case pairing =>
    have hmarks := pairImages_imgMarks (pairingBegun s)
    simp only [imgMarks, pairingBegun_step, pairingBegun_nvm, Prod.mk.injEq] at hmarks
    obtain ⟨hreached, himgs, hpreferred⟩ := hmarks
    refine ⟨_, imagePairing_next hstart hstep, hreached, himgs, hpreferred, ?_⟩
    rw [himgs, ← pairingBegun_nvm s]
    exact pairImages_state_of_noPair
  case gate =>
    refine ⟨_, holdupGateReading_next hheld hfatal hstate hstep hgate code, fun hopen => ?_, fun hclosed henergy hpfw => ?_,
      fun hclosed hwaits => ?_⟩
    · rw [if_pos hopen]
      obtain ⟨hservice, hstep3⟩ := gateBarred_start (s := gateRead s code) (by rw [gateRead_start, hstate])
      exact ⟨hservice, hstep3.trans (gateRead_step s code)⟩
    · rw [if_neg (by simp [hclosed]), if_pos ⟨henergy, hpfw⟩, gatePass_step]
    · have hshort : ¬ (eGate ≤ energyOf s (min 4095 code) ∧ s.pwr.pfwPin = false) := by
        rintro ⟨henergy, hpfw⟩
        rcases hwaits with hless | hlow
        · exact absurd henergy (Nat.not_le.mpr hless)
        · simp [hpfw] at hlow
      obtain ⟨-, -, hkept⟩ := gateRead_pwr s code
      rw [if_neg (by simp [hclosed]), if_neg hshort]
      exact ⟨gateRead_step s code, gateRead_first hstep code, hkept.trans hgate⟩
  case proof =>
    refine ⟨fabricProved s lanes keepers, rfl, _, proof_next hstart hstep hstored .., fun hended => if_pos hended,
      fun hheld hfatal => ?_⟩
    rw [if_neg (by simp [hheld, hfatal])]
    obtain ⟨hdone, hdur⟩ := proofCompleted_prf (fabricProved s lanes keepers) ms tiles rows sram weak slices
    exact ⟨hdone, hdur, fun htest => proofCompleted_moored htest ..⟩

end Sys2Proof.Machine
end


section
/-! PROOFS. O41: plate writes, from PLATE_BEGIN to PLATE_END, and the operations of the SPI flash (R517 to R519, R526,
Table 13-6). -/

namespace Sys2Proof.Machine

open Sys2Proof

/-! A request of the service port that a session of a fitting role makes. -/

theorem asked_only (s : State) (cmd : Nat) : Only.svc (asked s cmd) s := by
  simp only [asked, Only.svc, iteU .., dropStage_only .., heard_only .., ite_self, and_self]

theorem asked_plt (s : State) (cmd : Nat) : (asked s cmd).plt = s.plt := by simp only [asked_only ..]

theorem asked_reply (s : State) (cmd : Nat) : (asked s cmd).svc.reply = s.svc.reply := by
  unfold asked
  split <;> rfl

theorem sessRole_asked (s : State) (cmd : Nat) : sessRole (asked s cmd) = sessRole s := by
  have hheard : sessRole (heard s) = sessRole s := by simp only [sessRole, heard, Option.map_map, Function.comp_def]
  unfold asked
  split <;> exact hheard

theorem roleCheck_of_hasRole {s : State} {roles : List Nat} (h : HasRole s roles) : roleCheck s roles = stOk := by
  obtain ⟨r, hr, hmem⟩ := h
  simp [roleCheck, hr, hmem]

theorem gateCmd_asked {s : State} {seq cmd : Nat} {roles : List Nat} (h : Taken s seq cmd) (hrole : HasRole s roles) :
    gateCmd (asked s cmd) cmd (some roles) = 0 := by
  obtain ⟨-, -, hoffered⟩ := h
  have hasked : HasRole (asked s cmd) roles := by rwa [HasRole, sessRole_asked]
  have hstart : offered (asked s cmd) cmd = true := by simpa only [offered, asked_only ..]
  simp [gateCmd, roleCheck_of_hasRole hasked, hstart, stOk]

section
variable {s t : State} {seq cmd : Nat} {roles : List Nat} {body : State → Answer} (h : Taken s seq cmd) (hrole : HasRole s roles)
include h hrole

/-- A request of a fitting role that is answered at once. -/
theorem framed_answers {bytes : List Byte} (hbody : body (asked s cmd) = (some bytes, t)) :
    framed s seq cmd (some roles) body = .next (settle (svcReply t seq cmd bytes)) := by
  rw [framed_taken h (gateCmd_asked h hrole), hbody]

/-- A request of a fitting role whose reply waits. -/
theorem framed_waits (hbody : body (asked s cmd) = (none, t)) : framed s seq cmd (some roles) body = .next (settle t) := by
  rw [framed_taken h (gateCmd_asked h hrole), hbody]

end

/-! The bytes of the flash. -/

/-- A table filtered by its keys: the entries left out read as unlisted. -/
theorem tget_filter_keys_eq_ite {α : Type} (d : α) (t : Tab α) (p : Nat → Bool) (k : Nat) :
    tget d (t.filter fun e => p e.1) k = if p k then tget d t k else d := by
  split
  · next hk => exact tget_filter_keys d t hk
  · next hk =>
    induction t with
    | nil => rfl
    | cons e t ih =>
      obtain ⟨i, v⟩ := e
      by_cases hi : p i = true
      · have hne : k ≠ i := fun he => hk (he ▸ hi)
        simp [tget, hi, hne, ih]
      · simp [hi, ih]

/-- An erase leaves its 4 KiB sector blank, and every other byte as it was (R519). -/
theorem tget_flashErase (f : Tab Byte) {addr : Nat} (haligned : addr % 4096 = 0) (a : Nat) :
    tget 0xFF#8 (flashErase f addr) a = if a / 4096 = addr / 4096 then 0xFF#8 else tget 0xFF#8 f a := by
  have hkept : (decide (a < addr) || decide (addr + 4096 ≤ a)) = !decide (a / 4096 = addr / 4096) := by
    rw [← Bool.decide_or, ← decide_not, decide_eq_decide]
    omega
  have hread := tget_filter_keys_eq_ite 0xFF#8 f (fun k => decide (k < addr) || decide (addr + 4096 ≤ k)) a
  rw [hkept] at hread
  simpa [flashErase] using hread

/-- A page program ANDs its bytes into the flash, and leaves every other byte as it was (R519). -/
theorem tget_flashProgram (f : Tab Byte) (addr : Nat) (bs : List Byte) (a : Nat) :
    tget 0xFF#8 (flashProgram f addr bs) a = if addr ≤ a ∧ a < addr + bs.length
      then tget 0xFF#8 f a &&& bs.getD (a - addr) 0#8 else tget 0xFF#8 f a := by
  induction bs generalizing f addr with
  | nil => rw [if_neg (by simp), flashProgram]
  | cons b bs ih =>
    rw [flashProgram, ih, List.length_cons]
    rcases Nat.lt_trichotomy a addr with hbelow | heq | habove
    · rw [if_neg (by omega), if_neg (by omega), tget_tset_other _ _ _ (by omega)]
    · subst heq
      rw [if_neg (by omega), if_pos (by omega), tget_tset_same, Nat.sub_self, List.getD_cons_zero]
    · have hin : (addr + 1 ≤ a ∧ a < addr + 1 + bs.length) ↔ (addr ≤ a ∧ a < addr + (bs.length + 1)) := by omega
      rw [tget_tset_other _ _ _ (by omega), show a - addr = a - (addr + 1) + 1 by omega, List.getD_cons_succ]
      simp only [hin]

/-! Operations of the flash. -/

/-- The program of a page, begun at an instant with the access of the straps. -/
def pageOp (s : State) (p : Nat × List Byte) : FlashOp :=
  ⟨s.now, busAddr (pltAccess s.straps) p.1, some p.2, (pltAccess s.straps).programCmd⟩

theorem nextPage_of_nil {s : State} (h : s.plt.write.pages = []) : nextPage s = setWrite s { s.plt.write with op := none } := by
  simp only [nextPage, h]

theorem nextPage_of_cons {s : State} {p : Nat × List Byte} {ps : List (Nat × List Byte)} (h : s.plt.write.pages = p :: ps) :
    nextPage s = setWrite s { s.plt.write with pages := ps, op := some (pageOp s p) } := by
  simp only [nextPage, h, pageOp]

/-- The next page changes neither the flash nor what the write has taken so far. -/
theorem nextPage_plt (s : State) : (nextPage s).plt.flash = s.plt.flash ∧ (nextPage s).plt.write.state = s.plt.write.state ∧
    (nextPage s).plt.write.bytes = s.plt.write.bytes ∧ (nextPage s).plt.write.head = s.plt.write.head ∧
    (nextPage s).plt.write.frame = s.plt.write.frame := by
  rcases hpages : s.plt.write.pages with _ | ⟨p, ps⟩
  · simp only [nextPage_of_nil hpages, setWrite_write, setWrite_flash, and_self]
  · simp only [nextPage_of_cons hpages, setWrite_write, setWrite_flash, and_self]

theorem nextPage_op_isSome {s : State} (h : s.plt.write.pages ≠ []) : (nextPage s).plt.write.op.isSome = true := by
  obtain ⟨p, ps, hpages⟩ := List.exists_cons_of_ne_nil h
  simp only [nextPage_of_cons hpages, setWrite_write, Option.isSome_some]

theorem pagesOf_ne_nil {k : Nat} {bs : List Byte} (hk : 0 < k) (hbs : bs ≠ []) (a : Nat) : pagesOf k a bs ≠ [] := by
  obtain ⟨k, rfl⟩ := Nat.exists_eq_succ_of_ne_zero (Nat.ne_of_gt hk)
  obtain ⟨b, bs, rfl⟩ := List.exists_cons_of_ne_nil hbs
  exact List.cons_ne_nil _ _

/-! The three requests of the tool (Table 13-6). -/

theorem exec_plateBegin (s : State) (seq slot n : Nat) :
    exec (.plateBegin seq slot n) s = framed s seq 0x40 (some engOnly) (plateBegin slot n) := rfl

theorem exec_plateData (s : State) (seq off : Nat) (bs : List Byte) :
    exec (.plateData seq off bs) s = framed s seq 0x41 (some engOnly) (plateData seq off bs) := rfl

theorem exec_plateEnd (s : State) (seq : Nat) : exec (.plateEnd seq) s = framed s seq 0x42 (some engOnly) (plateEnd seq) := rfl

/-- A write of a slot as PLATE_BEGIN makes it, before the erase of its first sector. -/
def writeBegun (slot n : Nat) : PltWrite := { state := 1, slot := slot, length := n, sectors := (5 * n + 4095) / 4096 }

theorem plateBegin_answers {s : State} {slot n : Nat} (hidle : writing s.plt.write = false) (hop : s.plt.write.op = none)
    (hread : readingPlates s = false) (hpfw : s.pwr.pfw = false) (hmin : 71 ≤ n) (hmax : n ≤ 838860) (hslot : slot ≤ 1)
    (hflash : flashOk s.plt.facts = true) (herase : s.plt.facts.erase4k = true) :
    plateBegin slot n s = (some [0#8], sectorErase (setWrite s (writeBegun slot n)) 0) := by
  have hrange : (decide (n < 71) || decide (838860 < n) || decide (slot > 1) || !flashOk s.plt.facts || !s.plt.facts.erase4k) =
      false := by
    simp [hflash, herase, hmin, hmax, hslot]
  simp only [plateBegin, hidle, hop, hread, hpfw, hrange, Option.isSome_none, Bool.or_self, Bool.false_eq_true, if_false]
  rfl

/-- A write that has taken the bytes of a PLATE_DATA: the header's are kept, the others wait in pages. -/
def dataTaken (w : PltWrite) (off : Nat) (bs : List Byte) : PltWrite :=
  { w with
    bytes := off + bs.length
    head := w.head ++ bs.take (320 - off)
    pages := pagesOf bs.length (slotBase w.slot + max off 320) (bs.drop (320 - off)) }

/-- The same where bytes are left to program: the reply waits for the last page. -/
def dataWaiting (w : PltWrite) (seq off : Nat) (bs : List Byte) : PltWrite := { dataTaken w off bs with frame := some (seq, 0x41) }

theorem dataWaiting_pages_ne_nil {off : Nat} {bs : List Byte} (hbs : bs ≠ []) (h : 320 < off + bs.length) (w : PltWrite)
    (seq : Nat) : (dataWaiting w seq off bs).pages ≠ [] := by
  have hlater : bs.drop (320 - off) ≠ [] := by
    have hpos := List.length_pos_iff.mpr hbs
    rw [ne_eq, List.drop_eq_nil_iff]
    omega
  exact pagesOf_ne_nil (List.length_pos_iff.mpr hbs) hlater _

theorem plateData_takes {s : State} {off : Nat} {bs : List Byte} (hstate : s.plt.write.state = 2)
    (hframe : s.plt.write.frame = none) (hoff : off = s.plt.write.bytes) (hbs : bs ≠ []) (hlen : bs.length ≤ 1000)
    (hfit : off + bs.length ≤ 5 * s.plt.write.length) (seq : Nat) : plateData seq off bs s =
      if off + bs.length ≤ 320 then (some [0#8], setWrite s (dataTaken s.plt.write off bs))
      else (none, nextPage (setWrite s (dataWaiting s.plt.write seq off bs))) := by
  have hkept : (bs.drop (320 - off)).isEmpty = true ↔ off + bs.length ≤ 320 := by
    have hpos := List.length_pos_iff.mpr hbs
    rw [List.isEmpty_iff, List.drop_eq_nil_iff]
    omega
  have hrange : (s.plt.write.state != 2 || off != s.plt.write.bytes || decide (off + bs.length > 5 * s.plt.write.length) ||
      bs.isEmpty || decide (bs.length > 1000)) = false := by
    simp [hstate, hoff ▸ hfit, hoff, hbs, hlen]
  have hfailed : (s.plt.write.state == 6 && s.plt.write.fail == 2) = false := by simp [hstate]
  have hbusy : (s.plt.write.state == 1 || s.plt.write.frame.isSome) = false := by simp [hstate, hframe]
  simp only [plateData, hfailed, hbusy, hrange, hkept, Bool.false_eq_true, if_false]
  rfl

/-- A write at its end: the pages of the header wait, its first one last (R523). -/
def headerTaken (w : PltWrite) (seq : Nat) : PltWrite :=
  { w with state := 3, frame := some (seq, 0x42), pages := (pagesOf 320 (slotBase w.slot) w.head).reverse }

theorem plateEnd_takes {s : State} (hstate : s.plt.write.state = 2) (hframe : s.plt.write.frame = none)
    (hbytes : s.plt.write.bytes = 5 * s.plt.write.length) (seq : Nat) :
    plateEnd seq s = (none, nextPage (setWrite s (headerTaken s.plt.write seq))) := by
  simp [plateEnd, hstate, hframe, hbytes, headerTaken]

/-! The ends of operations. -/

theorem exec_flashSectorEraseEnd (s : State) : exec .flashSectorEraseEnd s = execFlashSectorEraseEnd s := rfl

theorem exec_flashPageProgramEnd (s : State) : exec .flashPageProgramEnd s = execFlashPageProgramEnd s := rfl

theorem exec_flashTimeout (s : State) : exec .flashTimeout s = execFlashTimeout s := rfl

/-- The flash holds other bytes. -/
def setFlash (s : State) (f : Tab Byte) : State := { s with plt := { s.plt with flash := f } }

theorem setFlash_flash (s : State) (f : Tab Byte) : (setFlash s f).plt.flash = f := rfl

theorem setFlash_write (s : State) (f : Tab Byte) : (setFlash s f).plt.write = s.plt.write := rfl

/-- A sector of a write in its erase is blank: the next one follows, or the write receives (R519). -/
def sectorErased (s : State) : State :=
  if s.plt.write.sector + 1 < s.plt.write.sectors then sectorErase s (s.plt.write.sector + 1)
  else setWrite s { s.plt.write with state := 2, op := none }

theorem sectorErased_of_more {s : State} (h : s.plt.write.sector + 1 < s.plt.write.sectors) :
    sectorErased s = sectorErase s (s.plt.write.sector + 1) := if_pos h

theorem sectorErased_of_last {s : State} (h : s.plt.write.sectors ≤ s.plt.write.sector + 1) :
    sectorErased s = setWrite s { s.plt.write with state := 2, op := none } := if_neg (Nat.not_lt.mpr h)

theorem sectorErased_flash (s : State) : (sectorErased s).plt.flash = s.plt.flash := by
  unfold sectorErased
  split <;> rfl

section
variable {s : State} {o : FlashOp} (hop : s.plt.write.op = some o) (hheld : s.rst.held = false)
include hop hheld

theorem flashSectorEraseEnd_next (herase : o.data = none) (hruns : islRuns s 9 = true) (hstate : s.plt.write.state = 1) :
    exec .flashSectorEraseEnd s = .next (settle (sectorErased (setFlash s (flashErase s.plt.flash o.addr)))) := by
  obtain ⟨since, addr, data, code⟩ := o
  subst herase
  have hmay : (s.rst.held || !islRuns s 9) = false := by simp [hheld, hruns]
  simp only [exec_flashSectorEraseEnd, execFlashSectorEraseEnd, hop, hmay, hstate, beq_self_eq_true, Bool.false_eq_true,
    if_false, if_true]
  rfl

theorem flashPageProgramEnd_next {bs : List Byte} (hpage : o.data = some bs) (hruns : islRuns s 9 = true) :
    exec .flashPageProgramEnd s = .next (settle (pageEnd (setFlash s (flashProgram s.plt.flash o.addr bs)))) := by
  obtain ⟨since, addr, data, code⟩ := o
  subst hpage
  simp [exec_flashPageProgramEnd, execFlashPageProgramEnd, setFlash, fin, hop, hheld, hruns]

end

theorem plateVerify_flash (s : State) : (plateVerify s).plt.flash = s.plt.flash := by
  simp only [plateVerify, svcReply_plt, addRecord_only .., setWrite_flash, wordsFound_only ..]

theorem pltAnswer_plt (s : State) (st : Nat) :
    (pltAnswer s st).plt = { s.plt with write := { s.plt.write with frame := none } } := by
  unfold pltAnswer
  split
  · next hframe => rw [← hframe]
  · rfl

/-- What follows a page leaves the flash as the program made it. -/
theorem pageEnd_flash (s : State) : (pageEnd s).plt.flash = s.plt.flash := by
  simp only [pageEnd]
  split
  · exact (nextPage_plt s).1
  · split
    · exact plateVerify_flash _
    · rw [pltAnswer_plt, setWrite_flash]

theorem pageEnd_of_cons {s : State} {p : Nat × List Byte} {ps : List (Nat × List Byte)} (h : s.plt.write.pages = p :: ps) :
    pageEnd s = setWrite s { s.plt.write with pages := ps, op := some (pageOp s p) } := by
  rw [← nextPage_of_cons h]
  simp [pageEnd, h]

/-! Time-outs (R526). -/

theorem flashFree_write (s : State) (a n : Nat) : (flashFree s a n).plt.write = s.plt.write := by
  induction n generalizing s a with
  | zero => rfl
  | succ n ih => exact ih ..

theorem pltAbandon_of_writing {s : State} (h : 1 ≤ s.plt.write.state ∧ s.plt.write.state ≤ 4) (fail : Nat) :
    (pltAbandon s fail).plt.write =
      { s.plt.write with state := 6, fail := fail, frame := none, pages := [], sectors := 0 } := by
  simp only [pltAbandon, if_pos h]

/-- The state after a time-out: the bytes of the operation take free values and the write is abandoned. -/
def flashAbandoned (s : State) (o : FlashOp) : State :=
  let t := flashFree s o.addr (match o.data with | none => 4096 | some bs => bs.length)
  pltAbandon (pltAnswer (setWrite t { t.plt.write with op := none }) stBusy) 1

theorem flashAbandoned_write {s : State} (h : 1 ≤ s.plt.write.state ∧ s.plt.write.state ≤ 4) (o : FlashOp) :
    (flashAbandoned s o).plt.write =
      { s.plt.write with state := 6, fail := 1, frame := none, pages := [], sectors := 0, op := none } := by
  rw [flashAbandoned, pltAbandon_of_writing (by simpa only [pltAnswer_plt, setWrite_write, flashFree_write] using h)]
  simp only [pltAnswer_plt, setWrite_write, flashFree_write]

theorem flashTimeout_next {s : State} {o : FlashOp} (hop : s.plt.write.op = some o) (hheld : s.rst.held = false)
    (herase : o.data = none → o.since + 1000000 < s.now) (hpage : o.data.isSome = true → o.since + 10000 < s.now) :
    exec .flashTimeout s = .next (settle (flashAbandoned s o)) := by
  rw [exec_flashTimeout, execFlashTimeout, hop]
  rcases hdata : o.data with _ | bs
  · have hpast : (s.rst.held || decide (s.now ≤ o.since + 1000000)) = false := by
      rw [hheld, decide_eq_false (Nat.not_le.mpr (herase hdata)), Bool.or_self]
    simp only [hdata, hpast, flashAbandoned, fin, Bool.false_eq_true, if_false]
  · have hpast : (s.rst.held || decide (s.now ≤ o.since + 10000)) = false := by
      rw [hheld, decide_eq_false (Nat.not_le.mpr (hpage (by rw [hdata]; rfl))), Bool.or_self]
    simp only [hdata, hpast, flashAbandoned, fin, Bool.false_eq_true, if_false]

/-- Settles O41: each request of the tool leaves the write that its own lemma names, and each operation of the flash ends with the
bytes that `tget_flashErase` and `tget_flashProgram` give. -/
theorem platesAreWritten : Obligations.PlatesAreWritten := by
  unfold Obligations.PlatesAreWritten
  refine ⟨?begins, ?erases, ?takes, ?ends, ?programs, ?goesOn, ?expires⟩
  case begins =>
    intro s seq slot n htaken hrole hidle hop hread hpfw hmin hmax hslot hflash herase
    have hbody : plateBegin slot n (asked s 0x40) =
        (some [0#8], sectorErase (setWrite (asked s 0x40) (writeBegun slot n)) 0) := by
      apply plateBegin_answers <;> simpa only [readingPlates, asked_only ..]
    refine ⟨_, (exec_plateBegin ..).trans (framed_answers htaken hrole hbody), ?_⟩
    simp [sectorErase, setWrite, writeBegun, asked_only ..]
  case erases =>
    intro s o hop herase hheld hruns hstate haligned
    refine ⟨_, flashSectorEraseEnd_next hop hheld herase hruns hstate, fun hmore => ?_, fun hlast => ?_, fun a => ?_⟩
    · rw [sectorErased_of_more (by exact hmore)]
      exact ⟨hstate, rfl⟩
    · rw [sectorErased_of_last (by exact hlast)]
      exact ⟨rfl, rfl⟩
    · rw [sectorErased_flash, setFlash_flash, tget_flashErase _ haligned]
  case takes =>
    intro s seq off bs htaken hrole hstate hframe hoff hbs hlen hfit
    have hbody := plateData_takes (s := asked s 0x41) (off := off) (by rwa [asked_plt]) (by rwa [asked_plt])
      (by rwa [asked_plt]) hbs hlen (by rwa [asked_plt]) seq
    rw [asked_plt] at hbody
    by_cases hkept : off + bs.length ≤ 320
    · rw [if_pos hkept] at hbody
      refine ⟨_, (exec_plateData ..).trans (framed_answers htaken hrole hbody), ?_⟩
      simp [dataTaken, hframe, hkept, Nat.not_lt.mpr hkept]
    · rw [if_neg hkept] at hbody
      refine ⟨_, (exec_plateData ..).trans (framed_waits htaken hrole hbody), ?_⟩
      obtain ⟨-, -, hbytes, hhead, hwaits⟩ := nextPage_plt (setWrite (asked s 0x41) (dataWaiting s.plt.write seq off bs))
      have hreply : (nextPage (setWrite (asked s 0x41) (dataWaiting s.plt.write seq off bs))).svc.reply = s.svc.reply := by
        simp only [nextPage_only .., setWrite_svc, asked_reply]
      exact ⟨hbytes, hhead, fun h => absurd h hkept, fun hlater =>
        ⟨hwaits, hreply, nextPage_op_isSome (dataWaiting_pages_ne_nil hbs hlater s.plt.write seq)⟩⟩
  case ends =>
    intro s seq htaken hrole hstate hframe hbytes
    have hbody := plateEnd_takes (s := asked s 0x42) (by rwa [asked_plt]) (by rwa [asked_plt]) (by rwa [asked_plt]) seq
    refine ⟨_, (exec_plateEnd ..).trans (framed_waits htaken hrole hbody), ?_⟩
    simp only [nextPage_plt .., setWrite_write, setWrite_flash, headerTaken, asked_plt, and_self]
  case programs =>
    intro s o bs hop hpage hheld hruns
    refine ⟨_, flashPageProgramEnd_next hop hheld hpage hruns, fun a => ?_⟩
    rw [pageEnd_flash, setFlash_flash, tget_flashProgram]
  case goesOn =>
    intro s o bs p ps hop hpage hheld hruns hpages
    refine ⟨_, flashPageProgramEnd_next hop hheld hpage hruns, ?_⟩
    rw [pageEnd_of_cons (by rwa [setFlash_write])]
    exact ⟨rfl, rfl⟩
  case expires =>
    intro s o hop hheld hmin hmax herase hpage
    refine ⟨_, flashTimeout_next hop hheld herase hpage, ?_⟩
    simp only [flashAbandoned_write ⟨hmin, hmax⟩, and_self]

end Sys2Proof.Machine
end
